-- ==== Sys2Proof/Word.lean ====
section
/-! DEFINITION. The word types of the hub: octets, 16, 32 and 64-bit fields (R10, R11), instants of
Pod Time, and sparse maps. -/

namespace Sys2Proof

/-- An octet. -/
abbrev Byte := BitVec 8
/-- A 16-bit field: Unit IDs, SEQUENCE, opcode numbers. -/
abbrev W16 := BitVec 16
/-- A 32-bit field: a register, a claim, a session tag, a round, a job epoch. -/
abbrev W32 := BitVec 32
/-- A 64-bit field. -/
abbrev W64 := BitVec 64
/-- A 16-bit Unit ID (R18). -/
abbrev UnitId := BitVec 16
/-- A 20-bit Source ID (R21). -/
abbrev SourceId := BitVec 20
/-- A sparse map: keys strictly rising, no entry equal to what its unlisted key reads as. -/
abbrev SMap (α : Type) := List (Nat × α)

end Sys2Proof
end

