-- ==== Sys2Proof/Syntax.lean ====
section
/-! DEFINITION. The commands of the hub: one constructor for each row of spec/opcode_table.json, in the
table's order, with the row's operands. A row that is an ICP opcode carries the header fields the host
chooses (R370) and the payload fields of Table 16-5; an event row carries what its source supplies. -/

namespace Sys2Proof

/-- The header fields of a command packet that vary: SEQUENCE and SESSION (Table 16-2). -/
structure Hdr where
  sequence : W16
  session : W32
  deriving DecidableEq, Repr

/-- The scope block SB (R371) as given, before the checks on SEL and N. -/
structure ScopeBlock where
  scope : Byte
  sel : Byte
  units : List UnitId
  deriving DecidableEq, Repr

/-- The transport a packet uses (R43). -/
inductive Transport where
  | dpt
  | jtag
  deriving DecidableEq, Repr

/-- A die half (R16). -/
inductive Half where
  | west
  | east
  deriving DecidableEq, Repr

/-- One entry of TRACE_CONFIG (Table 16-5): every source s with (s AND mask) = (source AND mask). -/
structure TraceEntry where
  source : W32
  mask : W32
  set : W64
  deriving DecidableEq, Repr

/-- The payload of TRACE_QUERY (Table 16-5, Table 9-7). -/
structure QuerySpec where
  collectors : W32
  types : W16
  always : Byte
  startCollector : Byte
  ptFrom : W64
  ptTo : W64
  tag : W32
  tagMask : W32
  startLineSeq : W64
  maxMatches : W32
  sources : List (W32 × W32)
  deriving DecidableEq, Repr

/-- The payload of SOUNDING_SET (Table 16-5, R275). -/
structure SoundingSpec where
  number : Byte
  tapMask : Byte
  format : Byte
  ctrl : Byte
  stats : W16
  expBase : Byte
  shifts : Byte
  scaleBase : Byte
  depth : Byte
  persist : Byte
  scope : ScopeBlock
  periodUs : W32
  selA : W64
  selB : W64
  tc : W64
  deriving DecidableEq, Repr

/-- One input range of REPLAY (R285). -/
structure ReplayRange where
  base : W64
  scaleBase : W64
  expect : W64
  elements : W32
  format : Byte
  deriving DecidableEq, Repr

/-- The payload of REPLAY (Table 16-5, R285). -/
structure ReplaySpec where
  epoch : W32
  origDigest : W64
  origElements : W32
  origBeginPt : W64
  suspectFrom : W64
  scratch : W64
  outBase : W64
  outScaleBase : W64
  origUnit : UnitId
  spare0 : UnitId
  spare1 : UnitId
  origEngine : Byte
  outFormat : Byte
  options : Byte
  tile : W32
  ranges : List ReplayRange
  descriptor : List Byte
  deriving DecidableEq, Repr

/-- One entry of FAULT_CONFIG (Table 16-5, R310). -/
structure FaultEntry where
  source : W16
  nM1 : Byte
  wexp : Byte
  reaction : Byte
  taint : Byte
  deriving DecidableEq, Repr

/-- A link of the debug control network (R84, R85, R86), named by the node or agent at its lower end:
the link from a bay to an agent, from a pier to a bay, from a root to a pier, a side link from the bay of
pier p toward pier p + 1, and the Span lanes. -/
inductive LinkName where
  | agent (ordinal : Nat)
  | bay (half : Half) (pier bay : Nat)
  | pier (half : Half) (pier : Nat)
  | side (half : Half) (pier bay : Nat)
  | span
  deriving DecidableEq, Repr

/-- A node of a trestle (R84). -/
inductive Node where
  | root (half : Half)
  | pier (half : Half) (pier : Nat)
  | bay (half : Half) (pier bay : Nat)
  deriving DecidableEq, Repr

/-- What sends a COMBINE to a node: an agent below a bay, a node below it, or the other root (R107). -/
inductive Child where
  | agent (unit : UnitId)
  | node (n : Node)
  deriving DecidableEq, Repr

/-- A flit: 64 data bits and 12 sideband bits (R86, R87). -/
structure Flit where
  data : W64
  side : BitVec 12
  deriving DecidableEq, Repr

/-- SCOPE, half and PARTITION of a multicast BULK_WR (R117), and whether the packet is the last one under its TAG. -/
structure McastArg where
  scope : BitVec 2
  half : Half
  partition : BitVec 6
  last : Bool
  deriving DecidableEq, Repr

/-- Direction of a link: toward the agents or toward the root; of a side link, toward pier p + 1 or back; of the
Span, eastward or westward. -/
inductive Dir where
  | down
  | up
  deriving DecidableEq, Repr

/-- Why a link goes down (R92). -/
inductive DownCause where
  | crcThrice
  | silent
  deriving DecidableEq, Repr

/-- The payload of SIGHT_OFFSET (Table 3-3). -/
structure OfferMsg where
  round : W32
  sender : W16
  depth : Byte
  deep : Bool
  ref : W16
  deriving DecidableEq, Repr

/-- The payload of SIGHT_PROBE (Table 3-3). -/
structure ProbeMsg where
  round : W32
  sender : W16
  seq : BitVec 3
  check : Bool
  deriving DecidableEq, Repr

/-- The payload of SIGHT_ECHO (Table 3-3); t2 and t3 are in units of 1/32 ns. -/
structure EchoMsg where
  round : W32
  sender : W16
  seq : BitVec 3
  check : Bool
  committed : Bool
  t2 : Nat
  t3 : Nat
  deriving DecidableEq, Repr

/-- The payload of POD_STOP (Table 6-9). -/
structure PodStopMsg where
  initiator : W16
  hops : Byte
  test : Bool
  stopId : W32
  t : W64
  deriving DecidableEq, Repr

/-- The command at the head of an engine's queue (R141): its tag, and the ungated ns of its unit at which the queue
became non-empty. -/
structure QueueHead where
  tag : W32
  since : Nat
  deriving DecidableEq, Repr

/-- A write of a watchdog limit, with the head of the engine's queue as the write finds it (R141). -/
structure LimitWrite where
  value : W32
  head : Option QueueHead
  deriving DecidableEq, Repr

/-- A DR scan of ICP_DATA: its VALID bit and its word (R381). -/
structure DrScan where
  valid : Bool
  word : W32
  deriving DecidableEq, Repr

/-- A private write of the I3C target, and whether its parity is right (R45, R46). -/
structure PrivateWrite where
  bytes : List Byte
  parityGood : Bool
  deriving DecidableEq, Repr

/-- An access of a memory-fabric port: its first byte, its length, and the PT at which it was issued (R56). -/
structure PortAccess where
  address : W64
  length : Nat
  issued : Nat
  deriving DecidableEq, Repr

/-- A cut marker as a checker port sees it (R154). `identity` is the claim of an on-chip link or the
INITIATOR of a scale-out link; `seq` its SEQ or STOP_ID. -/
structure CutMarker where
  identity : W32
  seq : W32
  instant : Nat
  gatePt : Nat
  late : Bool
  earlySeen : Bool
  deriving DecidableEq, Repr

/-- What a source's engine does (R214), with what a record of it carries beside PT and PARTITION. -/
inductive EngineEvent where
  | begin (tag : W32) (cmdClass : W16)
  | finish (tag : W32) (error : Bool)
  | modelSwitch (newContext prevContext : W32)
  | barrier (tag : W32) (generation ident : W16)
  deriving DecidableEq, Repr

/-- A writeback beat (R265): its byte address, the command's tag and output base, the number of bits
offset of the first element is zero; its data bytes, and the MX scale bytes of its blocks. -/
structure Beat where
  address : Nat
  tag : W32
  outBase : Nat
  data : List Byte
  scales : List Byte
  deriving DecidableEq, Repr

/-- The requests to the command front end (Table 2-9), in the table's order. -/
inductive FeRequest where
  | quiesce
  | resume
  | dropInflight
  | reissue
  | dumpModeEnter
  | dumpModeExit
  deriving DecidableEq, Repr

/-- The front end's answer (Table 2-9). -/
inductive FeAnswer where
  | quiesced (units : List UnitId)
  | resumed
  | dropped (count : W16)
  | reissueAccepted (unit : UnitId) (accepted : Bool)
  | dumpModeEntered
  | dumpModeExited
  deriving DecidableEq, Repr

/-- How a command step ends (R179). -/
inductive StepEnd where
  | commandEnded
  | limit
  | queueEmpty
  | dropped
  deriving DecidableEq, Repr

/-- A receiver of grant words (R357): an output stage or an Abutment. -/
inductive GrantRx where
  | stage (index : Nat)
  | abutment (side : Half)
  deriving DecidableEq, Repr

/-- The wire a heartbeat word arrives on (Table 2-6). -/
inductive BeatWire where
  | toPeer
  | toKeystone
  deriving DecidableEq, Repr

/-- How a unit leaves presence (Table 8-7). -/
inductive LeaveReason where
  | unreachable
  | poweredOff
  | retired
  deriving DecidableEq, Repr

/-- The commands: one constructor for each row of spec/opcode_table.json. -/
inductive Instr where
  -- group 0x00xx: session and identity
  | identify (h : Hdr)
  | sessionChallenge (h : Hdr) (role partition : Byte)
  | sessionOpen (h : Hdr) (role partition : Byte) (response : List Byte)
  | sessionClose (h : Hdr)
  | identityCert (h : Hdr)
  -- group 0x01xx: status
  | hubStatus (h : Hdr)
  | unitStatus (h : Hdr) (sb : ScopeBlock)
  | chipIdSet (h : Hdr) (chip : W16)
  | retiredMapGet (h : Hdr)
  | safeRecordGet (h : Hdr)
  -- group 0x02xx: time
  | timeGet (h : Hdr)
  | sightStart (h : Hdr) (round : W32) (base : W64)
  | sightReset (h : Hdr)
  | sightStatus (h : Hdr)
  -- group 0x03xx: hang, stop, step, inspection
  | declareHang (h : Hdr) (reason : W32)
  | hangStop (h : Hdr) (t : W64) (pod : Byte) (sb : ScopeBlock)
  | stopCancel (h : Hdr)
  | hangStatus (h : Hdr)
  | hangClear (h : Hdr)
  | stepCycles (h : Hdr) (ts : W64) (d : W16) (flags : Byte)
  | stepCommand (h : Hdr) (ts : W64) (unit : UnitId) (engine : Byte) (limit : W16)
  | resume (h : Hdr) (tr : W64) (scope : Byte)
  | inspectRead (h : Hdr) (unit : UnitId) (space : Byte) (offset length : W32)
  | inspectWrite (h : Hdr) (unit : UnitId) (space : Byte) (offset : W32) (data : List Byte)
  -- group 0x04xx: dump
  | dumpRegionSet (h : Hdr) (base size : W64)
  | dump (h : Hdr) (flags : Byte) (regions : List (W64 × W64))
  | dumpStatus (h : Hdr)
  | dumpFetch (h : Hdr) (dumpId : W32) (offset length : W64)
  | dumpImageRegister (h : Hdr) (imageId : List Byte) (address length : W64)
  | dumpImageRemove (h : Hdr) (index : W16)
  | dumpImageList (h : Hdr)
  -- group 0x05xx: trace
  | traceRegionSet (h : Hdr) (base size : W64) (mode flags : Byte) (k : W64)
  | traceConfig (h : Hdr) (tc : W64) (entries : List TraceEntry)
  | traceRestart (h : Hdr)
  | traceTrigger (h : Hdr) (tt : W64) (value : W32)
  | traceMark (h : Hdr) (instant : W64) (value : W32)
  | traceQuery (h : Hdr) (q : QuerySpec)
  | traceStatus (h : Hdr)
  -- group 0x06xx: counters
  | counterRead (h : Hdr) (which : Byte) (sb : ScopeBlock)
  | counterAggregate (h : Hdr) (quantity : W16) (sb : ScopeBlock)
  | counterFreeze (h : Hdr) (f : W64) (mode : Byte) (sb : ScopeBlock)
  | counterSnapshotRead (h : Hdr) (sb : ScopeBlock)
  | counterClear (h : Hdr) (sb : ScopeBlock)
  -- group 0x07xx: soundings and replay
  | soundingSet (h : Hdr) (p : SoundingSpec)
  | soundingClear (h : Hdr) (s : Byte) (td : W64)
  | soundingKey (h : Hdr) (key : List Byte)
  | soundingRead (h : Hdr) (s max : Byte) (postSeq : W32)
  | soundingStatus (h : Hdr)
  | replay (h : Hdr) (p : ReplaySpec)
  | replayStatus (h : Hdr)
  -- group 0x08xx: probe engine
  | probeLoad (h : Hdr) (slot : Byte) (words : List W32)
  | probeStart (h : Hdr) (slot : Byte) (p : W32) (s : W64)
  | probeStop (h : Hdr) (slot : Byte)
  | probeStatus (h : Hdr) (slot : Byte)
  -- group 0x09xx: faults
  | faultConfig (h : Hdr) (entries : List FaultEntry)
  | faultRead (h : Hdr) (fromSeq : W32) (max : Byte)
  | faultAck (h : Hdr) (seqs : List W32)
  | faultHistoryRead (h : Hdr)
  | faultInject (h : Hdr) (source : W16) (unit : UnitId) (data : W32)
  | taintDestSet (h : Hdr) (chips : List W16)
  | taintEpochSet (h : Hdr) (epoch : W32)
  | unitRetire (h : Hdr) (unit : UnitId)
  -- group 0x0Axx: patterns
  | patternLoad (h : Hdr) (offset total : W32) (final : Byte) (data : List Byte)
  | patternRemove (h : Hdr) (packId : W64)
  | patternList (h : Hdr)
  | patternKeyRegister (h : Hdr) (key : List Byte)
  | patternKeyRevoke (h : Hdr) (slot : Byte)
  | runPatterns (h : Hdr) (packId : W64) (pattern : W16) (flags : Byte) (runLimit : W16)
      (units : List UnitId)
  | patternResults (h : Hdr) (pack : Byte)
  | patternResultsClear (h : Hdr) (pack : Byte)
  | candidateList (h : Hdr)
  | candidateExport (h : Hdr) (candSeq : W32)
  | candidateRemove (h : Hdr) (candSeq : W32)
  -- group 0x0Bxx: redundancy
  | redundancyStatus (h : Hdr)
  | standbyResync (h : Hdr)
  | activeRelease (h : Hdr)
  -- group 0x0Cxx: life cycle
  | lifecycleGet (h : Hdr)
  | lifecycleAdvance (h : Hdr) (target : Byte) (confirm : W32)
  | roleKeyProgram (h : Hdr) (role : Byte) (hash : List Byte)
  -- groups 0x0Dxx and 0x0Exx: firmware, registers
  | firmwareInfo (h : Hdr)
  | firmwareWrite (h : Hdr) (offset total : W32) (final : Byte) (data : List Byte)
  | regRead (h : Hdr) (address : W32) (count : W16)
  | regWrite (h : Hdr) (address : W32) (words : List W32)
  -- register writes with a behaviour of their own
  | wdogStatusWrite (unit : UnitId) (value : W32)
  | wdogLimitWrite (unit : UnitId) (engine : Nat) (w : LimitWrite)
  | clearQueues (unit : UnitId) (value : W32)
  | shadowKeepWrite (unit : UnitId) (value : W32)
  | fcCfgWrite (source : Nat) (value : W32)
  -- packets, frames, lane
  | packetReceived (transport : Transport) (bytes : List Byte)
  | dataFrame (bytes : List Byte)
  | ackFrame (bytes : List Byte)
  | nakFrame (bytes : List Byte)
  | ackTimer
  | resendTimeout
  | linkRetrainRequest
  | signalDetect
  | trainingComplete
  | trainingTimeout
  | blockLockLoss
  | laneIdleTimeout
  -- TAP
  | testLogicReset
  | icpDataUpdate (ir : Option Byte) (scan : Option DrScan)
  | icpStatusCapture
  | replyAbandoned
  -- I3C target
  | entdaa (address : BitVec 7)
  | setdasa (address : BitVec 7)
  | rstdaa
  | enec
  | disec
  | getstatus
  | getpid
  | getbcr
  | getdcr
  | getmwl
  | getmrl
  | i3cPrivateWrite (w : PrivateWrite)
  | i3cPrivateRead (count : Nat)
  | wake
  | imageSnapshot
  | ibiAccepted
  -- bench triggers
  | podTrigInEdge (lowNs highNs : Nat)
  | podTrigOutPulse (event : Nat)
  -- time and sighting
  | pllLock
  | pllUnlock
  | referenceLoss
  | referenceReturn
  | sightOffset (link : Nat) (m : OfferMsg)
  | sightProbe (link : Nat) (m : ProbeMsg) (t2 t3 : Nat)
  | sightEcho (link : Nat) (m : EchoMsg) (t4 : Nat)
  | echoTimeout
  | probeSendDue (t1 : Nat)
  | sightStep
  | residualCheck (link : Nat) (t1 : Nat)
  | residualRetry (link : Nat) (t1 : Nat)
  -- control class
  | foreignMessage (msgType : Byte)
  | podStop (link : Nat) (m : PodStopMsg)
  -- DCN links and nodes
  | flitReceived (link : LinkName) (dir : Dir) (flit : Flit)
  | linkControlFlit (link : LinkName) (dir : Dir) (flit : Flit)
  | linkDown (link : LinkName) (cause : DownCause)
  | linkRetrain (link : LinkName) (succeeded : Bool)
  | linkNotice (link : LinkName)
  | routeRestore (link : LinkName)
  -- broadcasts, stops, steps at the agents
  | bcastAccept (unit : UnitId) (cls : BitVec 3) (seq : Byte)
  | stopInstant (unit : UnitId)
  | captureComplete (unit : UnitId) (count : Nat) (blocks : List Byte)
  | cutMarkerArrival (unit : UnitId) (port : Nat) (m : CutMarker)
  | checkerClose (unit : UnitId) (port : Nat) (peerKind : Nat) (peer : W16) (inFlight : Nat) (flitAfterMarker : Bool)
  | stopComplete
  | stepInstant (unit : UnitId)
  | cycleStepEnd (unit : UnitId)
  | commandStepEnd (unit : UnitId) (reason : StepEnd) (fenceStall : Bool)
  | resumeInstant (unit : UnitId)
  | commitInstant (unit : UnitId)
  -- combines and accesses
  | collectReceived (unit : UnitId) (tag : Byte)
  | combineReceived (node : Node) (child : Child) (tag : Byte)
  | combineTimeout (node : Node) (tag : Byte)
  | combineResult (tag : Byte)
  | regAccess (unit : UnitId) (tag : Byte) (write : Bool) (offset : BitVec 10) (data : W32)
  | bulkRead (unit : UnitId) (tag : Byte) (address : BitVec 17) (words : Nat)
  | bulkWrite (unit : UnitId) (tag : Byte) (mcast : Option McastArg) (address : BitVec 17) (data : List W64)
  | accessTimeout (tag : Byte)
  | multicastComplete (tag : Byte)
  | enumProbe (unit : UnitId) (answer : Option UnitId)
  | noticeSend (unit : UnitId)
  -- unit power, partition, events
  | unitPowerOn (unit : UnitId)
  | replicaLoad (unit : UnitId)
  | partitionChange (unit : UnitId) (member : Bool) (ident : BitVec 6)
  | powerDownRequest (unit : UnitId)
  | unitPowerOff (unit : UnitId)
  | emergencyPowerOff (unit : UnitId)
  | unitEvent (unit : UnitId) (code : Byte) (engine : BitVec 4) (data : W32)
  | watchdogExpiry (unit : UnitId) (engine : Nat) (head : Option QueueHead)
  | watchdogNotice (unit : UnitId)
  -- counters
  | counterPush (unit : UnitId)
  | freezeInstant (unit : UnitId)
  | arrayProvisional (half : Half)
  | taggedPush (unit : UnitId)
  | arrayFinalize (half : Half)
  -- trace
  | traceRecord (source : SourceId) (e : EngineEvent)
  | gapClose (collector : Nat)
  | lineWrite (collector : Nat)
  | periodicFix (collector : Nat)
  | triggerInstant (collector : Nat)
  | collectorWake (collector : Nat)
  | sourceClosed (source : SourceId)
  -- soundings
  | writebackBeat (unit : UnitId) (engine : Nat) (beat : Beat)
  | postingInstant (sounding : Nat)
  | postingEdge (unit : UnitId) (sounding : Nat)
  | postingWrite (sounding : Nat)
  | reissueEnd (unit : UnitId) (error : Bool)
  -- front end
  | frontEndAnswer (a : FeAnswer)
  | frontEndTimeout (r : FeRequest)
  -- probe engine
  | probeEvaluation (slot : Nat)
  | waitptResume (slot : Nat)
  | probeTimer (slot : Nat)
  | probeAction
  -- fault collector
  | faultEvent (source : Nat) (unit : UnitId) (data : W32) (originPt : Option Nat)
  | pendingRetirement (unit : UnitId)
  | keystoneFault (stage : Nat) (wordA wordB : W64)
  | notifyTimeout (recordSeq : W32)
  | reactionWindowClose
  | faultCleared (source : Nat)
  | supplyExcursion (domain : Nat) (lowestCode : BitVec 10) (durationNs : Nat) (ongoing : Bool)
  | vddAoResetLevel (lowestCode : BitVec 10)
  | aoPowerOn
  | fastClockLoss (side : Half)
  | portConfinement (half : Half) (access : PortAccess)
  | taintSend
  -- redundancy
  | heartbeatSend (side : Half)
  | heartbeatReceived (sender : Half) (wire : BeatWire) (word : W64)
  | keystoneDecision
  | grantWord (rx : GrantRx) (wordA wordB : W64)
  | stageAccess (stage : Nat) (side : Half) (claim : W32)
  | syncChange (seq : W32) (acked : Bool)
  | syncAckTimeout
  | resyncComplete
  | resyncTimeout
  | resyncRetry
  | soloResyncComplete
  | firmwareUp (side : Half)
  -- power, reset, start-up
  | domainPowerOff (domain : Nat)
  | lowSpeedEntry (side : Half)
  | hubReset
  | hubResetOfTheChip
  | controllerColdCycle (side : Half)
  | otpVote
  | romVerification
  | dcnEnumeration
  | ready
  -- pattern store, sessions, timers, scrubbing
  | patternReload
  | resultsMirror
  | challengeExpiry
  | sessionIdleTimeout (tag : W32)
  | entropyFail
  | testGateFall
  | sramScrub (structureNumber : W16) (uncorrectable : Bool)
  | unitPresenceChange (unit : UnitId) (reason : LeaveReason)
  | opcodeBoundEnd
  | peerHeartbeatMissed (side : Half)
  | runLimitExpiry (unit : UnitId)
  | markInstant (collector : Nat)
  deriving DecidableEq, Repr

end Sys2Proof
end

