-- ==== Sys2Proof/WellFormed.lean ====
section
/-! DEFINITION. When a command can be spelled: fixed-length fields have their length (Table 16-5), counts fit their
count fields and a packet's payload (R370), and numbers name what there is. The machine gives every command a
meaning, well-formed or not; the reader of packets makes well-formed ones. -/

namespace Sys2Proof

/-- A field of exactly `n` octets. -/
def octets (n : Nat) (l : List Byte) : Bool := l.length == n

/-- Octets that end the payload, which holds at most 65,504 (R370). -/
def octetsUpTo (n : Nat) (l : List Byte) : Bool := decide (l.length ≤ n)

/-- A list that a count field, or the opcode's own limit, bounds. -/
def countUpTo {α : Type} (n : Nat) (l : List α) : Bool := decide (l.length ≤ n)

/-- A number below the number of things it names. -/
def below (n : Nat) (x : Nat) : Bool := decide (x < n)

/-- N of a scope block is 16 bits; units stand only under SCOPE 3 (R371). -/
def ScopeBlock.fits (sb : ScopeBlock) : Bool := countUpTo 65535 sb.units && (sb.scope == 3 || sb.units.isEmpty)

/-- A trestle has 16 piers of 4 bays; the last pier of a half, number 15, has fewer agents (R84). -/
def LinkName.fits (l : LinkName) : Bool :=
  match l with
  | .agent o => below 1956 o
  | .bay _ p b => below 16 p && below 4 b
  | .pier _ p => below 16 p
  | .side _ p b => below 16 p && below 4 b
  | .span => true

def Node.fits (n : Node) : Bool :=
  match n with
  | .root _ => true
  | .pier _ p => below 16 p
  | .bay _ p b => below 16 p && below 4 b

def Child.fits (c : Child) : Bool :=
  match c with
  | .agent _ => true
  | .node n => n.fits

/-- Output stages are numbered 0 to 36 (R357). -/
def GrantRx.fits (r : GrantRx) : Bool :=
  match r with
  | .stage i => below 37 i
  | .abutment _ => true

/-- The well-formed commands. -/
def Instr.wellFormed (i : Instr) : Bool :=
  match i with
  | .sessionOpen _ _ _ response => octets 48 response
  | .unitStatus _ sb => sb.fits
  | .hangStop _ _ _ sb => sb.fits
  | .inspectWrite _ _ _ _ data => octetsUpTo 65493 data
  | .dump _ _ regions => countUpTo 255 regions
  | .dumpImageRegister _ imageId _ _ => octets 32 imageId
  | .traceConfig _ _ entries => countUpTo 254 entries
  | .traceQuery _ q => countUpTo 16 q.sources
  | .counterRead _ _ sb => sb.fits
  | .counterAggregate _ _ sb => sb.fits
  | .counterFreeze _ _ _ sb => sb.fits
  | .counterSnapshotRead _ sb => sb.fits
  | .counterClear _ sb => sb.fits
  | .soundingSet _ p => p.scope.fits
  | .soundingKey _ key => octets 16 key
  | .replay _ p => countUpTo 255 p.ranges && octetsUpTo 65504 p.descriptor
  | .probeLoad _ _ words => countUpTo 256 words
  | .faultConfig _ entries => countUpTo 511 entries
  | .faultAck _ seqs => countUpTo 255 seqs
  | .taintDestSet _ chips => countUpTo 4 chips
  | .patternLoad _ _ _ _ data => octetsUpTo 65495 data
  | .patternKeyRegister _ key => octets 97 key
  | .runPatterns _ _ _ _ _ units => countUpTo 65535 units
  | .roleKeyProgram _ _ hash => octets 48 hash
  | .firmwareWrite _ _ _ _ data => octetsUpTo 65495 data
  | .regWrite _ _ words => countUpTo 1024 words
  | .wdogLimitWrite _ engine _ => below 16 engine
  | .fcCfgWrite source _ => below 4096 source
  | .podTrigOutPulse event => below 8 event
  | .sightOffset link _ => below 16 link
  | .sightProbe link _ _ _ => below 16 link
  | .sightEcho link _ _ => below 16 link
  | .residualCheck link _ => below 16 link
  | .residualRetry link _ => below 16 link
  | .podStop link _ => below 16 link
  | .flitReceived link _ _ => link.fits
  | .linkControlFlit link _ _ => link.fits
  | .linkDown link _ => link.fits
  | .linkRetrain link _ => link.fits
  | .linkNotice link => link.fits
  | .routeRestore link => link.fits
  | .combineReceived node child _ => node.fits && child.fits
  | .combineTimeout node _ => node.fits
  | .watchdogExpiry _ engine _ => below 16 engine
  | .gapClose collector => below 32 collector
  | .lineWrite collector => below 32 collector
  | .periodicFix collector => below 32 collector
  | .triggerInstant collector => below 32 collector
  | .collectorWake collector => below 32 collector
  | .writebackBeat _ engine _ => below 16 engine
  | .postingInstant sounding => below 256 sounding
  | .postingEdge _ sounding => below 256 sounding
  | .postingWrite sounding => below 256 sounding
  | .probeEvaluation slot => below 8 slot
  | .waitptResume slot => below 8 slot
  | .probeTimer slot => below 8 slot
  | .faultEvent source _ _ _ => below 4096 source
  | .keystoneFault stage _ _ => below 37 stage
  | .faultCleared source => below 4096 source
  | .supplyExcursion domain _ _ _ => below 22 domain
  | .grantWord rx _ _ => rx.fits
  | .stageAccess stage _ _ => below 37 stage
  | .domainPowerOff domain => below 21 domain
  | .markInstant collector => below 32 collector
  | .identify _ | .sessionChallenge _ _ _ | .sessionClose _ | .identityCert _ | .hubStatus _ | .chipIdSet _ _
  | .retiredMapGet _ | .safeRecordGet _ | .timeGet _ | .sightStart _ _ _ | .sightReset _ | .sightStatus _
  | .declareHang _ _ | .stopCancel _ | .hangStatus _ | .hangClear _ | .stepCycles _ _ _ _
  | .stepCommand _ _ _ _ _ | .resume _ _ _ | .inspectRead _ _ _ _ _ | .dumpRegionSet _ _ _ | .dumpStatus _
  | .dumpFetch _ _ _ _ | .dumpImageRemove _ _ | .dumpImageList _ | .traceRegionSet _ _ _ _ _ _
  | .traceRestart _ | .traceTrigger _ _ _ | .traceMark _ _ _ | .traceStatus _ | .soundingClear _ _ _
  | .soundingRead _ _ _ _ | .soundingStatus _ | .replayStatus _ | .probeStart _ _ _ _ | .probeStop _ _
  | .probeStatus _ _ | .faultRead _ _ _ | .faultHistoryRead _ | .faultInject _ _ _ _ | .taintEpochSet _ _
  | .unitRetire _ _ | .patternRemove _ _ | .patternList _ | .patternKeyRevoke _ _ | .patternResults _ _
  | .patternResultsClear _ _ | .candidateList _ | .candidateExport _ _ | .candidateRemove _ _
  | .redundancyStatus _ | .standbyResync _ | .activeRelease _ | .lifecycleGet _ | .lifecycleAdvance _ _ _
  | .firmwareInfo _ | .regRead _ _ _ | .wdogStatusWrite _ _ | .clearQueues _ _ | .shadowKeepWrite _ _
  | .packetReceived _ _ | .dataFrame _ | .ackFrame _ | .nakFrame _ | .ackTimer | .resendTimeout
  | .linkRetrainRequest | .signalDetect | .trainingComplete | .trainingTimeout | .blockLockLoss
  | .laneIdleTimeout | .testLogicReset | .icpDataUpdate _ _ | .icpStatusCapture | .replyAbandoned
  | .entdaa _ | .setdasa _ | .rstdaa | .enec | .disec | .getstatus | .getpid | .getbcr | .getdcr | .getmwl
  | .getmrl | .i3cPrivateWrite _ | .i3cPrivateRead _ | .wake | .imageSnapshot | .ibiAccepted
  | .podTrigInEdge _ _ | .pllLock | .pllUnlock | .referenceLoss | .referenceReturn | .echoTimeout
  | .probeSendDue _ | .sightStep | .foreignMessage _ | .bcastAccept _ _ _ | .stopInstant _
  | .captureComplete _ _ _ | .cutMarkerArrival _ _ _ | .checkerClose _ _ _ _ _ _ | .stopComplete | .stepInstant _
  | .cycleStepEnd _ | .commandStepEnd _ _ _ | .resumeInstant _ | .commitInstant _ | .collectReceived _ _
  | .combineResult _ | .regAccess _ _ _ _ _ | .bulkRead _ _ _ _ | .bulkWrite _ _ _ _ _ | .accessTimeout _
  | .multicastComplete _ | .enumProbe _ _ | .noticeSend _ | .unitPowerOn _ | .replicaLoad _
  | .partitionChange _ _ _ | .powerDownRequest _ | .unitPowerOff _ | .emergencyPowerOff _ | .unitEvent _ _ _ _
  | .watchdogNotice _ | .counterPush _ | .freezeInstant _ | .arrayProvisional _ | .taggedPush _
  | .arrayFinalize _ | .traceRecord _ _ | .sourceClosed _ | .reissueEnd _ _ | .frontEndAnswer _
  | .frontEndTimeout _ | .probeAction | .pendingRetirement _ | .notifyTimeout _ | .reactionWindowClose
  | .vddAoResetLevel _ | .aoPowerOn | .fastClockLoss _ | .portConfinement _ _ | .taintSend
  | .heartbeatSend _ | .heartbeatReceived _ _ _ | .keystoneDecision | .syncChange _ _ | .syncAckTimeout
  | .resyncComplete | .resyncTimeout | .resyncRetry | .soloResyncComplete | .firmwareUp _ | .lowSpeedEntry _
  | .hubReset | .hubResetOfTheChip | .controllerColdCycle _ | .otpVote | .romVerification | .dcnEnumeration
  | .ready | .patternReload | .resultsMirror | .challengeExpiry | .sessionIdleTimeout _ | .entropyFail
  | .testGateFall | .sramScrub _ _ | .unitPresenceChange _ _ | .opcodeBoundEnd | .peerHeartbeatMissed _
  | .runLimitExpiry _ => true

end Sys2Proof
end

