-- ==== Sys2Proof/Config.lean ====
section
/-! DEFINITION. What the spec leaves to each chip: free values, as constants without a body, and the
constants of the island's ROM that it keeps secret. Nothing in Lean can evaluate one of them (log entry 8). -/

namespace Sys2Proof

/-- Byte `n` of everything the island's entropy source ever delivers (R45, R395). -/
opaque Config.entropyByte : Nat → Byte

/-- The nonce of the n-th ECDSA signature (FIPS 186-5, R399); used modulo the group order. -/
opaque Config.signNonce : Nat → Nat

/-- Byte `n` of the manufacturing H in island ROM, which R394 says is published nowhere. -/
opaque Config.manufacturingHash : Nat → Byte

/-- Byte `n` of the SHA-384 of the Lahebin pattern key in island ROM (R333, R403). -/
opaque Config.lahebinPatternHash : Nat → Byte

/-- Byte `n` of the Lahebin device-CA public key, in the form of a certificate's PUBLIC_KEY (R402, log entry 10). -/
opaque Config.deviceCaKey : Nat → Byte

/-- Byte `n` of the firmware key hash in the loader's own ROM (R417). -/
opaque Config.firmwareKeyHash : Nat → Byte

/-- The compressed form an LZ4 compressor chooses for a block; R198 fixes the frame around it. -/
opaque Config.lz4Block : List Byte → List Byte

/-- AGENT_ID.LAYOUT of a unit class: "Per class" (Table 5-3), with no values given. -/
opaque Config.layoutVersion : Nat → Byte

/-- DEPTH of instrumented queue `q` of a unit class and index: "Per queue" (Table 5-14). -/
opaque Config.queueDepth : (cls index q : Nat) → W16

/-- Occupancy of instrumented queue `q` of a unit at a unit-clock cycle since its power-on: the unit's own traffic
(R136, log entry 99). -/
opaque Config.queueOccupancy : (ordinal q cycle : Nat) → Nat

/-- Byte of a unit's SRAM after its contents have become undefined (R391): ordinal, how often, address. -/
opaque Config.lostSram : (ordinal times address : Nat) → Byte

/-- Byte `n` of a shadow or of SRAM (by TYPE of the section, 1 or 2) in a word with an uncorrectable error, as the memory
delivers it (R209). -/
opaque Config.errorByte : (ordinal typ n : Nat) → Byte

/-- Whether a unit class implements the unit register at a word offset (R124). -/
opaque Config.unitRegister : (cls offset : Nat) → Bool

/-- What a write of a unit register asks of the factory memory test modes: to enter one, to leave it, or neither; the
layout belongs to each unit class (R391, log entry 168). -/
opaque Config.testModeOf : (cls offset : Nat) → W32 → Option Bool

/-- Octets of the trims in OTP (R392, log entry 169): the spec gives no width. -/
opaque Config.trimBytes : Nat

/-- The firmware image the chip leaves the factory with (log entry 6). -/
opaque Config.factoryImage : Unit → List Byte

/-- FLAGS of SIGHT_STATUS: the table gives the octet and not its bits. -/
opaque Config.sightFlags : (deep unsighted lostRef : Bool) → Byte

/-- LINK_FLAGS of SIGHT_STATUS: the table gives the word and not its bits. -/
opaque Config.linkFlags : (up checked asym unchecked : Bool) → W32

/-- PARENT of SIGHT_STATUS where there is no parent. -/
opaque Config.noParent : Unit → Byte

/-- MARK_VALUE of the trigger Mark of a hang declaration: "given by the origin", and no value is stated. -/
opaque Config.hangMarkValue : Nat → W32

/-- Whether line writes were waiting on the memory-fabric port at a gap's first drop (R235 CAUSE); the port's
timing is not in the model. -/
opaque Config.portWaiting : Nat → Bool

/-- VERDICT of MATCH (0), INPUT_CHANGED (1) and REFUSED (2): only the codes 1 to 4 and 0 (none) are given. -/
opaque Config.verdictCode : Nat → Byte

/-- The command tag that a captured descriptor carries; the hub's spec gives no layout of descriptors. -/
opaque Config.descriptorTag : List Byte → W32

/-- SLOT of a sounding that is armed and holds a slot in no engine (Table 19-7). -/
opaque Config.noSlot : Unit → Byte

/-- Whether a port of a scale-out link unit belongs to its scale-out link; its other ports are on the main fabric (R154). -/
opaque Config.scaleOutPort : (index port : Nat) → Bool

/-- Checker ports of a unit of a class and index (R154, R155): the spec numbers a unit's ports, at most 64, and does not
count them. -/
opaque Config.checkerPorts : (cls index : Nat) → Nat

/-- The event ring slot whose uncorrectable error a scrub finds: SRAM_SCRUB names the ring and not the slot (R420). -/
opaque Config.scrubbedSlot : Nat → BitVec 6

end Sys2Proof
end

