-- ==== Sys2Proof/Machine/Bytes.lean ====
section
/-! DEFINITION. Octet strings and little-endian fields (R11), the field alignment of R371, the sparse maps,
and the checksums CRC-8 (R87) and CRC-32C (R367). -/

namespace Sys2Proof.Machine

/-! ### Sparse maps -/

/-- What a map reads at `k`; `d` is what an unlisted key reads as. -/
def mapGet {α : Type} (d : α) : SMap α → Nat → α
  | [], _ => d
  | (k, v) :: m, i => if i = k then v else mapGet d m i

/-- The value listed at a key. -/
def mapFind {α : Type} : SMap α → Nat → Option α
  | [], _ => none
  | (k, v) :: m, i => if i = k then some v else mapFind m i

/-- The map without an entry at `i`; a write is read back whatever form the map has. -/
def mapErase {α : Type} : SMap α → Nat → SMap α
  | [], _ => []
  | (k, v) :: m, i => if i = k then mapErase m i else (k, v) :: mapErase m i

/-- The map with `v` listed at `i`, in key order. -/
def mapInsert {α : Type} : SMap α → Nat → α → SMap α
  | [], i, v => [(i, v)]
  | (k, w) :: m, i, v =>
    if i < k then (i, v) :: (k, w) :: m
    else if i = k then (k, v) :: m
    else (k, w) :: mapInsert m i v

/-- Write `v` at `i`: a value equal to what an unlisted key reads as is not listed. -/
def mapSet {α : Type} [DecidableEq α] (d : α) (m : SMap α) (i : Nat) (v : α) : SMap α :=
  if v = d then mapErase m i else mapInsert m i v

/-- Apply `f` to the value at `i`. -/
def mapMod {α : Type} [DecidableEq α] (d : α) (m : SMap α) (i : Nat) (f : α → α) : SMap α :=
  mapSet d m i (f (mapGet d m i))

/-- Keys strictly rising, each above `lo`, and no value equal to `d`. -/
def mapWfFrom {α : Type} [DecidableEq α] (d : α) : Nat → SMap α → Bool
  | _, [] => true
  | lo, (k, v) :: m => decide (lo ≤ k) && decide (v ≠ d) && mapWfFrom d (k + 1) m

/-- The canonical form of a sparse map. -/
def mapWf {α : Type} [DecidableEq α] (d : α) (m : SMap α) : Bool := mapWfFrom d 0 m

/-! ### Memory -/

/-- Memory in its canonical form. -/
def memWf (m : SMap Byte) : Bool := mapWf 0 m

/-- One byte of memory; a byte never written reads zero (log entry 5). -/
def memByte (m : SMap Byte) (a : Nat) : Byte := mapGet 0 m a

/-- Write one byte of memory. -/
def memSet (m : SMap Byte) (a : Nat) (b : Byte) : SMap Byte := mapSet 0 m a b

/-- Octets from an address upward, as a map lists them: zero octets are not listed. -/
def listed : Nat → List Byte → SMap Byte
  | _, [] => []
  | a, b :: bs => if b = 0 then listed (a + 1) bs else (a, b) :: listed (a + 1) bs

/-- Write octets from an address upward: the bytes below, the octets, the bytes above. -/
def memWrite (m : SMap Byte) (a : Nat) (bs : List Byte) : SMap Byte :=
  (m.filter fun p => decide (p.1 < a)) ++ listed a bs ++ m.filter fun p => decide (a + bs.length ≤ p.1)

/-- `n` octets from an address upward. -/
def memRead (m : SMap Byte) : Nat → Nat → List Byte
  | _, 0 => []
  | a, n + 1 => memByte m a :: memRead m (a + 1) n

/-! ### Little-endian fields -/

/-- `n` octets of `v`, byte 0 first (R11). -/
def le : Nat → Nat → List Byte
  | 0, _ => []
  | n + 1, v => BitVec.ofNat 8 v :: le n (v / 256)

/-- The number octets spell, byte 0 lowest (R11). -/
def leNat : List Byte → Nat
  | [] => 0
  | b :: bs => b.toNat + 256 * leNat bs

/-- The number octets spell, first octet highest (octet strings of the standards, R11). -/
def beNat (bs : List Byte) : Nat := leNat bs.reverse

/-- `n` octets of `v`, highest first. -/
def be (n v : Nat) : List Byte := (le n v).reverse

/-- `n` zero octets. -/
def zeros (n : Nat) : List Byte := List.replicate n 0

/-- Exactly `n` octets: cut, or padded with zeros. -/
def fit (n : Nat) (bs : List Byte) : List Byte := bs.take n ++ zeros (n - bs.length)

/-- Pad to a multiple of `n` octets. -/
def padTo (n : Nat) (bs : List Byte) : List Byte := bs ++ zeros ((n - bs.length % n) % n)

/-- The alignment of a field of width `w` (R371). -/
def alignOf (w : Nat) : Nat := if w = 2 ∨ w = 4 ∨ w = 8 then w else 1

/-- Append a field of `w` octets at its alignment (R371). -/
def put (w v : Nat) (bs : List Byte) : List Byte := padTo (alignOf w) bs ++ le w v

/-- Append an octet string, which needs no alignment. -/
def putBytes (s bs : List Byte) : List Byte := bs ++ s

/-- Saturate a count at 2^64 − 1. -/
def sat64 (n : Nat) : Nat := min n 0xFFFFFFFFFFFFFFFF

/-- Saturate a count at 2^32 − 1. -/
def sat32 (n : Nat) : Nat := min n 0xFFFFFFFF

/-- Saturate a count at 2^16 − 1. -/
def sat16 (n : Nat) : Nat := min n 0xFFFF

/-- Saturate a count at 2^8 − 1. -/
def sat8 (n : Nat) : Nat := min n 0xFF

/-- Bits `[hi:lo]` of a number (R10). -/
def bits (v hi lo : Nat) : Nat := v / 2 ^ lo % 2 ^ (hi + 1 - lo)

/-- Bit `i` of a number. -/
def bit (v i : Nat) : Bool := v / 2 ^ i % 2 = 1

/-- A flag as a number. -/
def b2n (b : Bool) : Nat := if b then 1 else 0

/-! ### Reading fields -/

/-- A cursor over a payload. -/
structure Rd where
  bytes : List Byte
  off : Nat := 0

/-- Skip to the next multiple of `n`. -/
def Rd.skipTo (n : Nat) (r : Rd) : Rd := { r with off := r.off + (n - r.off % n) % n }

/-- The next field of `w` octets at its alignment (R371): value, its offset and the cursor after it;
none where the payload ends before it. -/
def Rd.get (w : Nat) (r : Rd) : Option (Nat × Nat × Rd) :=
  let o := (r.skipTo (alignOf w)).off
  if o + w ≤ r.bytes.length then some (leNat ((r.bytes.drop o).take w), o, { r with off := o + w }) else none

/-- The next `n` octets, with no alignment. -/
def Rd.octets (n : Nat) (r : Rd) : Option (List Byte × Rd) :=
  if r.off + n ≤ r.bytes.length then some ((r.bytes.drop r.off).take n, { r with off := r.off + n }) else none

/-- All octets left. -/
def Rd.rest (r : Rd) : List Byte := r.bytes.drop r.off

/-! ### Checksums -/

/-- One bit into the CRC-8 of R87: polynomial 0x2F, no reflection. -/
def crc8Bit (c : Byte) (b : Bool) : Byte :=
  let t := c.msb != b
  let s := c <<< 1
  if t then s ^^^ 0x2F else s

/-- Bits `n − 1` down to 0 of a number, the most significant first. -/
def bitsDown : Nat → Nat → List Bool
  | 0, _ => []
  | n + 1, v => bit v n :: bitsDown n v

/-- CRC-8 of a bit string: initial value 0xFF, no final inversion (R87). -/
def crc8 (l : List Bool) : Byte := l.foldl crc8Bit 0xFF

/-- `k` shifts of the reflected CRC-32C register (R367). -/
def crc32cShift : Nat → W32 → W32
  | 0, c => c
  | k + 1, c => crc32cShift k (if c.getLsbD 0 then (c >>> 1) ^^^ 0x82F63B78 else c >>> 1)

/-- One octet into CRC-32C. -/
def crc32cByte (c : W32) (b : Byte) : W32 := crc32cShift 8 (c ^^^ b.setWidth 32)

/-- The CRC-32C register after some octets. Its value is a number that is matched at each octet, so that an evaluation
need not hold all of them open. -/
def crc32cRun : List Byte → Nat → Nat
  | [], c => c
  | b :: bs, 0 => crc32cRun bs (crc32cByte 0 b).toNat
  | b :: bs, c + 1 => crc32cRun bs (crc32cByte (BitVec.ofNat 32 (c + 1)) b).toNat

/-- CRC-32C (R367). -/
def crc32c (bs : List Byte) : W32 := BitVec.ofNat 32 (crc32cRun bs 0xFFFFFFFF) ^^^ 0xFFFFFFFF

/-! ### Serial numbers -/

/-- "Later" by serial-number arithmetic on `n`-bit values (R83, R103): (new − old) mod 2^n lies from 1 to
2^(n−1) − 1. -/
def laterThan (n new old : Nat) : Bool :=
  let d := (new + 2 ^ n - old % 2 ^ n) % 2 ^ n
  decide (1 ≤ d) && decide (d < 2 ^ (n - 1))

/-! ### Lists -/

/-- Cut a list into pieces of `n`, by fuel. -/
def chunksFuel {α : Type} (n : Nat) : Nat → List α → List (List α)
  | 0, _ => []
  | f + 1, l => if l.isEmpty then [] else l.take n :: chunksFuel n f (l.drop n)

/-- Cut a list into pieces of `n` elements, the last one shorter. -/
def chunks {α : Type} (n : Nat) (l : List α) : List (List α) := chunksFuel n l.length l

/-- The 32-bit words of octets, padded with zero octets. -/
def words32 (bs : List Byte) : List W32 := (chunks 4 bs).map fun c => BitVec.ofNat 32 (leNat c)

/-- The 64-bit words of octets. -/
def words64 (bs : List Byte) : List W64 := (chunks 8 bs).map fun c => BitVec.ofNat 64 (leNat c)

/-- The octets of ASCII text. -/
def ascii (s : String) : List Byte := s.toList.map fun c => BitVec.ofNat 8 c.toNat

/-- The highest of a list, 0 for none. -/
def maxOf (l : List Nat) : Nat := l.foldl max 0

/-- The lowest number from 0 up to `n` that is not in the list. -/
def lowestFree (l : List Nat) (n : Nat) : Option Nat := (List.range n).find? fun i => !l.contains i

end Sys2Proof.Machine
end

