-- ==== Sys2Proof/Machine/Types.lean ====
section
/-! DEFINITION. The parts of the hub's state, block by block: plain data, each field with the rule of
the spec that names it. A default value is the reset value of the spec, or the one a log entry names. -/

namespace Sys2Proof.Machine

/-! ### Codes -/

/-- Life-cycle states (Table 17-1). -/
inductive LifeCycle where
  | blank | test | production | endOfLife | locked
  deriving DecidableEq, Repr

/-- Session roles (R394). -/
inductive Role where
  | observer | operator | vendor
  deriving DecidableEq, Repr

/-- Modes of the time unit (Table 3-1). -/
inductive TimeMode where
  | interpolated | deadReckoned | holdover
  deriving DecidableEq, Repr

/-- Sighting states (Table 3-2). -/
inductive SightState where
  | idle | measuring | committed | behind | failed
  deriving DecidableEq, Repr

/-- Lane states (Table 2-2). -/
inductive Lane where
  | off | training | up
  deriving DecidableEq, Repr

/-- Controller roles (Table 15-1). -/
inductive CtrlRole where
  | booting | active | synchronized | unsynchronized | resynchronizing | withdrawn
  deriving DecidableEq, Repr

/-- An agent's own states (Table 5-4 STATE). -/
inductive AgState where
  | running | stopping | stopped | stepping
  deriving DecidableEq, Repr

/-- Status codes of a reply (Table 16-3). -/
inductive Status where
  | ok | busy | denied | badState | badArg | boundReached | unreachable | discarded | safeState | notHung
  deriving DecidableEq, Repr

/-- States of a probe slot (Table 12-7 STATE). -/
inductive ProbeSt where
  | empty | loaded | running | evaluating | waiting | stopped
  deriving DecidableEq, Repr

/-- The scope of a broadcast (R98), as R148 maps a scope block onto it. -/
inductive Scope where
  | chip
  | half (h : Half)
  | part (p : BitVec 6)
  | mask
  deriving DecidableEq, Repr

/-! ### Time and sighting (Pod Time, Dead Reckoning and Sighting) -/

/-- The time unit (R61 to R66). Hub PT is `base + 40 * edge`, and `sub` ns more in Interpolated mode. -/
structure TimeUnit where
  /-- Rising edges of the AO reference since counting started (R61, R62). -/
  edge : Nat := 0
  /-- ns since the latest edge, 0 to 39 (R62). -/
  sub : Nat := 0
  /-- BASE (R62). -/
  base : Nat := 0
  /-- TIME_STATE.MODE (Table 3-1); reset 1, Dead-reckoned. -/
  mode : TimeMode := .deadReckoned
  /-- TIME_STATE.PLL_LOCKED. -/
  pllLocked : Bool := false
  /-- PLL_LOCKED at the latest AO edge, by which Holdover fills PT in (R64, Table 3-1). -/
  lockedAtEdge : Bool := false
  /-- The pod reference is lost (R66). -/
  refLost : Bool := false
  /-- The fraction of a sighting step in the PLL phase, in 1/32 ns (R73). -/
  phase32 : Nat := 0
  /-- The mode that takes effect at the next AO edge (R64). -/
  nextMode : Option TimeMode := none
  /-- BASE change that takes effect at the next AO edge: the PT wanted at that edge (R69). -/
  nextPt : Option Nat := none
  deriving DecidableEq, Repr

/-- A valid exchange with the parent (R72), offset and round trip in 1/32 ns. -/
structure Exchange where
  seq : Nat
  offset : Int
  trip : Int
  deriving DecidableEq, Repr

/-- The probe on its way (R72): its link, number, departure stamp in 1/32 ns and departure PT. -/
structure ProbeOut where
  link : Nat
  seq : Nat
  t1 : Nat
  sentPt : Nat
  check : Bool
  deriving DecidableEq, Repr

/-- What is known of one scale-out link (R75). -/
structure LinkResidual where
  /-- Residual in 1/32 ns, signed. -/
  residual : Int := 0
  /-- Four exchanges completed. -/
  checked : Bool := false
  /-- ASYM: the magnitude exceeded 12.5 ns. -/
  asym : Bool := false
  /-- Recorded as unchecked after 100 ms of retries. -/
  unchecked : Bool := false
  /-- Valid exchanges of the check so far. -/
  got : List Exchange := []
  /-- Probes sent in this check. -/
  sent : Nat := 0
  /-- PT of the first attempt of the check, while it runs. -/
  since : Option Nat := none
  /-- The check's probe on its way, and the PT of the latest failure. -/
  probe : Option ProbeOut := none
  failedPt : Option Nat := none
  /-- PT of the latest echo arrival or time-out on the link (R72). -/
  echoPt : Option Nat := none
  deriving DecidableEq, Repr

/-- The sighting engine (R69 to R80). -/
structure Sighting where
  state : SightState := .idle
  depth : Nat := 0
  deep : Bool := false
  parent : Option Nat := none
  /-- The last round this chip has taken part in; none since AO power-on (R69). -/
  lastRound : Option W32 := none
  /-- Chip ID of the reference chip of that round (R77). -/
  ref : W16 := 0
  /-- SIGHT_STEP: integer part of the step applied in the last round. -/
  step : Nat := 0
  /-- Probes sent to the parent in this measurement. -/
  sent : Nat := 0
  echoes : List Exchange := []
  probe : Option ProbeOut := none
  /-- PT at which the offer of this measurement was taken (R71). -/
  offerPt : Option Nat := none
  /-- PT of the latest echo arrival or time-out. -/
  lastEchoPt : Nat := 0
  /-- PT of the fourth valid echo, once there. -/
  fourthPt : Option Nat := none
  /-- PT of entry to Committed. -/
  committedPt : Nat := 0
  /-- The lost-reference cause (R70). -/
  lostRef : Bool := false
  /-- A SIGHT_START waiting for its AO edge (R69). -/
  starting : Bool := false
  residuals : SMap LinkResidual := []
  deriving DecidableEq, Repr

/-! ### Port, TAP, I3C, bench triggers -/

/-- One reply packet (R370, R372). -/
structure Packet where
  more : Bool
  opcode : W16
  sequence : W16
  status : Status
  session : W32
  payload : List Byte
  deriving DecidableEq, Repr

/-- A DATA frame sent and not yet acknowledged (R368). -/
structure TxFrame where
  fseq : W16
  packet : Packet
  resends : Nat
  sentPt : Nat
  deriving DecidableEq, Repr

/-- The link layer of the Debug Port (R366 to R369) and the lane (R38). -/
structure Port where
  lane : Lane := .off
  /-- Energy was detected on the lane before Ready (R422). -/
  energy : Bool := false
  /-- PT of entry to Training. -/
  trainingPt : Nat := 0
  /-- PT of the latest frame (R40). -/
  lastFramePt : Nat := 0
  nextFseq : W16 := 0
  expectFseq : W16 := 0
  unacked : List TxFrame := []
  waiting : List Packet := []
  /-- PT of the latest advance of ACK (R369). -/
  ackPt : Nat := 0
  /-- PT of the latest NAK sent, for the 10 us rule. -/
  nakPt : Option Nat := none
  /-- PT of the oldest DATA frame received and not yet acknowledged. -/
  ackDue : Option Nat := none
  /-- PORT_RETRAINS, PORT_CRC, PORT_NAKS, PORT_RESENDS, PORT_ERRORS, PORT_BUSY (Table 19-8). -/
  retrains : Nat := 0
  crc : Nat := 0
  naks : Nat := 0
  resends : Nat := 0
  errors : Nat := 0
  busy : Nat := 0
  deriving DecidableEq, Repr

/-- What of a reply packet has not entered the JTAG reply buffer yet: its words, whether some have entered, and whether it
belongs to the reply of the executing command; a BUSY answer to another packet does not (R375). -/
structure TxPart where
  words : List W32
  begun : Bool := false
  own : Bool := true
  deriving DecidableEq, Repr

/-- The hub's TAP and the ICP word transport (R42 to R44, R381 to R383). -/
structure Tap where
  /-- Instruction register (Table 2-3); Test-Logic-Reset selects IDCODE. -/
  ir : Byte := 0x01
  halted : Bool := false
  overrun : Bool := false
  crcErr : Bool := false
  dptDiscard : Bool := false
  abandoned : Bool := false
  rx : List W32 := []
  tx : List W32 := []
  /-- Reply packets that wait for room in the 64 KiB reply buffer, oldest first. -/
  txWait : List TxPart := []
  /-- Session, sequence number and opcode of the executing command whose reply waits (R363, R375). -/
  waitFor : Option (W32 × W16 × W16) := none
  /-- PT since which the buffer is full with no word delivered. -/
  fullSince : Option Nat := none
  deriving DecidableEq, Repr

/-- The I3C target (R45 to R48). -/
structure I3c where
  dynAddr : Option (BitVec 7) := none
  /-- How often the provisioned ID has been drawn: once at each AO power-on (R45). -/
  idDraws : Nat := 0
  ibiEnabled : Bool := false
  protocolError : Bool := false
  /-- The IBI data byte that waits to be accepted, and the value of which the latest change has been seen (R48). -/
  ibi : Option Byte := none
  ibiSeen : Byte := 0
  index : Nat := 0
  /-- Bytes 0x00 to 0x27 of the latest image (Table 2-4); none before the first. -/
  image : List Byte := []
  imagePt : Nat := 0
  /-- VDD_AO excursions since AO power-on, saturating at 16 bits. -/
  excursions : Nat := 0
  /-- Lowest VDD_AO voltage code since the previous image. -/
  lowest : Nat := 750
  deriving DecidableEq, Repr

/-- The bench triggers (R49 to R51, Table 19-5). -/
structure Trig where
  inCtrl : BitVec 4 := 0
  inCount : W32 := 0
  inOverrun : Nat := 0
  inDenied : Nat := 0
  inPt : Nat := 0
  outCtrl : Byte := 0
  outCount : Nat := 0
  /-- PT at which the pulse in progress ends; the ball is high before it. -/
  outUntil : Nat := 0
  deriving DecidableEq, Repr

/-! ### Debug control network -/

/-- A broadcast the hub issued (R98): class, scope, SEQ, INSTANT, CLAIM, class argument, the COLLECT's
TAG, and the PT at which it left the active root. -/
structure Bcast where
  cls : Nat
  scope : Scope
  seq : Byte
  instant : Nat
  claim : W32
  arg : W32
  tag : Byte
  issuePt : Nat
  /-- It is a copy that the hub reissued after rerouting (R116). -/
  copy : Bool := false
  /-- The root that issued it, where that need not be the active one: SAFE goes out on each trestle (Table 13-7). -/
  root : Option Half := none
  deriving DecidableEq, Repr

/-- What a combine result is for (R111). -/
inductive Issuer where
  | states
  | valid
  | cancelled
  | gated
  | shadows
  /-- Shows that every agent is Stopped before a cycle step (R171). -/
  | standing
  | resumed
  | freeze
  | aggregate
  | posting (sounding word : Nat)
  | probe (slot : Nat)
  /-- Confirms a probe's FREEZE, without a reply (Table 12-5). -/
  | probeFreeze
  | multicast
  deriving DecidableEq, Repr

/-- A reduced value with COUNT, MISSING and WRAP (R107). -/
structure Reduced where
  value : BitVec 320 := 0
  count : Nat := 0
  missing : Nat := 0
  wrap : Bool := false
  /-- The agents whose values it holds, as the nodes can tell them (log entry 107). -/
  units : List UnitId := []
  deriving DecidableEq, Repr

/-- One combine slot of a node (R110, R111): what it has reduced, which children have reported and
which are expected, each with the number of expected agents under it. -/
structure NodeSlot where
  node : Node
  acc : Reduced
  expected : List (Child × Nat)
  /-- At the active root: the other root's result, which is reduced last (R110). -/
  last : Option Reduced := none
  deriving DecidableEq, Repr

/-- A COMBINE on its way to a node. -/
structure UpMsg where
  node : Node
  child : Child
  body : Reduced
  deriving DecidableEq, Repr

/-- The four light totals (Table 10-1). -/
structure Totals where
  busy : Nat := 0
  cmds : Nat := 0
  corr : Nat := 0
  uncorr : Nat := 0
  deriving DecidableEq, Repr

/-- A combine in progress (R105 to R111). -/
structure Combine where
  tag : Byte
  op : Nat
  quantity : Nat
  scope : Scope
  instant : Nat
  timeoutUs : Nat
  issuer : Issuer
  slots : List NodeSlot
  ups : List UpMsg
  /-- PT at which the COLLECT left the active root, from which the nodes' timers run (R110). -/
  issuePt : Nat := 0
  /-- Agents that have sampled and answered. -/
  answered : List UnitId := []
  /-- SEQ of its COLLECT, and the agents that have received it, each with whether it lies in the scope (R98, R109). -/
  seq : Byte := 0
  received : List (UnitId × Bool) := []
  /-- COUNTER_AGGREGATE: the AO arrays as INSTANT found them (R261). -/
  arrays : Option (SMap Totals) := none
  /-- The active root's result, once reduced. -/
  result : Option Reduced := none
  deriving DecidableEq, Repr

/-- A COLLECT that waits for a combine slot (R111). -/
structure CollectReq where
  op : Nat
  quantity : Nat
  scope : Scope
  instant : Nat
  timeoutUs : Nat
  issuer : Issuer
  deriving DecidableEq, Repr

/-- A packet (R93, Table 4-4). -/
structure Pkt where
  typ : Nat
  op : Nat := 0
  unit : UnitId := 0
  tag : Byte := 0
  arg : BitVec 26 := 0
  body : List W64 := []
  deriving DecidableEq, Repr

/-- A unicast transaction outstanding at the root (R97, R113), with its request. -/
structure Txn where
  tag : Byte
  unit : UnitId
  request : Pkt
  /-- Requests sent so far: 1, or 2 after the resend. -/
  tries : Nat
  sentPt : Nat
  deriving DecidableEq, Repr

/-- A multicast in progress (R117, R118): its packets, each with its bulk address in 8-byte units. -/
structure Mcast where
  tag : Byte
  scope : Scope
  packets : List (Nat × List W64)
  /-- The agents it addresses (R117). -/
  addressed : List UnitId := []
  took : List UnitId := []
  refused : List UnitId := []
  /-- Its combine has ended. -/
  combined : Bool := false
  /-- The unicast retries have been sent; agents whose answer is still to come, and those reported as not reached. -/
  sent : Bool := false
  waiting : List UnitId := []
  lost : List UnitId := []
  deriving DecidableEq, Repr

/-- A notice (R128, Table 5-8). -/
structure Notice where
  kind : Nat
  unit : UnitId
  tag : Byte := 0
  arg : BitVec 26
  body : W64
  deriving DecidableEq, Repr

/-- A flit where it waits, with the head of its packet and its place in the packet, the head first. -/
structure Cell where
  flit : Flit
  head : W64
  index : Nat
  deriving DecidableEq, Repr

/-- A direction of a link; an input of a node is the one the flit came over, or none for what the node itself or the
hub at its root sends. -/
abbrev Way := LinkName × Dir
abbrev Input := Option Way

/-- One direction of a DCN link, with its transmitter and its receiver (R88 to R92, R95). -/
structure LinkEnd where
  /-- Sequence number of the latest new flit, the flits sent and not acknowledged, oldest first, and how many of the
  latest of them are still to be sent again (R88, R91). -/
  txSeq : BitVec 6 := 0
  replay : List Cell := []
  resend : Nat := 0
  ctlCredit : Nat := 8
  bulkCredit : Nat := 16
  latchFree : Byte := 0xFF
  /-- The input that the control lane and the bulk lane served last, whether its packet goes on, and the flits of the
  bulk segment sent so far (R95). -/
  ctlFrom : Option (Input × Bool) := none
  bulkFrom : Option (Input × Bool) := none
  segment : Nat := 0
  /-- Sequence number of the latest flit taken in order, and a NAK that is due to the transmitter (R91). -/
  rxSeq : BitVec 6 := 0
  nakDue : Bool := false
  /-- CRC failures in a row at one sequence number (R92). -/
  crcRun : Nat := 0
  /-- PT of the latest good link-control flit in this direction (R92). -/
  ctlPt : Nat := 0
  /-- The receiver's control-lane and bulk-lane slots, oldest first, and the broadcast in assembly (R90, R101). -/
  ctl : List Cell := []
  bulk : List Cell := []
  bcast : List Cell := []
  /-- Ways over which the first multicast flit in the bulk slots has gone. -/
  gone : List Way := []
  /-- Packets on their way in this direction whose head has arrived as another one than was sent, each with both. -/
  heads : List (W64 × W64) := []
  /-- Slots freed since the latest link-control flit that told of them (Table 4-2). -/
  freedCtl : Nat := 0
  freedBulk : Nat := 0
  deriving DecidableEq, Repr

/-- A link with its two directions, and its CRC failures since its latest LINK notice (Table 5-8). -/
structure LinkSt where
  up : Bool := true
  downward : LinkEnd := {}
  upward : LinkEnd := {}
  downPt : Nat := 0
  crcSince : Nat := 0
  deriving DecidableEq, Repr

/-- A node's latch that holds a broadcast of a class: its flits, the ways it is still to leave by, each with the
flits that have gone (R101), and the PT from which it may leave (R102). -/
structure Latch where
  node : Node
  cls : Nat
  flits : List Cell
  left : List (Way × Nat)
  startPt : Nat := 0
  deriving DecidableEq, Repr

/-- A notice in a node's queue, with its link and state; an OVERFLOW has none (R92, R129). -/
structure NodeNotice where
  link : Option (LinkName × Bool)
  notice : Notice
  deriving DecidableEq, Repr

/-- A node's queue of notices, at most 8, and the notices dropped since the latest OVERFLOW. -/
structure NodeQueue where
  notices : List NodeNotice := []
  lost : Nat := 0
  deriving DecidableEq, Repr

/-- The per-half registers of the network (Table 19-4). -/
structure DcnHalf where
  /-- PT at which the domain powered on (R119). -/
  onPt : Nat := 0
  crc : Nat := 0
  late : Nat := 0
  proto : Nat := 0
  deriving DecidableEq, Repr

/-- The debug control network. -/
structure Dcn where
  /-- The eight SEQ counts (R103): the SEQ of the latest broadcast of each class. -/
  seqs : SMap Byte := []
  /-- Issued broadcasts, oldest first; those of the last 10 us are kept (R116). -/
  issued : List Bcast := []
  lastIssue : Option Nat := none
  /-- PT before which the woken or slow Abutment cannot issue (Table 6-12, log entry 147). -/
  readyPt : Nat := 0
  nextTag : Byte := 0
  txns : List Txn := []
  /-- Requests that wait for a TAG (R97), each with the number of its sending (R113). -/
  txnWait : List (Nat × Pkt) := []
  combines : List Combine := []
  /-- Combines that have ended, for contributions that come late (R110), and COLLECTs that wait for a slot (R111). -/
  ended : List Combine := []
  collects : List CollectReq := []
  mcasts : List Mcast := []
  /-- DCN_CTRL.TIMEOUT_M1. -/
  timeoutM1 : BitVec 6 := 1
  west : DcnHalf := {}
  east : DcnHalf := {}
  links : List (LinkName × LinkSt) := []
  /-- Bays that are adopted, with the pier that carries them (R115). -/
  adopted : List ((Half × Nat × Nat) × Nat) := []
  /-- Notices that have reached the hub and wait for their step. -/
  inbox : List Notice := []
  /-- The nodes' queues of notices (R92). -/
  nodes : List (Node × NodeQueue) := []
  /-- Flits that an agent, a node or the hub at its root has still to send (R95), the nodes' latches, and broadcasts
  that wait for a node's latch, with no way to leave by as yet (R101). -/
  sources : List (Child × List Cell) := []
  latches : List Latch := []
  bcastWait : List Latch := []
  /-- PT of the latest ENUM to an Unreachable agent, by ordinal (R122). -/
  enums : SMap (Option Nat) := []
  /-- The last STATE of each agent that the hub has learnt, by ordinal (R205). -/
  known : SMap (Option AgState) := []
  deriving DecidableEq, Repr

/-! ### Agents -/

/-- An armed instant (R99). -/
structure Armed where
  instant : Nat
  arg : W32
  claim : W32
  seq : Byte
  deriving DecidableEq, Repr

/-- An event ring entry (Table 5-9). -/
structure RingEntry where
  code : Byte := 0
  untimed : Bool := false
  engine : BitVec 4 := 0
  seq : W16 := 0
  pt : Nat := 0
  data : W32 := 0
  deriving DecidableEq, Repr

/-- A capture shadow (Table 5-12), with its blocks as bytes. -/
structure Shadow where
  complete : Bool
  late : Bool
  poweredIn : Bool
  step : Bool
  cutPt : Nat
  donePt : Nat
  blocks : List Byte
  blockCount : Nat
  cutSeq : W16
  claim : W32
  stopSeq : Byte
  deriving DecidableEq, Repr

/-- A cut checker port (R154 to R156). -/
structure CutPort where
  /-- Own gating PT, once the port is open. -/
  gatePt : Option Nat := none
  marker : Option CutMarker := none
  arrivalPt : Nat := 0
  peerKind : Nat := 0
  peer : W16 := 0
  closed : Bool := false
  outcome : BitVec 5 := 0
  opened : Bool := false
  inFlight : Nat := 0
  step : Bool := false
  deriving DecidableEq, Repr

/-- A queue instrument (Table 5-14) with the samples that are in its bins: those up to `seen`. `shift` none is the reset
value, which DEPTH decides. -/
structure QueueInst where
  bins : List Nat := [0, 0, 0, 0, 0, 0, 0, 0]
  hwm : Nat := 0
  shift : Option (BitVec 4) := none
  /-- Unit-clock cycles since power-on whose samples the bins hold; the later ones are added where the bins are read. -/
  seen : Nat := 0
  deriving DecidableEq, Repr

/-- A queue snapshot (Table 10-4): the instrument, and the unit-clock cycle of the snapshot edge. -/
structure QueueSnap where
  inst : QueueInst
  cycle : Nat
  deriving DecidableEq, Repr

/-- A command between its Begin and its End. -/
structure RunningCmd where
  tag : W32
  beginPt : Nat
  /-- It was selected for trace at its Begin (R231). -/
  traced : Bool
  sampled : Bool
  deriving DecidableEq, Repr

/-- An engine with its watchdog (R141, Table 6-1) and its trace settings (Table 9-6). Origins are in
ungated ns of the unit. -/
structure Engine where
  queueWatch : Bool := true
  cmdWatch : Bool := true
  exp : BitVec 6 := 30
  expired : Bool := false
  origin : Nat := 0
  running : Option RunningCmd := none
  /-- TRACE_ACTIVE bits [4:0]: ENABLE, BEGIN, END, SWITCH, BARRIER. -/
  trace : BitVec 5 := 0
  kM1 : BitVec 12 := 0
  /-- Commands begun since Tc (R231). -/
  begun : Nat := 0
  /-- Number of the next writeback beat within the command of this tag (R274). -/
  beats : Nat := 0
  beatTag : Option W32 := none
  deriving DecidableEq, Repr

/-- The statistics of one tap slot (Table 11-3). -/
structure Accum where
  elements : Nat := 0
  commands : Nat := 0
  openCmds : Nat := 0
  sumElements : Nat := 0
  discards : Nat := 0
  nan : Nat := 0
  posInf : Nat := 0
  negInf : Nat := 0
  zero : Nat := 0
  subnormal : Nat := 0
  saturation : Nat := 0
  sumExcluded : Nat := 0
  nanBlocks : Nat := 0
  expBins : SMap Nat := []
  scaleBins : SMap Nat := []
  sum : BitVec 320 := 0
  digest : W64 := 0
  minKey : W64 := 0x7FFFFFFFFFFFFFFF
  maxKey : W64 := 0x8000000000000000
  maxAbs : W64 := 0
  tagMin : W64 := 0xFFFFFFFFFFFFFFFF
  tagMax : W64 := 0
  deriving DecidableEq, Repr

/-- A tap slot (Table 11-5, Table 11-6). -/
structure TapSlot where
  sounding : Nat
  format : Byte
  ctrl : Byte
  stats : W16
  expBase : Byte
  shifts : Byte
  scaleBase : Byte
  selA : W64
  selB : W64
  key : List Byte
  acc : Accum := {}
  /-- The posting buffer with its posting's instant (R281). -/
  buffer : Option (Nat × Accum) := none
  /-- Number of the next beat since arming, in address mode (R274). -/
  beatNo : Nat := 0
  /-- A selected command is between Begin and End. -/
  openTag : Option W32 := none
  deriving DecidableEq, Repr

/-- A tagged push on its way to the array (R252). -/
structure TaggedPush where
  incr : Totals
  freezeId : W32
  snapPt : Nat
  late : Bool
  state : Nat
  deriving DecidableEq, Repr

/-- The counter block of an agent (Tables 10-2 and 10-3). -/
structure Cnt where
  light : Totals := {}
  snap : Totals := {}
  base : Totals := {}
  /-- Increments counted since the previous push. -/
  unpushed : Totals := {}
  basePt : Nat := 0
  snapPt : Nat := 0
  freezeId : W16 := 0
  snapState : Nat := 0
  snapLate : Bool := false
  refused : Bool := false
  loaded : Bool := false
  /-- Tagged pushes on their way, oldest first. -/
  tagged : List TaggedPush := []
  /-- PT up to which BUSY has been counted, and fifths of a cycle carried over. -/
  busyPt : Nat := 0
  busyFifths : Nat := 0
  deriving DecidableEq, Repr

/-- The cut an agent made last (R132, R154, R175): its gating edge, the broadcast behind it, and whether
the unit has powered on under a stop that stands. -/
structure CutInfo where
  pt : Nat
  instant : Nat
  claim : W32
  seq : Byte
  step : Bool
  late : Bool
  /-- CAPTURE_COMPLETE is still to come. -/
  capturing : Bool
  /-- Cut-marker blocks of the stop, which a command step keeps (R179). -/
  kept : List Byte := []
  /-- The end of a command step, at which no checker port opens (R179). -/
  closed : Bool := false
  deriving DecidableEq, Repr

/-- A step in progress (R173, R179). -/
structure StepRun where
  command : Bool
  engine : BitVec 4
  /-- PT of the ungating edge, and the instant at which the step ends at the latest. -/
  startPt : Nat
  endPt : Nat
  claim : W32
  seq : Byte
  deriving DecidableEq, Repr

/-- STEP_RESULT, STEP_ELAPSED and STEP_TAG (Table 7-4). -/
structure StepRegs where
  seq : Byte := 0
  engine : BitVec 4 := 0
  fenceStall : Bool := false
  outcome : Nat := 0
  elapsed : Nat := 0
  tag : W32 := 0
  deriving DecidableEq, Repr

/-- A unicast BULK_WR to the staging buffer that waits in the agent's link slots (R114, R127). -/
structure HeldWrite where
  tag : Byte
  address : Nat
  data : List Byte
  deriving DecidableEq, Repr

/-- An agent with its unit. The default is a unit without power. -/
structure Agent where
  powered : Bool := false
  /-- The hub's own state Unreachable (R121). -/
  unreachable : Bool := false
  /-- It has begun to power down, and answers accesses with POWERING (Table 5-17). -/
  powering : Bool := false
  state : AgState := .running
  gated : Bool := false
  shadowValid : Bool := false
  replicaLoaded : Bool := false
  powerHold : Bool := false
  late : Bool := false
  shadowKeep : Bool := true
  armMask : Byte := 0
  member : Bool := false
  partition : BitVec 6 := 0
  armed : SMap Armed := []
  lastSeq : SMap Byte := []
  sramPage : Bool := false
  noticesLost : Nat := 0
  lostSince : Nat := 0
  notices : List Notice := []
  ring : SMap RingEntry := []
  /-- PT of the cycle of the newest ring entry, and the entries of that cycle so far (R131). -/
  cyclePt : Nat := 0
  cycleN : Nat := 0
  nextSeq : W16 := 0
  nextSlot : Nat := 0
  cutValid : Bool := false
  cutSeq : W16 := 0
  cutSlot : Nat := 0
  cut : Option CutInfo := none
  shadow : Option Shadow := none
  ports : SMap CutPort := []
  queues : SMap QueueInst := []
  queueSnaps : SMap QueueSnap := []
  /-- The instruments as they stood before the latest clear, and its PT (R250). -/
  uncleared : Option (Nat × SMap QueueInst) := none
  engines : SMap Engine := []
  /-- Ungated ns up to `ungateSince` (R141), and the PT at which the clocks last ungated. -/
  ungatedNs : Nat := 0
  ungateSince : Nat := 0
  step : StepRegs := {}
  stepRun : Option StepRun := none
  staging : SMap Byte := []
  /-- PT until which an earlier COMMIT is being applied, and the writes that wait for its end (R127). -/
  applyUntil : Nat := 0
  held : List HeldWrite := []
  taps : SMap TapSlot := []
  /-- SOUND_ACTIVE of each slot, as the latest COMMIT set it (Table 11-6). -/
  soundActive : SMap Nat := []
  discards : Nat := 0
  stall : Nat := 0
  cnt : Cnt := {}
  /-- High words latched by reads of low words (R12, R435), by word offset. -/
  latches : SMap W32 := []
  unitRegs : SMap W32 := []
  sram : SMap Byte := []
  /-- How often the SRAM contents have become undefined (R391). -/
  sramLost : Nat := 0
  /-- 8-byte words of the SRAM and of the capture shadow with an uncorrectable error (hardware damage, R209). -/
  sramBad : List Nat := []
  shadowBad : List Nat := []
  testMode : Bool := false
  /-- The hub's note that the unit received an inspect write since the newest stop (R170, Table 8-4); it outlives the unit's
  power. -/
  written : Bool := false
  /-- The outbound buffer: writes held at the fence of a command step until RESUME, each with its engine, address and
  octets, oldest first (R179). -/
  outbound : List (Nat × Nat × List Byte) := []
  /-- Memory controllers: a tier-1 controller's devices are in self-refresh, and no DRAM command is issued for the chip's
  queues (Table 6-7, R173). -/
  selfRefresh : Bool := false
  chipHeld : Bool := false
  deriving DecidableEq, Repr

/-! ### Hangs and stops -/

/-- A hang log entry (Table 6-2). -/
structure HangEntry where
  pt : Nat := 0
  hangId : W32 := 0
  unit : UnitId := 0
  engine : Byte := 0
  cause : Byte := 0
  data : W32 := 0
  session : W32 := 0
  stopId : W32 := 0
  deriving DecidableEq, Repr

/-- The most recent stop (R149, R157, R170, R181). -/
structure StopInfo where
  stopId : W32
  t : Nat
  scope : Scope
  units : List UnitId
  pod : Bool
  late : Bool
  cause : BitVec 3
  claim : W32
  seq : Byte
  initiator : W16
  complete : Bool := false
  written : Bool := false
  discarded : Bool := false
  stepEnd : Option Nat := none
  /-- The confirming COLLECTs have been issued. -/
  collected : Bool := false
  lateCount : Nat := 0
  unreach : Nat := 0
  openLinks : Nat := 0
  violating : Nat := 0
  /-- Results of the confirming COLLECTs, once at the active root. -/
  states : Option Reduced := none
  valid : Option Reduced := none
  /-- STOP_ID of the initiator of a pod-wide stop (R154). -/
  podId : W32 := 0
  /-- Ordinals not Present at the stop instant, each with its presence (Table 8-1); none before it. -/
  awayAtStop : Option (List (Nat × Nat)) := none
  deriving DecidableEq, Repr

/-- Hang declaration and stops. -/
structure Stops where
  declared : Bool := false
  hangId : W32 := 0
  lost : Nat := 0
  /-- The log, oldest first, at most 16 entries. -/
  log : List HangEntry := []
  stopId : W32 := 0
  newest : Option StopInfo := none
  /-- Stops that stand: T, scope and list of each stop that no RESUME has followed (Table 5-1). -/
  standing : List (Nat × Scope × List UnitId) := []
  /-- The stop of a reaction, POD_STOP, probe or bench trigger still to be confirmed, without a reply. -/
  confirming : Bool := false
  podPairs : List (W16 × W32) := []
  podOutcome : Nat := 0
  podDiscards : Nat := 0
  deriving DecidableEq, Repr

/-! ### Dump -/

/-- A registered content image (R201). -/
structure DumpImage where
  index : Nat
  imageId : List Byte
  length : Nat
  granules : Nat
  deriving DecidableEq, Repr

/-- A section of the image in the making (Table 8-4). -/
structure Section where
  unit : UnitId
  ordinal : Nat
  typ : Nat
  presence : Nat
  state : Nat
  sflags : W16
  granules : Nat
  raw : Nat
  refs : Nat
  zeroGranules : Nat
  body : List Byte
  /-- Registry indexes that its references name. -/
  images : List Nat
  /-- Words with an uncorrectable error, and the first of them (R209). -/
  errors : Nat := 0
  firstError : Nat := 0xFFFFFFFF
  deriving DecidableEq, Repr

/-- An entry of the unreachable-unit list (Table 8-7). -/
structure Unreach where
  unit : UnitId
  reason : Nat
  lastState : Nat
  pt : Nat
  deriving DecidableEq, Repr

/-- A dump in progress (R189). -/
structure DumpRun where
  flags : Byte
  regions : List (W64 × W64)
  dumpId : W32
  startPt : Nat
  unsighted : Bool
  claim : W32
  hangId : W32
  /-- The crossbar is in dump mode, and the units are being read. -/
  reading : Bool := false
  /-- The hang log's body as phase 3 found it. -/
  hangLog : List Byte := []
  /-- Unit sections read, in ordinal order. -/
  sections : List Section := []
  /-- Units still to be read, in ordinal order, each with its presence at the stop. -/
  todo : List (UnitId × Nat) := []
  /-- Sections still to be read of the first of them, by TYPE, once its reading has begun. -/
  types : Option (List Nat) := none
  /-- Units Present at the stop that have been read, and the checker ports that came with their shadows (R206). -/
  done : List UnitId := []
  cuts : List (UnitId × Nat × CutPort) := []
  /-- Image offset at which the next unit section goes into the region (R189). -/
  cursor : Nat := 0
  /-- Pages of the memory digest still to be computed, by address, and status and digest of those that have been. -/
  pages : List Nat := []
  digests : List (Nat × List Byte) := []
  unreach : List Unreach := []
  /-- Units whose agents were Running when the dump began. -/
  running : List UnitId := []
  /-- Presence at the stop: present, absent, unreachable. -/
  present : Nat := 0
  absent : Nat := 0
  unreachableCount : Nat := 0
  deriving DecidableEq, Repr

/-- A region a memory-fabric port forwards accesses to (R56). -/
structure MemRegion where
  isSet : Bool
  base : Nat
  size : Nat
  deriving DecidableEq, Repr

/-- The dump block (R185 to R213, Table 19-8). -/
structure Dump where
  isSet : Bool := false
  base : Nat := 0
  size : Nat := 0
  dumpId : W32 := 0
  state : Bool := false
  flags : W32 := 0
  imageBytes : Nat := 0
  registryGen : W32 := 0
  images : List DumpImage := []
  /-- Granule hash, image index, granule number. -/
  granules : List (List Byte × Nat × Nat) := []
  /-- An image exists: the latest image has not been discarded. -/
  hasImage : Bool := false
  /-- Replaced region configurations, oldest first, each with the PT at which it was replaced (R56). -/
  past : List (Nat × MemRegion) := []
  deriving DecidableEq, Repr

/-! ### Trace -/

/-- A record with its full PT (R218). -/
structure Rec where
  typ : BitVec 4
  source : SourceId
  pt : Nat
  tag : W32
  payload : BitVec 40
  deriving DecidableEq, Repr

/-- A gap in progress (R235). -/
structure Gap where
  dropped : Nat
  firstPt : Nat
  lastPt : Nat
  cause : BitVec 2
  deriving DecidableEq, Repr

/-- A source as its collector mirrors it (R230), and its count of records since it was enabled. -/
structure Mirror where
  trace : BitVec 5 := 0
  kM1 : BitVec 12 := 0
  written : Nat := 0
  drops : Nat := 0
  /-- A Closed that is due: reason and PT (R232, R233). -/
  closing : Option (Nat × Nat) := none
  deriving DecidableEq, Repr

/-- A Mark or trigger that waits for its instant (R222, R226). -/
structure MarkReq where
  instant : Nat
  value : W32
  origin : BitVec 4
  trigger : Bool
  program : BitVec 3
  markId : W32
  deriving DecidableEq, Repr

/-- A trace collector (Table 9-10). -/
structure Collector where
  safeHalt : Bool := false
  full : Bool := false
  frozen : Bool := false
  triggered : Bool := false
  hwm : Nat := 0
  wakeLevel : BitVec 10 := 0x180
  lineSeq : Nat := 0
  anchorPt : Nat := 0
  triggerSeq : Nat := 0
  afterTrigger : Nat := 0
  frozenDrops : Nat := 0
  accepted : Nat := 0
  dropped : Nat := 0
  gap : Option Gap := none
  /-- What is still to enter lines, oldest first: records in the intake, and the collector's own records at their
  places in the stream, which take no room in the intake (R220). -/
  intake : List Rec := []
  line : List Rec := []
  lineSincePt : Nat := 0
  /-- Reason of the Fix due before the next record; 0 stream start. -/
  fixDue : Option (BitVec 4) := some 0
  lastFixPt : Nat := 0
  /-- A record other than a Fix has entered a line since the latest Fix (R81). -/
  wroteSince : Bool := false
  /-- By Source ID. -/
  mirrors : SMap Mirror := []
  /-- Tap slots of its units (R277), by 8 times the agent ordinal plus 4e + j. -/
  taps : SMap TapSlot := []
  marks : List MarkReq := []
  deriving DecidableEq, Repr

/-- What a TRACE_QUERY has found so far (R240): the full PT of the most recent preceding Fix, the items, newest first, the
lines read and those lapped. -/
structure Scan where
  anchor : Option Nat := none
  items : List (List Byte) := []
  count : Nat := 0
  lines : Nat := 0
  lapped : Nat := 0
  deriving DecidableEq, Repr

/-- A TRACE_QUERY in progress (R239): the collectors still to be scanned, each with the end latched at receipt; in the first
of them, the line from which records count and the next line; and the last collector with its end. -/
structure QueryRun where
  spec : QuerySpec
  /-- The partition of an Observer's session (R238). -/
  observer : Option (BitVec 6)
  todo : List (Nat × Nat)
  place : Option (Nat × Nat) := none
  finish : Nat × Nat
  /-- Oldest line of each collector at receipt. -/
  oldest : SMap Nat := []
  scan : Scan := {}
  deriving DecidableEq, Repr

/-- The trace region and its collectors (R223 to R228, Table 19-8). -/
structure Trace where
  isSet : Bool := false
  base : Nat := 0
  size : Nat := 0
  mode : Nat := 0
  onHang : Bool := false
  k : Nat := 0
  ignored : Nat := 0
  markId : W32 := 0
  /-- A trigger has acted since the restart (R226). -/
  triggerTaken : Bool := false
  /-- Instants of Marks that lie ahead or at most 5 ns back, and whether a trigger's (R51, R432). -/
  marked : List (Nat × Bool) := []
  collectors : SMap Collector := []
  /-- Replaced region configurations, oldest first, each with the PT at which it was replaced (R56). -/
  past : List (Nat × MemRegion) := []
  deriving DecidableEq, Repr

/-! ### Counters -/

/-- A snapshot bank entry (Table 10-8). -/
structure BankEntry where
  state : Nat := 0
  quality : Nat := 0
  freezeId : W32 := 0
  snapPt : Nat := 0
  totals : Totals := {}
  deriving DecidableEq, Repr

/-- A freeze that the arrays follow (R255), until no entry of the banks is of it. -/
structure FreezeRun where
  instant : Nat
  freezeId : W32
  mode : Nat
  scope : Scope
  units : List UnitId
  westTaken : Bool := false
  eastTaken : Bool := false
  westDone : Bool := false
  eastDone : Bool := false
  /-- Ordinals whose tagged push has arrived. -/
  pushed : List Nat := []
  /-- Ordinals of agents that a CANCEL has disarmed. -/
  cancelled : List Nat := []
  /-- Ordinals Absent at F. -/
  absentAtF : List Nat := []
  /-- A FREEZE of a probe or of a bench trigger, still to be confirmed (R257). -/
  confirming : Bool := false
  deriving DecidableEq, Repr

/-- The AO light-counter arrays and their snapshot banks (R246, R255), by agent ordinal. -/
structure Arrays where
  totals : SMap Totals := []
  bank : SMap BankEntry := []
  freezeId : W32 := 0
  /-- Freezes that the arrays follow, in the order of their instants (R255). -/
  freezes : List FreezeRun := []
  deriving DecidableEq, Repr

/-! ### Soundings and replay -/

/-- A posting in progress (R280 to R283). -/
structure Posting where
  instant : Nat
  fromPt : Nat
  periods : Nat
  final : Bool
  /-- Words still to be collected, and those whose result is in. -/
  todo : List Nat := []
  words : SMap Reduced := []
  deriving DecidableEq, Repr

/-- A sounding (R275). -/
structure Sounding where
  armed : Bool := false
  format : Byte := 0
  ctrl : Byte := 0
  stats : W16 := 0
  tapMask : Byte := 0
  scope : Scope := .chip
  units : List UnitId := []
  owner : W32 := 0
  /-- The partition of the Observer that armed it (R278). -/
  observer : Option (BitVec 6) := none
  persist : Bool := false
  key : List Byte := []
  depth : Nat := 0
  periodNs : Nat := 0
  tc : Nat := 0
  postSeq : W32 := 0
  coalesced : Nat := 0
  overwritten : Nat := 0
  /-- PT_FROM of the next posting. -/
  lastPt : Nat := 0
  unitLost : Bool := false
  /-- A posting due outside PERIOD: that of a replay's run (R286). -/
  postAt : Option Nat := none
  /-- The final posting's instant Td, once cleared (R279). -/
  td : Option Nat := none
  posting : Option Posting := none
  /-- Result slots, oldest first, each 512 bytes. -/
  ring : List (List Byte) := []
  /-- SLOT: the tap slot j it holds in every engine, 0xFF where they differ (Table 19-7). -/
  slot : Byte := 0
  deriving DecidableEq, Repr

/-- REPLAY_STATUS (R286). -/
structure ReplayStat where
  verdict : Nat := 0
  flags : Byte := 0
  candSeq : W32 := 0
  runs : List (W64 × Nat) := []
  inputs : List W64 := []
  tiles : List Nat := []
  deriving DecidableEq, Repr

/-! ### Probe engine -/

/-- A probe slot (Table 12-7). -/
structure ProbeSlot where
  program : List W32 := []
  regs : SMap W64 := []
  state : ProbeSt := .empty
  error : Nat := 0
  pc : Nat := 0
  periodUs : Nat := 0
  next : Nat := 0
  /-- The instant after the one that is due, where a sighting step has carried PT past those between (R296). -/
  after : Option Nat := none
  evals : Nat := 0
  skippedN : Nat := 0
  acts : Nat := 0
  denied : Nat := 0
  dropped : Nat := 0
  lag : Nat := 0
  partialLoads : Nat := 0
  /-- Instructions executed in this evaluation, and its instant. -/
  executed : Nat := 0
  instant : Nat := 0
  /-- PT a WAITPT waits for; the register of an aggregate load in progress. -/
  waitPt : Option Nat := none
  waitReg : Option Nat := none
  /-- PROBE_STOP came while an aggregate load was in progress: the evaluation ends once it has its result. -/
  stopping : Bool := false
  /-- Result slots latched in this evaluation (R301). -/
  latched : SMap (List Byte) := []
  deriving DecidableEq, Repr

/-- A queued action (R303). -/
structure ProbeAct where
  slot : Nat
  action : Nat
  value : W32
  arg : BitVec 14
  actPt : Nat
  deriving DecidableEq, Repr

/-- The probe engine. -/
structure Probe where
  slots : SMap ProbeSlot := []
  queue : List ProbeAct := []
  deriving DecidableEq, Repr

/-! ### Fault collector -/

/-- The configuration and count of a source (R309, R310); `cfg` none is the default of Table 13-1. -/
structure FcSource where
  cfg : Option W32 := none
  count : Nat := 0
  times : List Nat := []
  /-- PT of the latest event (R316). -/
  lastPt : Nat := 0
  deriving DecidableEq, Repr

/-- A fault record (Table 13-3). -/
structure FaultRec where
  /-- Slot 0 to 63, or 64 for the record of the safe state (R313). -/
  slot : Nat
  seq : W32
  source : Nat
  unit : UnitId
  configured : Nat
  performed : Nat
  read : Bool := false
  cleared : Bool := false
  handling : Bool := true
  done : Bool := false
  /-- The safe state has stopped its retirement at the step reached (Table 13-10). -/
  halted : Bool := false
  pendingRet : Bool := false
  taintSent : Bool := false
  history : Bool := false
  n : Nat
  wexp : Nat
  data : W32
  firstPt : Nat
  severePt : Nat
  originPt : Nat
  donePt : Nat := 0
  repeats : Nat := 0
  merged : Nat := 0
  conseq : Nat := 0
  discarded : Nat := 0
  epoch : W32
  deriving DecidableEq, Repr

/-- An event log entry (R317). -/
structure FaultLogEntry where
  pt : Nat
  source : Nat
  disposition : Nat
  unit : UnitId
  data : W32
  deriving DecidableEq, Repr

/-- A captured history (R317). -/
structure FaultHistory where
  recordSeq : W32
  capturePt : Nat
  entries : List FaultLogEntry
  deriving DecidableEq, Repr

/-- An open reaction window (R321); `record` none for UNIT_RETIRE. -/
structure Window where
  record : Option W32
  unit : UnitId
  hangStop : Bool
  openPt : Nat
  lengthNs : Nat
  deriving DecidableEq, Repr

/-- A taint notice decided (R328, R329). -/
structure Taint where
  origin : Byte
  epochStale : Bool
  merged : Bool
  held : Bool
  epoch : W32
  earliest : Nat
  source : Nat
  unit : UnitId
  decidedPt : Nat
  deriving DecidableEq, Repr

/-- The fault collector front (R307 to R332), all AO. -/
structure Fc where
  sources : SMap FcSource := []
  /-- Records held, oldest first; at most 64 beside the one of the safe state. -/
  records : List FaultRec := []
  safeRecord : Option FaultRec := none
  nextSeq : W32 := 1
  log : List FaultLogEntry := []
  history : Option FaultHistory := none
  historyValid : Bool := false
  safe : Bool := false
  safePt : Nat := 0
  rxWindowUs : BitVec 10 := 50
  lostRecords : Nat := 0
  safeEvents : Nat := 0
  conseqNoRec : Nat := 0
  epoch : W32 := 0
  epochPt : Nat := 0
  epochPrev : W32 := 0
  epochPrevPt : Nat := 0
  hasPrev : Bool := false
  windows : List Window := []
  /-- A chip-scope DROP_INFLIGHT is pending (R319), and the record its count goes to. -/
  pendingDrops : List (Option W32) := []
  /-- Retirements pending under a stop (R320). -/
  pendingRetire : List UnitId := []
  dests : List W16 := []
  /-- Notices decided and not yet sent, and notices held (R23, R330). -/
  taints : List Taint := []
  heldTaints : List Taint := []
  /-- PT of the latest notice of a source, for the 10 us rule. -/
  lastNotice : SMap (Option Nat) := []
  noticeSeq : W32 := 0
  /-- Fixed sources whose condition is still present (R323). -/
  fixedPresent : List Nat := []
  /-- Monitor lines asserted now, by source. -/
  linesHigh : List Nat := []
  deriving DecidableEq, Repr

/-! ### Pattern store -/

/-- A held pack (R335 to R338). -/
structure Pack where
  packId : W64
  version : W32
  signer : Byte
  slot : Byte
  patterns : Nat
  index : Nat
  bytes : List Byte
  deriving DecidableEq, Repr

/-- A candidate (R288, R347, Table 14-5). -/
structure Candidate where
  seq : W32
  source : W64
  capturePt : Nat
  epoch : W32
  verdict : Nat
  outFormat : Byte
  /-- The sounding key used (R288). -/
  key : List Byte
  tile : Nat
  refElements : Nat
  refDigest : W64
  refTileDigest : W64
  tiles : List Nat
  descriptor : List Byte
  ranges : List ReplayRange
  contents : List (List Byte)
  outScaleBase : W64
  deriving DecidableEq, Repr

/-- A result entry (Table 14-4). -/
structure ResultEntry where
  ordinal : Nat
  pack : Nat
  pattern : W16
  errors : Nat
  pass : Nat
  fail : Nat
  deriving DecidableEq, Repr

/-- A partly received load (R379). -/
structure PartLoad where
  session : W32
  total : Nat
  bytes : List Byte
  deriving DecidableEq, Repr

/-- One content of the flash mirror. -/
inductive FlashData where
  | pack (p : Pack)
  | cand (c : Candidate)
  | results (l : List ResultEntry)
  deriving DecidableEq, Repr

/-- A content the directory in force names, with its blocks. -/
structure FlashItem where
  data : FlashData
  blocks : List Nat
  deriving DecidableEq, Repr

/-- A directory of the flash mirror: DIR_SEQ, the contents it names and the counts that the reload takes from it
(R339, R351). -/
structure FlashDir where
  dirSeq : W32
  items : List FlashItem
  candLost : Nat
  resultsLost : Nat
  deriving DecidableEq, Repr

/-- The flash mirror (R339, R340): erase counts by block, worn blocks, and the directory in force. -/
structure Flash where
  erases : SMap Nat := []
  worn : List Nat := []
  /-- The directory in the other of the two fixed blocks, one DIR_SEQ older (R339). -/
  older : Option FlashDir := none
  /-- Blocks that fail to erase or program, and blocks whose content fails its CRC-32C (hardware damage). -/
  bad : List Nat := []
  corrupt : List Nat := []
  dirSeq : W32 := 0
  items : List FlashItem := []
  candCount : W32 := 0
  candLost : Nat := 0
  resultsLost : Nat := 0
  deriving DecidableEq, Repr

/-- The pattern store (Table 14-7). -/
structure Patterns where
  packs : List Pack := []
  candidates : List Candidate := []
  results : List ResultEntry := []
  resultsDirty : Bool := false
  lastMirrorPt : Option Nat := none
  reloading : Bool := false
  candLost : Nat := 0
  resultsLost : Nat := 0
  part : Option PartLoad := none
  flash : Flash := {}
  /-- The AO copy of the pattern block, from when domain 17 powered off last (R427). -/
  saved : Option (List Byte) := none
  deriving DecidableEq, Repr

/-! ### Redundant controllers -/

/-- A controller (R352 to R354, R360). -/
structure Ctrl where
  role : CtrlRole := .booting
  /-- Its firmware is up. -/
  up : Bool := false
  /-- Claim of the latest grant word received, and whether one has come since it booted. -/
  claim : W32 := 0
  heard : Bool := false
  hbSeq : Byte := 0
  /-- HB_SEQ of the peer's latest valid word; none before the first since power-on. -/
  peerSeq : Option Byte := none
  /-- Consecutive periods with a valid heartbeat from the peer on the Span wire, those with ROLE Active among
  them, and the period the latest one completed in, or the one in which this domain powered on. -/
  peerGood : Nat := 0
  peerActive : Nat := 0
  peerSeenIn : Nat := 0
  peerLost : Bool := false
  /-- The period in which it sent its latest word. -/
  sentIn : Option Nat := none
  fast : Bool := false
  /-- PT of the latest command or due work. -/
  busyPt : Nat := 0
  version : W32 := 0
  /-- Solo resynchronization runs. -/
  solo : Bool := false
  /-- A WITHDRAW heartbeat is due. -/
  withdrawing : Bool := false
  deriving DecidableEq, Repr

/-- What the Keystone knows of one controller (R354). -/
structure KsSide where
  missed : Nat := 0
  /-- Outcomes of the latest counted periods, newest first, at most 3: a valid word, none with WITHDRAW. -/
  history : List Bool := []
  /-- A valid word has completed in the current period. -/
  seen : Bool := false
  withdraw : Bool := false
  role : BitVec 3 := 0
  claim : W32 := 0
  hbSeq : Option Byte := none
  word : W64 := 0
  /-- Counting resumes with the first period that begins at or after this AO edge (R355). -/
  countFrom : Nat := 0
  deriving DecidableEq, Repr

/-- A reply that waits for the standby's acknowledgement of a change (R360). -/
structure HeldReply where
  transport : Transport
  opcode : W16
  hdr : Hdr
  status : Status
  body : List Byte
  deriving DecidableEq, Repr

/-- The redundant pair and the Keystone (Table 15-8). -/
structure Red where
  west : Ctrl := {}
  east : Ctrl := {}
  ksWest : KsSide := {}
  ksEast : KsSide := {}
  claim : W32 := 0
  holder : Half := .west
  granted : Bool := false
  headless : Bool := false
  frozen : Bool := false
  grants : Nat := 0
  grantPt : Nat := 0
  cause : Nat := 0
  rejects : Nat := 0
  /-- AO edge of the latest boundary at which the Keystone decided (R358). -/
  boundary : Nat := 0
  /-- Claim and holder held by each powered output stage (R357). -/
  stages : SMap (Option (W32 × Half)) := []
  /-- SYNC_SEQ sent by the active and received by the standby; a change not yet acknowledged. -/
  syncSent : W32 := 0
  syncRecv : W32 := 0
  syncWait : Option Nat := none
  /-- The active counts the standby as Synchronized: from the end of a resynchronization until the standby leaves
  the role, an acknowledgement is 50 us late, or the active has lost it (R360, Table 15-6, log entry 163). -/
  synced : Bool := false
  heldReplies : List HeldReply := []
  resyncSince : Option Nat := none
  lastAttempt : Option Nat := none
  deriving DecidableEq, Repr

/-! ### Security island -/

/-- A role key field of OTP (R394). -/
structure KeyField where
  hash : List Byte := []
  sealed : Bool := false
  deriving DecidableEq, Repr

/-- A fleet-operator slot (R334). -/
structure FleetSlot where
  hash : List Byte
  revoked : Bool
  deriving DecidableEq, Repr

/-- One OTP bit program of a life-cycle job, or a read-back, or its end (R386). -/
inductive OtpOp where
  | program (copy bit : Nat)
  | readBack (copy : Nat) (target : W32) (again : Bool)
  | vote
  deriving DecidableEq, Repr

/-- The OTP array of the island (R384 to R402). Bits only change from 0 to 1. -/
structure Otp where
  copyA : W32 := 0
  copyB : W32 := 0
  copyC : W32 := 0
  /-- Bits that cannot be programmed, by copy (hardware damage, R386). -/
  stuck : SMap W32 := []
  observer : KeyField := {}
  operator : KeyField := {}
  vendor : KeyField := {}
  /-- Role key bits that read back wrong (hardware damage, R394). -/
  keyBad : Bool := false
  patternKey : Option (List Byte) := none
  fleet : List FleetSlot := []
  /-- Identity slots: the scalar burnt, and its seal (R401). -/
  identity0 : Option (Nat × Bool) := none
  identity1 : Option (Nat × Bool) := none
  /-- The slot does not read back as burnt (hardware damage, R401). -/
  identityBad0 : Bool := false
  identityBad1 : Bool := false
  sidePending : Bool := false
  sideDone : Bool := false
  wipePending : Bool := false
  wipeDone : Bool := false
  wiped : Bool := false
  /-- Repair fuses: ordinals of fuse-retired units (R29). -/
  repair : List Nat := []
  /-- The trims, as burnt (Table 0-2, R392, log entry 169). -/
  trims : List Byte := []
  deriving DecidableEq, Repr

/-- An open session (R399). -/
structure Session where
  tag : W32
  role : Role
  partition : BitVec 6
  transport : Transport
  soundKey : List Byte
  lastPt : Nat
  deriving DecidableEq, Repr

/-- The pending challenge (R396). -/
structure Challenge where
  bytes : List Byte
  role : Byte
  partition : Byte
  pt : Nat
  deriving DecidableEq, Repr

/-- HMAC_DRBG working state (R395). -/
structure Drbg where
  k : List Byte
  v : List Byte
  requests : Nat
  deriving DecidableEq, Repr

/-- The security island (R403). -/
structure Island where
  otp : Otp := {}
  /-- The decoded state of the latest vote; none before the first since AO power-on. -/
  decoded : Option LifeCycle := none
  entropyFail : Bool := false
  entropyDraws : Nat := 0
  drbg : Option Drbg := none
  challenge : Option Challenge := none
  failCount : Nat := 0
  holdPt : Nat := 0
  sessions : List Session := []
  /-- The block of the installed certificate in the package flash: 272 octets and their CRC-32C (R402). -/
  cert : Option (List Byte) := none
  testGate : Bool := false
  /-- OTP work of a LIFECYCLE_ADVANCE still to do (R386). -/
  job : List OtpOp := []
  jobTarget : Option LifeCycle := none
  signs : Nat := 0
  deriving DecidableEq, Repr

/-! ### Power and firmware -/

/-- A supply warning in progress, by domain (R327). -/
structure Excursion where
  ongoing : Bool := false
  deriving DecidableEq, Repr

/-- Where start-up stands (Table 18-7). -/
inductive StartUp where
  | powerGood | voted | verified | granted | enumerated | ready | recovery
  deriving DecidableEq, Repr

/-- The firmware partition of 256 blocks of 64 KiB (R418): erase counts by block, worn blocks, blocks that fail to erase
or program (hardware damage), DIR_SEQ of the directory in force, and the blocks of the image in force. -/
structure FwFlash where
  erases : SMap Nat := []
  worn : List Nat := []
  bad : List Nat := []
  dirSeq : W32 := 0
  blocks : List Nat := (List.range 64).map fun k => k + 2
  deriving DecidableEq, Repr

/-- Domains, start-up and firmware (R406 to R422). -/
structure Power where
  /-- DOMAINS.ON: bit n − 1 is 1 while domain n is on. -/
  domains : BitVec 20 := 1
  startUp : StartUp := .powerGood
  /-- PT at which a domain's condition was last seen to hold (R407). -/
  idleSince : Nat := 0
  /-- The firmware image committed last, none while the chip runs the image it left the factory with, and
  whether the image in force passes the loader's checks. -/
  image : Option (List Byte) := none
  imageGood : Bool := true
  fw : FwFlash := {}
  /-- SHA-384 of the image that the ROM loader verified last (Table 17-7). -/
  verified : List Byte := []
  fwPart : Option PartLoad := none
  excursions : SMap Excursion := []
  deriving DecidableEq, Repr

/-! ### Command slot, front end, outputs -/

/-- A run of REPLAY (R286). -/
structure ReplayRun where
  spec : ReplaySpec
  /-- The sounding key in force as the command began. -/
  key : List Byte
  spares : List UnitId
  /-- The sounding number of each spare. -/
  numbers : List Nat
  /-- Index of the spare that runs now. -/
  now : Nat := 0
  /-- The instant from which its sounding is armed; none once the run has been requested. -/
  armAt : Option Nat := none
  /-- d and n of the spares that have run. -/
  results : List (W64 × Nat) := []
  /-- Input digests read. -/
  inputs : List W64 := []
  deriving DecidableEq, Repr

/-- One pattern's tally in a RUN_PATTERNS (R345). -/
structure PatTally where
  pattern : W16
  pass : Nat := 0
  fail : Nat := 0
  errors : Nat := 0
  deriving DecidableEq, Repr

/-- One unit of a group of runs: its output area, whether its reissue has been accepted, and when. -/
structure PatUnit where
  unit : UnitId
  area : Nat
  accepted : Bool := false
  startPt : Nat := 0
  deriving DecidableEq, Repr

/-- A RUN_PATTERNS in progress (R344). -/
structure PatRun where
  packIndex : Nat
  /-- Patterns still to run, the current one first. -/
  patterns : List W16
  runLimit : Nat
  units : List UnitId
  /-- The front end has answered QUIESCE. -/
  started : Bool := false
  quiesced : List UnitId := []
  /-- Eligible units that have still to run the current pattern, and those of the current group that run. -/
  todo : List UnitId := []
  group : List PatUnit := []
  tallies : List PatTally := []
  skipped : Nat := 0
  /-- ns by which the bound is lengthened, because the store was off or reloading at receipt (R378). -/
  extraNs : Nat := 0
  /-- Its bound has ended, and these units have not run (R346). -/
  bound : Bool := false
  notRun : List UnitId := []
  /-- RESUME has been requested. -/
  finishing : Bool := false
  deriving DecidableEq, Repr

/-- The progress of the executing command. -/
inductive Prog where
  | stop
  | cancel
  /-- STEP_CYCLES waits for the states of the agents (R171). -/
  | stepCheck (ts d : Nat) (allow : Bool)
  | cycles (ts d : Nat)
  /-- With LIMIT in us. -/
  | cmdStep (unit : UnitId) (limit : Nat)
  | resume (tr : Nat)
  | freeze (f : Nat) (freezeId : W32)
  | aggregate (quantity : Nat) (scope : Scope) (units : List UnitId)
  | dump (run : DumpRun)
  | query (run : QueryRun)
  | replay (run : ReplayRun)
  | patterns (run : PatRun)
  | resync
  | lifecycle
  | retire (unit : UnitId)
  | inject
  | access (unit : UnitId) (again : Instr)
  /-- A command that addresses several units waits for those that have not answered yet (R113). -/
  | gather (units : List UnitId) (again : Instr)
  deriving DecidableEq, Repr

/-- The executing command (R375). -/
structure Exec where
  opcode : W16
  hdr : Hdr
  transport : Transport
  startPt : Nat
  prog : Prog
  /-- Its reply is discarded (R41). -/
  mute : Bool := false
  /-- Its confirming COLLECTs have been issued. -/
  collected : Bool := false
  /-- LATE notices of its broadcast's class. -/
  lateCount : Nat := 0
  unreach : Nat := 0
  /-- CUT notices of its step, classed open and violating (R174). -/
  openLinks : Nat := 0
  violating : Nat := 0
  states : Option Reduced := none
  valid : Option Reduced := none
  deriving DecidableEq, Repr

/-- A request to the front end not yet answered (R59); REISSUE names an engine, a scratch address and a captured
descriptor. -/
structure FeReq where
  req : FeRequest
  units : List UnitId
  sentPt : Nat
  engine : Nat := 0
  scratch : Nat := 0
  descriptor : List Byte := []
  record : Option W32 := none
  deriving DecidableEq, Repr

/-- A reissued run in progress on a unit's engine (R60). -/
structure FeRun where
  unit : UnitId
  engine : Nat
  scratch : Nat
  startPt : Nat
  deriving DecidableEq, Repr

/-- The command front end as the hub sees it (R59, R60). -/
structure FrontEnd where
  requests : List FeReq := []
  runs : List FeRun := []
  quiesced : List UnitId := []
  dumpMode : Bool := false
  /-- REISSUE runs that the front end has reported as dropped, oldest first (R60). -/
  droppedRuns : List FeRun := []
  deriving DecidableEq, Repr

/-- What the hub puts out at its faces, in order. -/
inductive Out where
  | reply (p : Packet)
  /-- A frame on the lane, in octets (Table 16-1). -/
  | frame (bytes : List Byte)
  | retrain
  | jtag (valid : Bool) (word : W32)
  | jtagStatus (word : W32)
  /-- What TDO shifts out of the instruction register, of IDCODE or of BYPASS: its width and its value. -/
  | tdo (bits : Nat) (word : W32)
  | i3c (bytes : List Byte)
  | ibi (data : Byte)
  | ctl (link : Nat) (msgType : Byte) (payload : List Byte)
  | taint (dest : W16) (payload : List Byte)
  | frontEnd (r : FeReq)
  | bcast (b : Bcast)
  | safeBcast (half : Half) (claim : W32)
  | regRsp (unit : UnitId) (tag : Byte) (status : Nat) (data : W32)
  | bulkData (unit : UnitId) (tag : Byte) (status : Nat) (data : List W64)
  | heartbeat (side : Half) (word : W64)
  | grant (word : W64)
  | rejected (stage : Nat) (side : Half)
  | pulse
  | testGate (level : Bool)
  | unitPower (unit : UnitId) (on : Bool)
  /-- A multicast has ended: its TAG and the agents reported as not reached (R118). -/
  | multicast (tag : Byte) (lost : List UnitId)
  /-- A cut marker (R154) on a unit's scale-out link or on its main-fabric links: on one port, or on every port that has
  no marker of its own in the same cut. -/
  | marker (unit : UnitId) (scaleOut : Bool) (port : Option Nat) (m : CutMarker)
  deriving DecidableEq, Repr

/-- What belongs to the chip around the hub: the address map of its memories, and the partition
manager's membership of each core and slice (R125), by ordinal. -/
structure Chip where
  tier1 : List (Nat × Nat) := [(0, 0x100000000000)]
  tier2 : List (Nat × Nat) := [(0x100000000000, 0x100000000000)]
  /-- Where the SRAM of the 512 memory slices lies in the chip's address map, 1 MiB each in ordinal order. -/
  slices : Nat := 0x200000000000
  membership : SMap (Option (BitVec 6)) := []
  /-- Byte addresses of external memory with an uncorrectable error (hardware damage, R204). -/
  memBad : List Nat := []
  /-- What the agent at a port, by ordinal, answers to ENUM where that is not its Unit ID: another one, or nothing
  (hardware damage, R122). -/
  ports : List (Nat × Option UnitId) := []
  deriving DecidableEq, Repr

/-- Counts of the control class and the memory-fabric ports (Table 19-7). -/
structure Ctl where
  /-- Scale-out links that are up, one bit for each link. -/
  links : W16 := 0xFFFF
  foreign : Nat := 0
  confineWest : Nat := 0
  confineEast : Nat := 0
  deriving DecidableEq, Repr

/-- Identity (R22, R28). The map is held as the retired ordinals, strictly rising. -/
structure Ident where
  chipId : W16 := 0
  assigned : Bool := false
  retired : List Nat := []
  retiredGen : W32 := 0
  deriving DecidableEq, Repr

end Sys2Proof.Machine
end

