-- ==== Sys2Proof/Machine/State.lean ====
section
/-! DEFINITION. The state of the hub and its queue of waiting commands, the reasons a step can stop, and
the state right after reset. -/

namespace Sys2Proof.Machine

/-- The hub: every register, buffer, counter and mode of it, block by block. -/
structure Hub where
  time : TimeUnit := {}
  sight : Sighting := {}
  ident : Ident := {}
  port : Port := {}
  tap : Tap := {}
  i3c : I3c := {}
  trig : Trig := {}
  ctl : Ctl := {}
  dcn : Dcn := {}
  agents : SMap Agent := []
  stops : Stops := {}
  dump : Dump := {}
  trace : Trace := {}
  arrays : Arrays := {}
  soundings : SMap Sounding := []
  /-- The time, in elevenths of a ns, up to which the combiners' budget of bay-cycles is spent (R282). -/
  soundBudget : Nat := 0
  replayStat : ReplayStat := {}
  probe : Probe := {}
  fc : Fc := {}
  pat : Patterns := {}
  red : Red := {}
  island : Island := {}
  power : Power := {}
  fe : FrontEnd := {}
  chip : Chip := {}
  /-- The executing command (R375). -/
  slot : Option Exec := none
  /-- DISCARDED answers that are pending: session, SEQUENCE and OPCODE discarded (R363). -/
  discards : List (W32 × W16 × W16) := []
  /-- High words latched by reads of low words of the hub register space (R12). -/
  latches : SMap W32 := []
  /-- Everything the hub has put out, oldest first. -/
  out : List Out := []
  /-- The model's own counter for free values (log entry 8). -/
  free : Nat := 0
  deriving DecidableEq, Repr

/-- The block: its queue of waiting commands, the hub with its agents, and the chip's tier-1 and tier-2
memory as the memory-fabric ports reach it. -/
structure State where
  /-- Commands that wait, first in, first out. -/
  pending : List Instr
  hub : Hub
  /-- Memory byte by byte, addresses strictly rising; an unlisted byte reads zero (log entry 5). -/
  mem : SMap Byte
  deriving DecidableEq, Repr

/-- Why a step faults. -/
inductive Fault where
  /-- Raised by the idle step when PT would reach 2^64: R61 defines nothing beyond it. Safe. -/
  | ptOverflow
  deriving DecidableEq, Repr

/-- Why a step is refused. -/
inductive Refusal where
  /-- Raised by an arm of Dispatch whose command has no meaning yet. Safe. -/
  | notModelled (mnemonic : String)
  deriving DecidableEq, Repr

/-- The hub right after AO power-on, at the first AO edge (R61, R414): every field at its reset value. -/
def State.reset : State := { pending := [], hub := {}, mem := [] }

end Sys2Proof.Machine
end

