-- ==== Sys2Proof/Machine/Ops.lean ====
section
/-! DEFINITION. The named operations everything else is written with: units and ordinals (R16 to R30), Pod
Time (R61 to R64), the agents' map, power domains, sessions as the island holds them, and replies (R370 to
R375). -/

namespace Sys2Proof.Machine

/-! ### Units (R16 to R30) -/

/-- Units of a class in each half (Table 1-1). -/
def perHalf (cls : Nat) : Nat := [384, 192, 64, 256, 32, 16, 10, 24].getD cls 0

/-- BASE of a class (Table 1-5). -/
def classBase (cls : Nat) : Nat := [0, 384, 576, 640, 896, 928, 944, 954].getD cls 0

/-- Fields of a Unit ID (Table 1-3). -/
def unitHalf (u : UnitId) : Nat := bits u.toNat 15 15
def unitClass (u : UnitId) : Nat := bits u.toNat 14 12
def unitIndex (u : UnitId) : Nat := bits u.toNat 11 0

/-- The unit has an agent: its INDEX lies in the range of its CLASS (R19). -/
def unitHasAgent (u : UnitId) : Bool := decide (unitIndex u < perHalf (unitClass u))

/-- A hub pseudo-unit (R21). -/
def unitPseudo (u : UnitId) : Bool :=
  decide (unitClass u = 7) && decide (0xF00 ≤ unitIndex u) && decide (unitIndex u ≤ 0xF10)

/-- A valid Unit ID (R19). -/
def unitValid (u : UnitId) : Bool := unitHasAgent u || unitPseudo u

/-- The agent ordinal (R27). -/
def ordinalOf (u : UnitId) : Nat := unitHalf u * 978 + classBase (unitClass u) + unitIndex u

/-- The class of position `r` of a half. -/
def classAt (r : Nat) : Nat :=
  ((List.range 8).filter fun c => decide (classBase c ≤ r)).length - 1

/-- The unit with an agent ordinal. -/
def unitOf (o : Nat) : UnitId :=
  let r := o % 978
  BitVec.ofNat 16 (o / 978 % 2 * 0x8000 + classAt r * 0x1000 + (r - classBase (classAt r)))

/-- Agents of the chip (R16). -/
def agentCount : Nat := 1956

/-- All units in ordinal order. -/
def allUnits : List UnitId := (List.range agentCount).map unitOf

/-- Engines that emit trace records (Table 1-2). -/
def engineCount (u : UnitId) : Nat :=
  match unitClass u with
  | 0 | 1 => 4
  | 2 => 2
  | 3 | 6 => 1
  | 7 => if unitIndex u < 16 then 1 else 0
  | _ => 0

/-- Units whose ports check cut markers (R154). -/
def hasChecker (u : UnitId) : Bool :=
  unitClass u == 4 || unitClass u == 5 || (unitClass u == 7 && decide (unitIndex u < 16))

/-- A core or a memory slice: can be retired, can be a member of a partition, has light counters
(R16, R25). -/
def unitCore (u : UnitId) : Bool := decide (unitClass u ≤ 3)

/-- The half of a unit. -/
def halfOf (u : UnitId) : Half := if unitHalf u = 0 then .west else .east

def halfNat (h : Half) : Nat := match h with | .west => 0 | .east => 1
def otherHalf (h : Half) : Half := match h with | .west => .east | .east => .west

/-- The unit and engine of a Source ID (R21). -/
def sourceUnit (s : SourceId) : UnitId := BitVec.ofNat 16 (s.toNat / 16)
def sourceEngine (s : SourceId) : Nat := s.toNat % 16
def sourceOf (u : UnitId) (e : Nat) : SourceId := BitVec.ofNat 20 (u.toNat * 16 + e % 16)

/-- The pseudo-unit of trace collector `c`, 0 to 31 (R21). -/
def collectorUnit (c : Nat) : UnitId := BitVec.ofNat 16 (c / 16 % 2 * 0x8000 + 0x7F00 + c % 16)

/-- The pseudo-unit of an Abutment (R21). -/
def abutmentUnit (h : Half) : UnitId := BitVec.ofNat 16 (halfNat h * 0x8000 + 0x7F10)

/-! ### Pod Time -/

/-- Whether PT is filled in by 1 ns steps: Interpolated, or Holdover with the PLL locked (Table 3-1). -/
def TimeUnit.fine (t : TimeUnit) : Bool :=
  match t.mode with
  | .interpolated => true
  | .deadReckoned => false
  | .holdover => t.lockedAtEdge

/-- PT at the latest AO edge (R62). -/
def TimeUnit.edgePt (t : TimeUnit) : Nat := t.base + 40 * t.edge

/-- Hub PT (R62, R64). -/
def Hub.pt (h : Hub) : Nat := h.time.edgePt + (if h.time.fine then h.time.sub else 0)

/-- Unsighted: 1 in every sighting state but Committed (R70, R80). -/
def Hub.unsighted (h : Hub) : Bool := decide (h.sight.state ≠ .committed)

/-- A measurement runs, so that no action may be armed at a PT instant (R79). -/
def Hub.measuring (h : Hub) : Bool := decide (h.sight.state = .measuring)

/-! ### Agents -/

/-- The agent of a unit; the default is a unit without power (log entry 4). -/
def Hub.agent (h : Hub) (u : UnitId) : Agent := mapGet {} h.agents (ordinalOf u)

def Hub.setAgent (h : Hub) (u : UnitId) (a : Agent) : Hub :=
  { h with agents := mapSet {} h.agents (ordinalOf u) a }

def Hub.modAgent (h : Hub) (u : UnitId) (f : Agent → Agent) : Hub := h.setAgent u (f (h.agent u))

/-- Units whose agents have power, in ordinal order. -/
def Hub.poweredUnits (h : Hub) : List UnitId :=
  (h.agents.filter fun p => p.2.powered).map fun p => unitOf p.1

def Hub.retired (h : Hub) (u : UnitId) : Bool := h.ident.retired.contains (ordinalOf u)

/-- Where an agent attaches: half, pier, bay (R84). -/
def attachPier (u : UnitId) : Nat := (ordinalOf u % 978) / 64
def attachBay (u : UnitId) : Nat := (ordinalOf u % 978) % 64 / 16

/-- A link of the DCN; one not listed is up, with full credits. -/
def Hub.link (h : Hub) (n : LinkName) : LinkSt := ((h.dcn.links.find? fun l => l.1 == n).map (·.2)).getD {}

def Hub.setLink (h : Hub) (n : LinkName) (s : LinkSt) : Hub :=
  { h with dcn.links := (h.dcn.links.filter fun l => l.1 != n) ++ [(n, s)] }

/-- A bay reaches the root of its half: over its own pier, or over the side link of the bay that has
adopted it (R115). -/
def Hub.bayUp (h : Hub) (s : Half) (p b : Nat) : Bool :=
  match h.dcn.adopted.find? fun a => a.1 == (s, p, b) with
  | some (_, q) =>
    let side := if (q + 1) % 16 = p then LinkName.side s q b else LinkName.side s p b
    (h.link side).up && (h.link (.bay s q b)).up && (h.link (.pier s q)).up
  | none => (h.link (.bay s p b)).up && (h.link (.pier s p)).up

/-- The links from the active root to an agent are up. -/
def Hub.linksUp (h : Hub) (u : UnitId) : Bool :=
  (h.link (.agent (ordinalOf u))).up && h.bayUp (halfOf u) (attachPier u) (attachBay u) &&
    (halfOf u == h.red.holder || (h.link .span).up)

/-- The DCN domain of a half is on (R119). -/
def Hub.dcnOn (h : Hub) (s : Half) : Bool := h.power.domains.getLsbD (match s with | .west => 3 | .east => 4)

/-- The path from the active root to an agent is up: its links, and the DCN of its half and of the active root
(R119). -/
def Hub.pathUp (h : Hub) (u : UnitId) : Bool := h.linksUp u && h.dcnOn (halfOf u) && h.dcnOn h.red.holder

/-- The agent answers the DCN (Table 1-6, last row). -/
def Hub.answers (h : Hub) (u : UnitId) : Bool :=
  unitHasAgent u && !h.retired u && (h.agent u).powered && !(h.agent u).unreachable && !(h.agent u).powering && h.pathUp u

/-- Presence as Table 8-4 codes it: 0 Present; 1 Absent, retired; 2 Absent, powered off; 3 Unreachable. -/
def Hub.presence (h : Hub) (u : UnitId) : Nat :=
  if h.retired u then 1 else if !(h.agent u).powered then 2 else if (h.agent u).unreachable then 3 else 0

/-- STATE codes (Table 5-4). -/
def agStateCode (s : AgState) : Nat :=
  match s with
  | .running => 0
  | .stopping => 1
  | .stopped => 2
  | .stepping => 3

/-- Membership as the hub reads it from the unit's agent; a unit that has not loaded PARTITION is outside
every partition (R25, R125). -/
def Hub.memberOf (h : Hub) (u : UnitId) (p : BitVec 6) : Bool :=
  let a := h.agent u
  a.powered && a.member && a.partition == p

/-- An instant has passed, or is now. -/
def Hub.reached (h : Hub) (t : Nat) : Bool := decide (t ≤ h.pt)

/-- The regions that the memory-fabric ports are confined to (R56). -/
def Trace.region (t : Trace) : MemRegion := { isSet := t.isSet, base := t.base, size := t.size }
def Dump.region (d : Dump) : MemRegion := { isSet := d.isSet, base := d.base, size := d.size }

/-- The configuration in force at a PT: the oldest replaced one that was still in force then, else the present one. -/
def regionAt (past : List (Nat × MemRegion)) (now : MemRegion) (pt : Nat) : MemRegion :=
  ((past.find? fun r => decide (pt < r.1)).map (·.2)).getD now

/-! ### Outputs -/

/-- Put something out at a face of the hub. -/
def Hub.emit (h : Hub) (o : Out) : Hub := { h with out := h.out ++ [o] }

/-- The next free value's number (log entry 8). -/
def Hub.drawFree (h : Hub) : Hub := { h with free := h.free + 1 }

/-! ### Power domains (R32, R407 to R409) -/

/-- A domain, 1 to 20, is on. -/
def Hub.domainOn (h : Hub) (d : Nat) : Bool := h.power.domains.getLsbD (d - 1)

/-- The domain of an output stage (R357): 0 the DPT transmit mux; 1 and 2 the root injectors, West and East;
3 to 34 the configuration ports of the collectors; 35 and 36 the memory-fabric ports. -/
def stageDomain (i : Nat) : Nat :=
  if i = 0 then 16 else if i = 1 then 4 else if i = 2 then 5 else if i < 19 then 6 else if i < 35 then 7
  else if i = 35 then 19 else 20

/-- The output stage of a collector's configuration port. -/
def collectorStage (i : Nat) : Nat := 3 + i

/-- Output stages of the hub. -/
def stageCount : Nat := 37

/-- Set or clear the ON bit of a domain. -/
def domainBit (m : BitVec 20) (d : Nat) (on : Bool) : BitVec 20 :=
  if on then m ||| BitVec.twoPow 20 (d - 1) else m &&& ~~~ BitVec.twoPow 20 (d - 1)

/-- A controller with work in hand: fast mode, and its time of idleness starts anew (R411). -/
def Ctrl.atWork (c : Ctrl) (pt : Nat) : Ctrl := { c with fast := true, busyPt := pt }

/-- A controller whose domain powers on: its count of the peer's heartbeats starts anew, and it runs in fast
mode (R354, R411). -/
def Ctrl.powered (c : Ctrl) (edge pt : Nat) : Ctrl :=
  { c.atWork pt with peerSeq := none, peerGood := 0, peerActive := 0, peerSeenIn := edge / 2500, peerLost := false }

/-- Power a domain on. The Keystone counts a controller's periods again 20 us after domains 2 and 3 power
on (R355); DCN counts restart with their domain (Table 19-4); the pattern store reloads (R341). -/
def Hub.powerDomain (h : Hub) (d : Nat) : Hub :=
  if h.domainOn d then h else
  let h := { h with power.domains := domainBit h.power.domains d true }
  match d with
  | 2 => { h with red.ksWest.countFrom := h.time.edge + 500, red.west := h.red.west.powered h.time.edge h.pt }
  | 3 => { h with red.ksEast.countFrom := h.time.edge + 500, red.east := h.red.east.powered h.time.edge h.pt }
  | 4 => { h with dcn.west := { onPt := h.pt } }
  | 5 => { h with dcn.east := { onPt := h.pt } }
  | 17 => { h with pat.reloading := true }
  | _ => h

def Hub.powerDomains (h : Hub) (ds : List Nat) : Hub := ds.foldl Hub.powerDomain h

/-- Power domains off, in the order given; an output stage without power holds nothing (R357). -/
def Hub.domainsOff (h : Hub) (ds : List Nat) : Hub :=
  { h with power.domains := ds.foldl (fun m d => domainBit m d false) h.power.domains,
           red.stages := h.red.stages.filter fun s => !ds.contains (stageDomain s.1) }

/-- Domains that a domain depends on, which power on first (R408). -/
def domainNeeds (d : Nat) : List Nat :=
  match d with
  | 6 | 7 => [18, 19, 20]
  | 8 | 9 => [4, 5, 10, 11, 19, 20]
  | 12 | 13 => [4, 5]
  | 16 => [15]
  | 17 => [19, 20]
  | _ => []

/-- A domain with those it depends on. -/
def withNeeds (d : Nat) : List Nat := domainNeeds d ++ [d]

/-- The Abutments may boot: the ROM loader has passed the image (R417). -/
def Hub.mayBoot (h : Hub) : Bool :=
  h.power.startUp == .verified || h.power.startUp == .granted || h.power.startUp == .enumerated || h.power.startUp == .ready

/-- The Abutments, the time PLL and the DCN power on. -/
def Hub.wakeDomains (h : Hub) : Hub := h.powerDomains [2, 3, 18, 4, 5]

/-- The wake of the Abutments with the time PLL and the DCN (Table 18-2); the 10 ms for which domains 2 and 3 stay on count
from here (R407). Nothing wakes them before the ROM loader has passed the image, or in recovery (R417). -/
def Hub.wake (h : Hub) : Hub :=
  if h.mayBoot then { h with power.idleSince := h.pt }.wakeDomains else h

/-- Work for the controllers that are on and not Withdrawn: they run in fast mode (R411). -/
def Hub.atWork (h : Hub) : Hub :=
  let west := h.domainOn 2 && h.red.west.role != .withdrawn
  let east := h.domainOn 3 && h.red.east.role != .withdrawn
  { h with red := { h.red with west := if west then h.red.west.atWork h.pt else h.red.west,
                               east := if east then h.red.east.atWork h.pt else h.red.east } }

/-- A wake that brings work. -/
def Hub.wakeWork (h : Hub) : Hub := h.wake.atWork

/-- Asleep: domains 2 and 3 are both off (R406). -/
def Hub.asleep (h : Hub) : Bool := !h.domainOn 2 && !h.domainOn 3

/-! ### Controllers -/

def Red.ctrl (r : Red) (s : Half) : Ctrl := match s with | .west => r.west | .east => r.east
def Red.setCtrl (r : Red) (s : Half) (c : Ctrl) : Red :=
  match s with | .west => { r with west := c } | .east => { r with east := c }
def Red.ks (r : Red) (s : Half) : KsSide := match s with | .west => r.ksWest | .east => r.ksEast
def Red.setKs (r : Red) (s : Half) (k : KsSide) : Red :=
  match s with | .west => { r with ksWest := k } | .east => { r with ksEast := k }

/-- The claim a controller bears in its accesses: that of the latest grant word it has received, or, before the first
since it booted, the one it reads with HOLDER (log entry 162). -/
def Red.bears (r : Red) (s : Half) : W32 := if (r.ctrl s).heard then (r.ctrl s).claim else r.claim

/-- An output stage refuses the active controller's own access: it holds another side or claim (R357). An access to a
stage that holds nothing yet waits for its first word, which comes within a period; the model makes it at once (log
entry 162). -/
def Hub.refuses (h : Hub) (i : Nat) : Bool :=
  h.red.granted && h.domainOn (stageDomain i) &&
    (match mapGet none h.red.stages i with
     | none => false
     | some g => g != (h.red.bears h.red.holder, h.red.holder))

/-- A stage refuses an access: REJECTED to the issuer, and the refusal is counted (R357). -/
def Hub.refuse (h : Hub) (i : Nat) (side : Half) : Hub :=
  { h with red.rejects := sat32 (h.red.rejects + 1) }.emit (.rejected i side)

/-- The active controller's access to an output stage (R357). -/
def Hub.atStage (h : Hub) (i : Nat) (act : Hub → Hub) : Hub :=
  if h.refuses i then h.refuse i h.red.holder else act h

/-- The side the current grant names has the role Active and has its synchronized set (R352, R361). -/
def Hub.accepting (h : Hub) : Bool :=
  h.red.granted && decide ((h.red.ctrl h.red.holder).role = .active) && !(h.red.ctrl h.red.holder).solo &&
    !(h.red.ctrl h.red.holder).withdrawing

/-! ### Sessions, life cycle and permission (R390, Table 16-5) -/

/-- Table 17-1 codes. -/
def lcCode (l : LifeCycle) : Nat :=
  match l with
  | .blank => 0
  | .test => 1
  | .production => 2
  | .endOfLife => 3
  | .locked => 4

/-- The decoded state's code; 0 before the first vote since AO power-on (log entry 7). -/
def Hub.lcNat (h : Hub) : Nat := (h.island.decoded.map lcCode).getD 0

def Hub.inBlankOrTest (h : Hub) : Bool :=
  h.island.decoded == some .blank || h.island.decoded == some .test

def Hub.session (h : Hub) (tag : W32) : Option Session := h.island.sessions.find? fun s => s.tag == tag

def roleCode (r : Role) : Nat := match r with | .observer => 1 | .operator => 2 | .vendor => 3
def roleOf (n : Nat) : Option Role :=
  match n with
  | 1 => some .observer
  | 2 => some .operator
  | 3 => some .vendor
  | _ => none

/-- The three State sets of R378. -/
inductive States where
  | all
  | live
  | test
  deriving DecidableEq, Repr

def States.has (s : States) (l : LifeCycle) : Bool :=
  match s with
  | .all => true
  | .live => l == .blank || l == .test || l == .production
  | .test => l == .blank || l == .test

/-- One row of Table 16-5: number, roles and states. -/
structure OpRow where
  code : Nat
  /-- SESSION may be 0. -/
  free : Bool := false
  ob : Bool := false
  op : Bool := false
  ve : Bool := false
  states : States := .live
  deriving DecidableEq, Repr

def opRows0 : List OpRow := [
  { code := 0x0000, free := true, states := .all },
  { code := 0x0001, free := true, states := .all },
  { code := 0x0002, free := true, states := .all },
  { code := 0x0003, ob := true, op := true, ve := true, states := .all },
  { code := 0x0004, free := true, states := .all },
  { code := 0x0100, free := true, states := .all },
  { code := 0x0101, ob := true, op := true, ve := true },
  { code := 0x0102, op := true },
  { code := 0x0103, op := true, states := .all },
  { code := 0x0104, op := true, states := .all },
  { code := 0x0200, ob := true, op := true, ve := true },
  { code := 0x0201, op := true },
  { code := 0x0202, op := true },
  { code := 0x0203, op := true },
  { code := 0x0300, op := true },
  { code := 0x0301, op := true, ve := true },
  { code := 0x0302, op := true, ve := true },
  { code := 0x0303, op := true },
  { code := 0x0304, op := true },
  { code := 0x0305, ve := true, states := .test },
  { code := 0x0306, ve := true, states := .test },
  { code := 0x0307, op := true, ve := true },
  { code := 0x0308, ob := true, op := true, ve := true },
  { code := 0x0309, ve := true, states := .test }]

def opRows1 : List OpRow := [
  { code := 0x0400, op := true },
  { code := 0x0401, op := true },
  { code := 0x0402, op := true },
  { code := 0x0403, op := true },
  { code := 0x0404, op := true },
  { code := 0x0405, op := true },
  { code := 0x0406, op := true },
  { code := 0x0500, op := true },
  { code := 0x0501, op := true },
  { code := 0x0502, op := true },
  { code := 0x0503, op := true },
  { code := 0x0504, op := true },
  { code := 0x0505, ob := true, op := true },
  { code := 0x0506, op := true },
  { code := 0x0600, ob := true, op := true },
  { code := 0x0601, ob := true, op := true },
  { code := 0x0602, ob := true, op := true },
  { code := 0x0603, ob := true, op := true },
  { code := 0x0604, op := true },
  { code := 0x0700, ob := true, op := true },
  { code := 0x0701, op := true },
  { code := 0x0702, op := true },
  { code := 0x0703, ob := true, op := true },
  { code := 0x0704, op := true },
  { code := 0x0705, op := true },
  { code := 0x0706, op := true },
  { code := 0x0800, op := true },
  { code := 0x0801, op := true },
  { code := 0x0802, op := true },
  { code := 0x0803, op := true }]

def opRows2 : List OpRow := [
  { code := 0x0900, op := true },
  { code := 0x0901, op := true },
  { code := 0x0902, op := true },
  { code := 0x0903, op := true },
  { code := 0x0904, op := true, ve := true, states := .test },
  { code := 0x0905, op := true },
  { code := 0x0906, op := true },
  { code := 0x0907, op := true },
  { code := 0x0A00, op := true },
  { code := 0x0A01, op := true },
  { code := 0x0A02, op := true },
  { code := 0x0A03, op := true },
  { code := 0x0A04, op := true },
  { code := 0x0A05, op := true },
  { code := 0x0A06, op := true },
  { code := 0x0A07, op := true },
  { code := 0x0A08, op := true },
  { code := 0x0A09, op := true },
  { code := 0x0A0A, op := true },
  { code := 0x0B00, op := true },
  { code := 0x0B01, op := true },
  { code := 0x0B02, op := true },
  { code := 0x0C00, ob := true, op := true, ve := true, states := .all },
  { code := 0x0C01, op := true, ve := true },
  { code := 0x0C02, ve := true, states := .test },
  { code := 0x0D00, op := true, ve := true },
  { code := 0x0D01, op := true },
  { code := 0x0E00, op := true, ve := true },
  { code := 0x0E01, ve := true, states := .test }]

/-- Table 16-5's numbers, roles and states. -/
def opRows : List OpRow := opRows0 ++ opRows1 ++ opRows2

def opRow (code : Nat) : Option OpRow := opRows.find? fun r => r.code == code

/-- Row 7 of Table 16-4 for a session role and a life-cycle state. Two opcodes tie a role to a state:
HANG_STOP "Op; Ve in T" and LIFECYCLE_ADVANCE "Ve from Blank or Test; Op from Production". -/
def rolePermits (r : OpRow) (role : Role) (l : LifeCycle) : Bool :=
  if r.code = 0x0301 then
    (role == .operator && States.live.has l) || (role == .vendor && States.test.has l)
  else if r.code = 0x0C01 then
    (role == .vendor && States.test.has l) || (role == .operator && l == .production)
  else
    (match role with | .observer => r.ob | .operator => r.op | .vendor => r.ve) && r.states.has l

/-! ### Replies -/

/-- Table 16-3 codes. -/
def statusCode (s : Status) : Nat :=
  match s with
  | .ok => 0
  | .busy => 1
  | .denied => 2
  | .badState => 3
  | .badArg => 4
  | .boundReached => 5
  | .unreachable => 6
  | .discarded => 7
  | .safeState => 8
  | .notHung => 9

/-- The octets of a reply packet (Table 16-2). -/
def Packet.bytes (p : Packet) : List Byte :=
  [0x01, BitVec.ofNat 8 (1 + 2 * b2n p.more)] ++ le 2 p.opcode.toNat ++ le 2 p.sequence.toNat ++
    [BitVec.ofNat 8 (statusCode p.status), 0] ++ le 4 p.payload.length ++ le 4 p.session.toNat ++ p.payload

/-- A frame's octets: header, payload and CRC (Table 16-1). -/
def frameOctets (ftype : Byte) (fseq ack : W16) (payload : List Byte) : List Byte :=
  let b := [ftype, 0] ++ le 2 fseq.toNat ++ le 2 ack.toNat ++ le 2 payload.length ++ payload
  b ++ le 4 (crc32c b).toNat

def dataFrame (fseq ack : W16) (p : Packet) : List Byte := frameOctets 1 fseq ack p.bytes
def ackFrame (n : W16) : List Byte := frameOctets 2 0 n []
def nakFrame (n : W16) : List Byte := frameOctets 3 0 n []

/-- The transport selected: DPT while the lane is Up, JTAG otherwise (R43). -/
def Hub.transport (h : Hub) : Transport := if h.port.lane = .up then .dpt else .jtag

/-- Send waiting packets as DATA frames while fewer than 32 are unacknowledged (R368), by fuel. -/
def pumpFuel : Nat → Hub → Hub
  | 0, h => h
  | f + 1, h =>
    match h.port.waiting with
    | [] => h
    | p :: ps =>
      if 32 ≤ h.port.unacked.length then h else
      let n := h.port.nextFseq
      let fr : TxFrame := { fseq := n, packet := p, resends := 0, sentPt := h.pt }
      let since := if h.port.unacked.isEmpty then h.pt else h.port.ackPt
      let port := { h.port with waiting := ps, nextFseq := n + 1, unacked := h.port.unacked ++ [fr],
                                ackDue := none, ackPt := since }
      pumpFuel f ({ h with port := port }.emit (.frame (dataFrame n port.expectFseq p)))

def Hub.pump (h : Hub) : Hub := pumpFuel h.port.waiting.length h

/-- Words of the JTAG reply buffer: 64 KiB (R383). -/
def jtagBufferWords : Nat := 16384

/-- The words of waiting packets that there is room for, and what still waits. -/
def takeParts (room : Nat) : List TxPart → List W32 × List TxPart
  | [] => ([], [])
  | p :: ps =>
    if p.words.length ≤ room then
      let r := takeParts (room - p.words.length) ps
      (p.words ++ r.1, r.2)
    else (p.words.take room, { p with words := p.words.drop room, begun := p.begun || decide (0 < room) } :: ps)

/-- Move waiting reply words into the reply buffer while it has room; note since when it is full. With its last word the
executing command has ended (R375). -/
def Hub.fillJtag (h : Hub) : Hub :=
  let r := takeParts (jtagBufferWords - h.tap.tx.length) h.tap.txWait
  let tx := h.tap.tx ++ r.1
  let full := tx.length == jtagBufferWords
  { h with tap.tx := tx, tap.txWait := r.2, tap.waitFor := if r.2.any (·.own) then h.tap.waitFor else none,
           tap.fullSince := if full then (h.tap.fullSince.orElse fun _ => some h.pt) else none }

/-- The words of a packet over JTAG: padded to a multiple of 4, then the CRC-32C word (R381). -/
def jtagWords (p : Packet) : List W32 :=
  let b := padTo 4 p.bytes
  words32 b ++ [crc32c b]

/-- Hand a reply packet to the transport it belongs to: over the DPT through its transmit mux, an output stage (R357). -/
def Hub.send (h : Hub) (tr : Transport) (p : Packet) : Hub :=
  if h.transport ≠ tr then h else
  match tr with
  | .dpt => h.atStage 0 fun h => { h.emit (.reply p) with port.waiting := h.port.waiting ++ [p] }.pump
  | .jtag =>
    let part : TxPart := { words := jtagWords p, own := decide (p.status ≠ .busy) }
    let waits := if part.own then some (p.session, p.sequence, p.opcode) else h.tap.waitFor
    { h.emit (.reply p) with tap.txWait := h.tap.txWait ++ [part], tap.waitFor := waits }.fillJtag

/-- The packets of a reply: at most 65,504 payload octets each, MORE and OK in all but the last (R372). -/
def replyPackets (code : W16) (hdr : Hdr) (st : Status) (body : List Byte) : List Packet :=
  let mk (more : Bool) (st : Status) (b : List Byte) : Packet :=
    { more := more, opcode := code, sequence := hdr.sequence, status := st, session := hdr.session, payload := b }
  let pieces := chunks 65504 body
  (pieces.dropLast.map (mk true .ok)) ++ [mk false st (pieces.getLastD [])]

/-- Put a reply on a transport. -/
def Hub.sendReply (h : Hub) (tr : Transport) (code : W16) (hdr : Hdr) (st : Status) (body : List Byte) : Hub :=
  (replyPackets code hdr st body).foldl (fun h p => h.send tr p) h

/-- Answer a packet on a transport, once no change of the synchronized set waits for its acknowledgement (R360). -/
def Hub.answerOn (h : Hub) (tr : Transport) (code : W16) (hdr : Hdr) (st : Status) (body : List Byte) : Hub :=
  if h.red.syncWait.isSome then { h with red.heldReplies := h.red.heldReplies ++ [⟨tr, code, hdr, st, body⟩] }
  else h.sendReply tr code hdr st body

/-- The acknowledgement has come, or is waited for no longer: the replies leave (R360). -/
def Hub.syncDone (h : Hub) : Hub :=
  h.red.heldReplies.foldl (fun h r => h.sendReply r.transport r.opcode r.hdr r.status r.body)
    { h with red.syncWait := none, red.heldReplies := [] }

/-- Answer a packet on the selected transport. -/
def Hub.answer (h : Hub) (code : Nat) (hdr : Hdr) (st : Status) (body : List Byte) : Hub :=
  h.answerOn h.transport (BitVec.ofNat 16 code) hdr st body

/-- The body of BAD_ARG: ARG_OFFSET and DETAIL (R373). -/
def badArgBody (offset detail : Nat) : List Byte := le 4 offset ++ le 4 detail

/-- No single field is at fault (R373). -/
def noOffset : Nat := 0xFFFFFFFF

/-- The body of UNREACHABLE: N and the units that did not answer (R373). -/
def unitsBody (us : List UnitId) : List Byte := le 2 us.length ++ us.flatMap fun u => le 2 u.toNat

def Hub.ok (h : Hub) (code : Nat) (hdr : Hdr) (body : List Byte) : Hub := h.answer code hdr .ok body
def Hub.badArg (h : Hub) (code : Nat) (hdr : Hdr) (offset : Nat) : Hub :=
  h.answer code hdr .badArg (badArgBody offset 0)
def Hub.badState (h : Hub) (code : Nat) (hdr : Hdr) : Hub := h.answer code hdr .badState []
def Hub.denied (h : Hub) (code : Nat) (hdr : Hdr) : Hub := h.answer code hdr .denied []

/-- A command executes: one is in the slot, or its reply waits for the JTAG buffer or for the standby (R375, R383, R360). -/
def Hub.busy (h : Hub) : Bool := h.slot.isSome || h.tap.waitFor.isSome || !h.red.heldReplies.isEmpty

/-- Take the command slot for a command that does not end at once. -/
def Hub.occupy (h : Hub) (code : Nat) (hdr : Hdr) (p : Prog) : Hub :=
  { h with slot := some { opcode := BitVec.ofNat 16 code, hdr := hdr, transport := h.transport,
                          startPt := h.pt, prog := p } }

/-- End the executing command with a status and a body; the reply of a muted command is discarded (R41). -/
def Hub.conclude (h : Hub) (st : Status) (body : List Byte) : Hub :=
  match h.slot with
  | none => h
  | some e =>
    let h := { h with slot := none }
    if e.mute then h else h.answerOn e.transport e.opcode e.hdr st body

/-- Change the executing command's progress. -/
def Hub.setProg (h : Hub) (p : Prog) : Hub :=
  { h with slot := h.slot.map fun e => { e with prog := p } }

/-! ### Admission (Table 16-4) -/

/-- The rows of Table 16-4 before the opcode's own checks, for a packet whose format is good: what it is
answered, or none where it executes. -/
def Hub.verdict (h : Hub) (r : OpRow) (hdr : Hdr) : Option (Status × List Byte) :=
  let code := r.code
  if h.busy then some (.busy, []) else
  match h.discards.find? fun d => d.1 == hdr.session with
  | some d => some (.discarded, le 2 d.2.1.toNat ++ le 2 d.2.2.toNat)
  | none =>
  if h.fc.safe && decide (0x0200 ≤ code) then some (.safeState, []) else
  match h.session hdr.session with
  | none => if hdr.session = 0 && r.free then none else some (.denied, [])
  | some s =>
    if r.free then none else
    match h.island.decoded with
    | none => some (.denied, [])
    | some l => if rolePermits r s.role l then none else some (.denied, [])

/-- In recovery only IDENTIFY, HUB_STATUS and FIRMWARE_WRITE are answered, over JTAG, without a session
(R417). -/
def recoveryOp (code : Nat) : Bool := code == 0x0000 || code == 0x0100 || code == 0x0D01

/-- Where a session's packet is received: its idle time starts anew (Table 17-8). -/
def Hub.touch (h : Hub) (tag : W32) : Hub :=
  { h with island.sessions := h.island.sessions.map fun s => if s.tag = tag then { s with lastPt := h.pt } else s }

/-- A packet can be taken at all: start-up has reached Ready, and a controller accepts packets (R361,
R422); or the loader is in recovery. -/
def Hub.takesPackets (h : Hub) : Bool := decide (h.power.startUp = .ready) && h.accepting

/-- The holder's controller works: fast mode, and its time of idleness starts anew (R411). -/
def Hub.working (h : Hub) : Hub :=
  let c := h.red.ctrl h.red.holder
  { h with red := h.red.setCtrl h.red.holder (c.atWork h.pt) }

/-- Admit a command of opcode `code`, and run it where it passes rows 1 to 7 of Table 16-4. -/
def Hub.icp (h : Hub) (code : Nat) (hdr : Hdr) (run : Hub → Hub) : Hub :=
  match opRow code with
  | none => h
  | some r =>
    if h.power.startUp = .recovery then
      if recoveryOp code && h.transport == .jtag then
        (if h.busy then { h with port.busy := sat32 (h.port.busy + 1) }.answer code hdr .busy [] else run h)
      else h
    else if !h.takesPackets then h
    else
      let h := (h.touch hdr.session).wake.working
      match h.verdict r hdr with
      | none => run h
      | some (st, body) =>
        let h := if st = .busy then { h with port.busy := sat32 (h.port.busy + 1) } else h
        let h := if st = .discarded then
            { h with discards := h.discards.filter fun d => d.1 != hdr.session } else h
        h.answer code hdr st body

/-! ### Scope blocks (R371, R148) -/

/-- The first faulty field of a scope block whose SCOPE lies at payload offset `o`; SCOPE, SEL, N and the
units in that order. -/
def scopeFault (sb : ScopeBlock) (o : Nat) : Option Nat :=
  let n := o + 2 + o % 2
  let sc := sb.scope.toNat
  let sel := sb.sel.toNat
  if 3 < sc then some o
  else if (sc = 0 ∨ sc = 3) ∧ sel ≠ 0 then some (o + 1)
  else if sc = 1 ∧ 1 < sel then some (o + 1)
  else if sc = 2 ∧ 63 < sel then some (o + 1)
  else if sc ≠ 3 ∧ sb.units ≠ [] then some n
  else ((List.range sb.units.length).find? fun i => !unitValid (sb.units.getD i 0)).map fun i => n + 2 + 2 * i

/-- The broadcast scope and the listed units a scope block stands for; an Observer's is its partition
(R26, R371). -/
def scopeOf (sb : ScopeBlock) (s : Option Session) : Scope × List UnitId :=
  match s with
  | some ⟨_, .observer, p, _, _, _⟩ => (.part p, [])
  | _ =>
    match sb.scope.toNat with
    | 0 => (.chip, [])
    | 1 => (.half (if sb.sel.getLsbD 0 then .east else .west), [])
    | 2 => (.part (sb.sel.setWidth 6), [])
    | _ => (.mask, sb.units)

/-- A unit lies in a scope as the hub sees it now. -/
def Hub.inScope (h : Hub) (sc : Scope) (us : List UnitId) (u : UnitId) : Bool :=
  match sc with
  | .chip => true
  | .half s => halfOf u == s
  | .part p => h.memberOf u p
  | .mask => us.contains u

/-- The units of a scope in ordinal order. -/
def Hub.scopeUnits (h : Hub) (sc : Scope) (us : List UnitId) : List UnitId :=
  match sc with
  | .mask => allUnits.filter fun u => us.contains u
  | .part p => h.poweredUnits.filter fun u => h.memberOf u p
  | .chip => allUnits
  | .half s => allUnits.filter fun u => halfOf u == s

end Sys2Proof.Machine
end

