-- ==== Sys2Proof/Machine/Agent.lean ====
section
/-! DEFINITION. What an agent does with its own state: event ring (R130 to R132), notices (R128, R129),
state changes (R121), gating and ungated time (R137, R141), arming and disarming (R99, R100, R103). -/

namespace Sys2Proof.Machine

/-! ### Event ring and notices -/

/-- The slot the next entry goes to (R130, R132). -/
def Agent.ringSlot (a : Agent) : Nat :=
  if a.cutValid then (a.cutSlot + (a.nextSeq - a.cutSeq).toNat % 16) % 64 else a.nextSlot

/-- The slot of the entry written `i` entries ago, 1 for the newest. -/
def Agent.slotBack (a : Agent) (i : Nat) : Nat :=
  if a.cutValid then (a.cutSlot + (a.nextSeq - BitVec.ofNat 16 i - a.cutSeq).toNat % 16) % 64
  else (a.nextSlot + 64 - i) % 64

/-- The entry written `i` entries ago, where it is of the cycle at PT `pt`. -/
def Agent.entryAt (a : Agent) (pt i : Nat) : Option RingEntry :=
  let e := mapGet {} a.ring (a.slotBack i)
  if a.cyclePt = pt ∧ i ≤ a.cycleN ∧ e.code ≠ 0 then some e else none

/-- The newest entries of the cycle at PT `pt` that a test names, the newest first; at most 16. -/
def Agent.cycleEntries (a : Agent) (pt : Nat) (p : RingEntry → Bool) : List RingEntry :=
  ((List.range 16).map fun i => a.entryAt pt (i + 1)).takeWhile (fun e => (e.map p).getD false) |>.filterMap id

/-- A queued EVENT notice of an entry that moves to the next SEQ follows it. -/
def Notice.follow (n : Notice) (e : RingEntry) : Notice :=
  if n.kind = 2 ∧ bits n.arg.toNat 7 0 = e.code.toNat ∧ bits n.arg.toNat 25 12 = e.seq.toNat % 0x4000 then
    { n with arg := BitVec.ofNat 26 (bits n.arg.toNat 11 0 + (e.seq.toNat + 1) % 0x4000 * 0x1000) }
  else n

/-- Write an entry at PT `pt`; before the replica has loaded it is untimed (R68, R130). Entries of one cycle, timed or not,
stand in code order, so those of a greater code move on by one (R131). -/
def Agent.ringWrite (a : Agent) (pt : Nat) (code : Byte) (engine : BitVec 4) (data : Nat) : Agent :=
  let moved := a.cycleEntries pt fun e => decide (code.toNat < e.code.toNat)
  let n := moved.length
  let place (r : SMap RingEntry) (x : Nat × RingEntry) : SMap RingEntry :=
    mapSet {} r (if x.1 = 0 then a.ringSlot else a.slotBack x.1) { x.2 with seq := a.nextSeq - BitVec.ofNat 16 x.1 }
  let e : RingEntry := { code := code, untimed := !a.replicaLoaded, engine := engine,
                         pt := if a.replicaLoaded then pt else 0, data := BitVec.ofNat 32 data }
  let ring := place (((List.range n).zip moved).foldl place a.ring) (n, e)
  { a with ring := ring, nextSeq := a.nextSeq + 1, nextSlot := (a.ringSlot + 1) % 64, cyclePt := pt,
           cycleN := (if a.cyclePt = pt then a.cycleN else 0) + 1,
           notices := moved.foldl (fun (l : List Notice) (x : RingEntry) => l.map fun (q : Notice) => q.follow x) a.notices }

/-- Queue a notice; with the queue full it is dropped, counted and written as NOTICE_LOST (R129). -/
def Agent.notice (a : Agent) (pt : Nat) (n : Notice) : Agent :=
  if a.notices.length < 8 then { a with notices := a.notices ++ [n] }
  else
    let a := { a with noticesLost := sat32 (a.noticesLost + 1), lostSince := a.lostSince + 1 }
    a.ringWrite pt 0x0A 0 a.noticesLost

/-- Replica PT (R67): nothing before it has loaded. -/
def Agent.replica (a : Agent) (pt : Nat) : Nat := if a.replicaLoaded then pt else 0

/-- An EVENT notice of a ring entry (Table 5-8). -/
def eventNotice (u : UnitId) (code : Byte) (engine : BitVec 4) (seq : W16) (pt data : Nat) : Notice :=
  { kind := 2, unit := u,
    arg := BitVec.ofNat 26 (code.toNat + engine.toNat * 0x100 + seq.toNat % 0x4000 * 0x1000),
    body := BitVec.ofNat 64 (pt % 2 ^ 32 * 2 ^ 32 + data % 2 ^ 32) }

/-- Codes sent as EVENT notices: 0x10, 0x11 and 0x13 to 0x1F (R129). -/
def eventNoticed (code : Byte) : Bool :=
  code == 0x10 || code == 0x11 || (decide (0x13 ≤ code.toNat) && decide (code.toNat ≤ 0x1F))

/-- Write an event, and send its EVENT notice where its code has one. -/
def Agent.event (a : Agent) (u : UnitId) (pt : Nat) (code : Byte) (engine : BitVec 4) (data : Nat) : Agent :=
  let seq := a.nextSeq - BitVec.ofNat 16 (a.cycleEntries pt fun e => decide (code.toNat < e.code.toNat)).length
  let b := a.ringWrite pt code engine data
  if eventNoticed code then b.notice pt (eventNotice u code engine seq (a.replica pt) data) else b

/-- Change STATE: a STATE event and a STATE notice (Table 5-8, Table 5-10). -/
def Agent.setState (a : Agent) (u : UnitId) (pt : Nat) (new : AgState) : Agent :=
  let v := agStateCode new + 8 * agStateCode a.state
  let a := { a with state := new }
  (a.ringWrite pt 0x03 0 v).notice pt
    { kind := 0, unit := u, arg := BitVec.ofNat 26 v, body := BitVec.ofNat 64 (a.replica pt) }

/-- LATE for a broadcast class: the event and the notice (R138). -/
def Agent.lateEvent (a : Agent) (u : UnitId) (pt cls : Nat) (instant : Nat) : Agent :=
  (a.ringWrite pt 0x05 0 cls).notice pt
    { kind := 4, unit := u, arg := BitVec.ofNat 26 cls, body := BitVec.ofNat 64 instant }

/-! ### Engines and ungated time -/

/-- Ungated ns of the unit so far (R141). -/
def Agent.ungated (a : Agent) (pt : Nat) : Nat :=
  a.ungatedNs + (if a.gated then 0 else pt - a.ungateSince)

def Agent.engine (a : Agent) (e : Nat) : Engine := mapGet {} a.engines e
def Agent.setEngine (a : Agent) (e : Nat) (g : Engine) : Agent := { a with engines := mapSet {} a.engines e g }

/-- Unit-clock cycles in some ungated ns of a busy engine: 1.2 GHz is 6 cycles in 5 ns (R137, R245); whole
cycles, with the fifths carried over (log entry 9). -/
def Cnt.addBusy (c : Cnt) (ns : Nat) : Cnt :=
  let f := c.busyFifths + 6 * ns
  let n := f / 5
  { c with light.busy := sat64 (c.light.busy + n), unpushed.busy := c.unpushed.busy + n, busyFifths := f % 5 }

/-- The engine that runs in a command step, behind the fence; the unit's other engines stay gated (R178). -/
def Agent.stepOnly (a : Agent) : Option Nat :=
  match a.stepRun with
  | some r => if r.command then some r.engine.toNat else none
  | none => none

/-- An engine other than the one of a command step. -/
def Agent.heldOff (a : Agent) (e : Nat) : Bool := match a.stepOnly with | some k => decide (e ≠ k) | none => false

/-- An engine does nothing: its clocks are gated, or it waits for a request held at the fence (R178, R179). -/
def Agent.engineGated (a : Agent) (e : Nat) : Bool := a.gated || a.heldOff e || a.outbound.any fun q => q.1 == e

/-- Ungated ns of an engine so far (R141). -/
def Agent.ungatedOf (a : Agent) (e pt : Nat) : Nat := if a.heldOff e then a.ungatedNs else a.ungated pt

/-- Some engine of the unit executes a command. -/
def Agent.busy (a : Agent) : Bool := a.engines.any fun e => e.2.running.isSome && !a.heldOff e.1

/-- Count busy cycles up to `pt`: only while the unit's clocks run (R137). -/
def Agent.settle (a : Agent) (pt : Nat) : Agent :=
  let c := if a.busy && !a.gated then a.cnt.addBusy (pt - a.cnt.busyPt) else a.cnt
  { a with cnt := { c with busyPt := pt } }

/-- Gate the unit's clocks (R137). -/
def Agent.gate (a : Agent) (pt : Nat) : Agent :=
  if a.gated then a else
  let a := a.settle pt
  { a with gated := true, ungatedNs := a.ungatedNs + (pt - a.ungateSince), ungateSince := pt }

/-- Ungate the unit's clocks. -/
def Agent.ungate (a : Agent) (pt : Nat) : Agent :=
  if !a.gated then a else
  let a := a.settle pt
  { a with gated := false, ungateSince := pt }

/-! ### Broadcasts at the agent -/

def Agent.armedAt (a : Agent) (cls : Nat) : Option Armed := (a.armed.find? fun x => x.1 == cls).map (·.2)
def Agent.arm (a : Agent) (cls : Nat) (x : Armed) : Agent := { a with armed := mapInsert a.armed cls x }
def Agent.disarm (a : Agent) (cls : Nat) : Agent := { a with armed := mapErase a.armed cls }

/-- The agent is in the scope of a broadcast of class `cls` (R98). -/
def Agent.inScope (a : Agent) (u : UnitId) (sc : Scope) (cls : Nat) : Bool :=
  match sc with
  | .chip => true
  | .half s => halfOf u == s
  | .part p => a.member && a.partition == p
  | .mask => a.armMask.getLsbD cls

/-- The last accepted SEQ of a class; none before the first acceptance since power-on (R103). -/
def Agent.seqOf (a : Agent) (cls : Nat) : Option Byte := (a.lastSeq.find? fun x => x.1 == cls).map (·.2)

/-- The broadcast's SEQ is accepted (R103). -/
def Agent.takesSeq (a : Agent) (cls : Nat) (seq : Byte) : Bool :=
  match a.seqOf cls with
  | none => true
  | some l => laterThan 8 seq.toNat l.toNat

/-- A shadow block (R135): TYPE, INSTANCE and body. -/
structure ShadowBlock where
  typ : Nat
  instance_ : Nat
  body : List Byte
  deriving DecidableEq, Repr

def ShadowBlock.bytes (b : ShadowBlock) : List Byte := le 2 b.typ ++ le 2 b.instance_ ++ le 4 b.body.length ++ b.body

/-- The blocks that stand back to back in some octets, by fuel; none where a head or a LENGTH is not sound. -/
def parseBlocks : Nat → List Byte → Option (List ShadowBlock)
  | _, [] => some []
  | 0, _ => none
  | f + 1, l =>
    let n := leNat ((l.drop 4).take 4)
    if l.length < 8 + n ∨ n % 8 ≠ 0 then none else
    (parseBlocks f (l.drop (8 + n))).map fun bs =>
      { typ := leNat (l.take 2), instance_ := leNat ((l.drop 2).take 2), body := (l.drop 8).take n } :: bs

def blocksOf (l : List Byte) : Option (List ShadowBlock) := parseBlocks (l.length / 8) l

/-- The cut-marker blocks of a shadow, TYPE 0x0006. -/
def Shadow.markerBlocks (s : Shadow) : List Byte :=
  (((blocksOf s.blocks).getD []).filter fun b => b.typ == 6).flatMap ShadowBlock.bytes

/-- The shadow as the scan finds it: COMPLETE is 0 until the scan has ended. After a step STOP_SEQ and CUT_SEQ stay as
the stop wrote them (R134, R175). -/
def Agent.scanning (a : Agent) (pt : Nat) (x : Armed) (step late : Bool) : Shadow :=
  let old := if step then a.shadow else none
  { complete := false, late := late, poweredIn := false, step := step, cutPt := pt, donePt := 0, blocks := [], blockCount := 0,
    cutSeq := ((old.map fun (s : Shadow) => s.cutSeq)).getD a.cutSeq, claim := x.claim,
    stopSeq := (old.map fun (s : Shadow) => s.stopSeq).getD x.seq }

/-- Gate at a cut (R132, R154): the ring cut, a new set of checker ports, and the scan begins. Entries of the cycle of
the gating edge are post-cut entries. A cut at the end of a step keeps the ring cut of the stop (R173). -/
def Agent.cutNow (a : Agent) (pt : Nat) (x : Armed) (step late : Bool) : Agent :=
  let a := a.gate pt
  let k := (a.cycleEntries pt fun _ => true).length
  let a := if step then a
           else { a with cutValid := true, cutSeq := a.nextSeq - BitVec.ofNat 16 k, cutSlot := (a.nextSlot + 64 - k) % 64 }
  let kept := ((if step then a.shadow else none).map Shadow.markerBlocks).getD []
  { a with shadow := some (a.scanning pt x step late),
           cut := some { pt := pt, instant := x.instant, claim := x.claim, seq := x.seq, step := step,
                         late := late, capturing := true, kept := kept } }

/-- What a cut leaves in a memory controller (Table 6-7): no command for the chip's queues, and the devices of a tier-1
controller in self-refresh. -/
def Agent.holdMemory (a : Agent) (u : UnitId) : Agent :=
  if unitClass u = 6 then { a with selfRefresh := decide (unitIndex u < 6), chipHeld := true } else a

/-- Open every checker port of the unit at its gating edge, keeping markers that came before it (R155); where the unit has
no checker they tell which of its own markers carry EARLY_SEEN (R154). -/
def Agent.openPorts (a : Agent) (u : UnitId) (pt : Nat) (step : Bool) : Agent :=
  let kept := a.ports.filter fun p => p.2.gatePt.isNone && p.2.marker.isSome
  { a with ports := kept.map fun p => (p.1, { p.2 with gatePt := some pt, opened := hasChecker u, step := step }) }

/-- A STOP reaches its instant in a Running agent: the gating edge (R132, R137, R154). -/
def Agent.stopNow (a : Agent) (u : UnitId) (pt : Nat) (x : Armed) (late : Bool) : Agent :=
  let a := (a.cutNow pt x false late).openPorts u pt false
  let a := (a.holdMemory u).setState u pt .stopping
  { a.ringWrite pt 0x06 0 0 with late := late }

end Sys2Proof.Machine
end

