-- ==== Sys2Proof/Machine/Flit.lean ====
section
/-! DEFINITION. The flits and packets of the debug control network (R87, R93, R94, R98, R107, R128, Table 4-4), where
the trestle's nodes stand (R84, R85, R115), and how a packet enters the network (R95, R101). -/

namespace Sys2Proof.Machine

/-! ### Flits (Table 4-1) -/

/-- LANE, HEAD and CRC of a flit. -/
def flitLane (f : Flit) : Nat := bits f.side.toNat 11 10
def flitHead (f : Flit) : Bool := f.side.getLsbD 9

/-- CRC-8 over the sideband bits above it and the data (Table 4-1). -/
def flitCrc (top data : Nat) : Nat := (crc8 (bitsDown 4 top ++ bitsDown 64 data)).toNat
def flitGood (f : Flit) : Bool := flitCrc (f.side.toNat / 256) f.data.toNat == f.side.toNat % 256

/-- A flit of a lane. -/
def mkFlit (lane : Nat) (head : Bool) (w : W64) : Flit :=
  let top := 4 * lane + 2 * b2n head
  { data := w, side := BitVec.ofNat 12 (256 * top + flitCrc top w.toNat) }

/-! ### Packets (Tables 4-3 and 4-4) -/

/-- Fields of a head flit. -/
def headType (w : W64) : Nat := bits w.toNat 63 60
def headOp (w : W64) : Nat := bits w.toNat 59 56
def headUnit (w : W64) : UnitId := BitVec.ofNat 16 (bits w.toNat 55 40)
def headTag (w : W64) : Byte := BitVec.ofNat 8 (bits w.toNat 39 32)
def headLen (w : W64) : Nat := bits w.toNat 31 26
def headArg (w : W64) : BitVec 26 := BitVec.ofNat 26 (bits w.toNat 25 0)

/-- The lane and the lengths of a packet type (R94). -/
def headGood (lane : Nat) (w : W64) : Bool :=
  let n := headLen w
  match headType w with
  | 0 => lane == 1 && n == 2
  | 1 => lane == 2 && n == (if headOp w = 3 then 5 else 1)
  | 2 => lane == 2 && n == 0
  | 3 => lane == 2 && n == 1
  | 4 => lane == 2 && n == 1
  | 5 => lane == 2 && n == 1
  | 6 => lane == 3 && decide (1 ≤ n) && decide (n ≤ 32)
  | 7 => lane == 2 && n == 0
  | 8 => lane == 3 && decide (1 ≤ n) && decide (n ≤ 32)
  | 9 => lane == 2 && n == 0
  | _ => false

/-- The lane of a packet type. -/
def typeLane (t : Nat) : Nat := if t = 0 then 1 else if t = 6 ∨ t = 8 then 3 else 2

/-- The head flit's data. -/
def Pkt.head (p : Pkt) : W64 :=
  BitVec.ofNat 64 (p.typ % 16 * 2 ^ 60 + p.op % 16 * 2 ^ 56 + p.unit.toNat * 2 ^ 40 + p.tag.toNat * 2 ^ 32 +
    p.body.length % 64 * 2 ^ 26 + p.arg.toNat)

/-- The packet's flits: the head, then LEN body flits, all in one lane. -/
def Pkt.cells (p : Pkt) : List Cell :=
  let lane := typeLane p.typ
  let hd := p.head
  { flit := mkFlit lane true hd, head := hd, index := 0 } ::
    (List.range p.body.length).map fun i =>
      { flit := mkFlit lane false (p.body.getD i 0), head := hd, index := i + 1 }

/-- The last flit of its packet. -/
def Cell.last (c : Cell) : Bool := c.index == headLen c.head

/-- BCAST (R98). -/
def Bcast.pkt (b : Bcast) : Pkt :=
  let sc : Nat × Nat × UnitId := match b.scope with
    | .chip => (0, 0, 0)
    | .half s => (1, 0, if s = .west then 0 else 0x8000)
    | .part p => (2, p.toNat, 0)
    | .mask => (3, 0, 0)
  { typ := 0, op := b.cls, unit := sc.2.2, tag := b.tag,
    arg := BitVec.ofNat 26 (sc.1 * 2 ^ 24 + sc.2.1 * 2 ^ 18 + b.seq.toNat * 2 ^ 10),
    body := [BitVec.ofNat 64 b.instant, BitVec.ofNat 64 (b.claim.toNat * 2 ^ 32 + b.arg.toNat)] }

/-- The words of an operand: five for WADD320, the lowest first (R105). -/
def operandWords (op : Nat) (v : BitVec 320) : List W64 :=
  if op = 3 then (List.range 5).map fun i => (v >>> (64 * i)).setWidth 64 else [v.setWidth 64]

/-- COMBINE (R107). -/
def Reduced.pkt (r : Reduced) (op : Nat) (tag : Byte) : Pkt :=
  { typ := 1, op := op, tag := tag,
    arg := BitVec.ofNat 26 (r.count % 0x1000 * 2 ^ 14 + r.missing % 0x1000 * 4 + 2 * b2n r.wrap),
    body := operandWords op r.value }

/-- REG_RD and REG_WR of a word offset in the window. -/
def regPkt (u : UnitId) (tag : Byte) (write : Bool) (offset : BitVec 10) (data : W32) : Pkt :=
  { typ := if write then 3 else 2, unit := u, tag := tag, arg := offset.setWidth 26,
    body := if write then [data.setWidth 64] else [] }

/-- REG_RSP with its status (Table 4-9). -/
def rspPkt (u : UnitId) (tag : Byte) (status : Nat) (data : W32) : Pkt :=
  { typ := 4, op := status, unit := u, tag := tag, body := [data.setWidth 64] }

/-- NOTICE (R128). -/
def Notice.pkt (n : Notice) : Pkt := { typ := 5, op := n.kind, unit := n.unit, tag := n.tag, arg := n.arg, body := [n.body] }

/-- A unicast BULK_WR. -/
def bulkWrPkt (u : UnitId) (tag : Byte) (address : BitVec 17) (data : List W64) : Pkt :=
  { typ := 6, unit := u, tag := tag, arg := address.setWidth 26, body := data }

/-- A multicast BULK_WR, of which SCOPE and PARTITION name the agents; a list has no SCOPE (R117). -/
def mcastPkt (sc : Scope) (tag : Byte) (address : BitVec 17) (data : List W64) : Pkt :=
  let x : Nat × Nat × UnitId := match sc with
    | .chip => (0, 0, 0)
    | .half s => (1, 0, if s = .west then 0 else 0x8000)
    | .part p => (2, p.toNat, 0)
    | .mask => (3, 0, 0)
  { typ := 6, unit := x.2.2, tag := tag, body := data,
    arg := BitVec.ofNat 26 (2 ^ 25 + x.1 * 2 ^ 23 + x.2.1 * 2 ^ 17 + address.toNat) }

/-- BULK_RD of 1 to 32 words. -/
def bulkRdPkt (u : UnitId) (tag : Byte) (address : BitVec 17) (words : Nat) : Pkt :=
  { typ := 7, unit := u, tag := tag, arg := BitVec.ofNat 26 ((words - 1) % 32 * 2 ^ 17 + address.toNat) }

/-- BULK_DATA with its status. -/
def bulkDataPkt (u : UnitId) (tag : Byte) (status : Nat) (data : List W64) : Pkt :=
  { typ := 8, op := status, unit := u, tag := tag, body := data }

/-- ENUM. -/
def enumPkt (u : UnitId) (tag : Byte) : Pkt := { typ := 9, unit := u, tag := tag }

/-! ### The trestle (R84, R85) -/

/-- The half a link lies in; the Span lanes are reported for the active root's half (R92). -/
def Hub.linkHalf (h : Hub) (n : LinkName) : Half :=
  match n with
  | .agent o => if o < 978 then .west else .east
  | .bay s _ _ => s
  | .pier s _ => s
  | .side s _ _ => s
  | .span => h.red.holder

/-- Links of a half that are down now (Table 19-4). -/
def Hub.linksDown (h : Hub) (s : Half) : Nat := (h.dcn.links.filter fun l => h.linkHalf l.1 == s && !l.2.up).length

/-- A bay of the trestle that is present. -/
def bayExists (p b : Nat) : Bool := decide (p < 15 ∧ b < 4) || decide (p = 15 ∧ b < 2)

/-- A link that exists. -/
def linkExists (n : LinkName) : Bool :=
  match n with
  | .agent o => decide (o < agentCount)
  | .bay _ p b => bayExists p b
  | .pier _ p => decide (p < 16)
  | .side _ p b => bayExists p b && bayExists ((p + 1) % 16) b
  | .span => true

/-- The bay that carries a bay: its adopter (R115), or itself. -/
def Hub.adoptedBy (h : Hub) (s : Half) (p b : Nat) : Option Nat :=
  (h.dcn.adopted.find? fun a => a.1 == (s, p, b)).map (·.2)

/-- The way from an adopter to the bay it has adopted, and back. -/
def sideDown (s : Half) (q p b : Nat) : Way := if (q + 1) % 16 = p then (.side s q b, .down) else (.side s p b, .up)
def sideUp (s : Half) (q p b : Nat) : Way := if (q + 1) % 16 = p then (.side s q b, .up) else (.side s p b, .down)

/-- A side link carries an adopted bay (R85). -/
def Hub.sideUsed (h : Hub) (n : LinkName) : Bool :=
  match n with
  | .side s p b => h.adoptedBy s p b == some ((p + 1) % 16) || h.adoptedBy s ((p + 1) % 16) b == some p
  | _ => true

/-- The node or agent at the end of a way, and the one at its beginning. -/
def wayEnd (w : Way) : Child :=
  match w.1, w.2 with
  | .agent o, .down => .agent (unitOf o)
  | .agent o, .up => .node (.bay (halfOf (unitOf o)) (attachPier (unitOf o)) (attachBay (unitOf o)))
  | .bay s p b, .down => .node (.bay s p b)
  | .bay s p _, .up => .node (.pier s p)
  | .pier s p, .down => .node (.pier s p)
  | .pier s _, .up => .node (.root s)
  | .side s p b, .down => .node (.bay s ((p + 1) % 16) b)
  | .side s p b, .up => .node (.bay s p b)
  | .span, .down => .node (.root .east)
  | .span, .up => .node (.root .west)

def oppositeDir (d : Dir) : Dir := match d with | .down => .up | .up => .down
def wayBegin (w : Way) : Child := wayEnd (w.1, oppositeDir w.2)

/-- The Span lane out of a root. -/
def spanOut (s : Half) : Way := (.span, match s with | .west => .down | .east => .up)

/-- Agents under a bay, by ordinal. -/
def bayOrdinals (s : Half) (p b : Nat) : List Nat :=
  ((List.range 16).map fun i => 64 * p + 16 * b + i).filterMap fun o =>
    if o < 978 then some (978 * (match s with | .west => 0 | .east => 1) + o) else none

/-- Bays that a bay has adopted. -/
def Hub.adoptions (h : Hub) (s : Half) (q b : Nat) : List Nat :=
  h.dcn.adopted.filterMap fun a => if a.1.1 = s ∧ a.1.2.2 = b ∧ a.2 = q then some a.1.2.1 else none

/-- The ways down from a node, and from the active root over the Span, over links that are up. -/
def Hub.waysDown (h : Hub) (n : Node) : List Way :=
  let l : List Way := match n with
    | .root s => ((List.range 16).map fun p => (LinkName.pier s p, Dir.down)) ++ (if s = h.red.holder then [spanOut s] else [])
    | .pier s p => ((List.range 4).filter fun b => bayExists p b).map fun b => (.bay s p b, .down)
    | .bay s p b => ((bayOrdinals s p b).map fun o => (LinkName.agent o, Dir.down)) ++
        (h.adoptions s p b).map fun x => sideDown s p x b
  l.filter fun w => (h.link w.1).up

/-- The way up from a node toward the active root; none at that root. -/
def Hub.wayUp (h : Hub) (n : Node) : Option Way :=
  match n with
  | .root s => if s = h.red.holder then none else some (spanOut s)
  | .pier s p => some (.pier s p, .up)
  | .bay s p b => match h.adoptedBy s p b with
    | some q => some (sideUp s q p b)
    | none => some (.bay s p b, .up)

/-- The way down from a node toward a unit's agent. -/
def Hub.wayTo (h : Hub) (n : Node) (u : UnitId) : Option Way :=
  let s := halfOf u
  let p := attachPier u
  let b := attachBay u
  let q := (h.adoptedBy s p b).getD p
  match n with
  | .root t => some (if t = s then (.pier s q, .down) else spanOut t)
  | .pier t x => some (.bay t x b, .down)
  | .bay t x y => some (if x = p then (.agent (ordinalOf u), .down) else sideDown t x p y)

/-! ### How packets enter the network -/

/-- An agent, a node, or the hub at its root has a packet to send: its flits wait behind what it sends already. -/
def Hub.inject (h : Hub) (c : Child) (p : Pkt) : Hub :=
  let old := ((h.dcn.sources.find? fun s => s.1 == c).map (·.2)).getD []
  { h with dcn.sources := (h.dcn.sources.filter fun s => s.1 != c) ++ [(c, old ++ p.cells)] }

/-- The output stage of a root's injector (R357). -/
def rootStage (s : Half) : Nat := 1 + halfNat s

/-- The hub sends packets down from the active root, whose injector may refuse them (R357). -/
def Hub.injectAll (h : Hub) (ps : List Pkt) : Hub :=
  h.atStage (rootStage h.red.holder) fun h =>
  let c : Child := .node (.root h.red.holder)
  let old := ((h.dcn.sources.find? fun s => s.1 == c).map (·.2)).getD []
  { h with dcn.sources := (h.dcn.sources.filter fun s => s.1 != c) ++ [(c, old ++ ps.flatMap Pkt.cells)] }

def Hub.injectDown (h : Hub) (p : Pkt) : Hub := h.injectAll [p]

/-- A node's latch of a class is full. -/
def Hub.latched (h : Hub) (n : Node) (cls : Nat) : Bool := h.dcn.latches.any fun l => l.node == n && l.cls == cls

/-- The ways a broadcast leaves a node by: in a half that it does not address none but the Span (R98, log entry 142), SAFE
not over the Span, since each root issues its own (Table 13-7), and none to a retired unit (R30). -/
def Hub.bcastWays (h : Hub) (n : Node) (head : W64) : List Way :=
  let one := bits (headArg head).toNat 25 24 == 1
  let s := halfOf (headUnit head)
  (h.waysDown n).filter fun w => match n with
    | .root t => if w.1 = .span then headOp head != 7 && (!one || s != t) else !one || s == t
    | _ => match w.1 with | .agent o => !h.retired (unitOf o) | _ => true

/-- A broadcast goes into a node's latch, which is empty; with no way to leave by, it is emptied at once (R101). -/
def Hub.enterLatch (h : Hub) (l : Latch) : Hub :=
  match l.flits with
  | [] => h
  | c :: _ =>
    let ws := h.bcastWays l.node c.head
    if ws.isEmpty then h else { h with dcn.latches := h.dcn.latches ++ [{ l with left := ws.map fun w => (w, 0) }] }

/-- Broadcasts of a class that wait at a node. -/
def Hub.waitsAt (h : Hub) (n : Node) (cls : Nat) (l : Latch) : Bool := l.node == n && l.cls == cls && !h.latched n cls

/-- A broadcast reaches a node: it goes into the latch of its class only while that is empty, and waits otherwise, behind
one that waits already (R101). -/
def Hub.latch (h : Hub) (l : Latch) : Hub :=
  if h.latched l.node l.cls || (h.dcn.bcastWait.any fun x => x.node == l.node && x.cls == l.cls) then
    { h with dcn.bcastWait := h.dcn.bcastWait ++ [l] }
  else h.enterLatch l

/-- Broadcasts of a class that wait at a node enter its latch while it is empty, by fuel (R101). -/
def emptiedFuel (n : Node) (cls : Nat) : Nat → Hub → Hub
  | 0, h => h
  | f + 1, h =>
    match h.dcn.bcastWait.find? (h.waitsAt n cls) with
    | some l => emptiedFuel n cls f ({ h with dcn.bcastWait := h.dcn.bcastWait.erase l }.enterLatch l)
    | none => h

/-- A broadcast starts at a root, from its PT of issue on: in its latch, or behind one that still fills it
(R101, R102). -/
def Hub.startBcast (h : Hub) (root : Half) (cls startPt : Nat) (cells : List Cell) : Hub :=
  h.latch { node := .root root, cls := cls, flits := cells, left := [], startPt := startPt }

end Sys2Proof.Machine
end

