-- ==== Sys2Proof/Machine/Dcn.lean ====
section
/-! DEFINITION. The debug control network as the active root uses it: issuing broadcasts (R98 to R103),
opening and reducing combines (R105 to R111), TAGs (R97) and unicast access (R113). -/

namespace Sys2Proof.Machine

/-! ### Broadcasts -/

/-- The earliest PT at which the active root can start a broadcast of a class: 10 ns after the latest one,
150 ns after the latest of the class (R102), and with an Abutment that is ready (Table 6-12). -/
def Hub.issueAt (h : Hub) (cls : Nat) : Nat :=
  let a := match h.dcn.issued.getLast? with | some b => b.issuePt + 10 | none => 0
  let c := match (h.dcn.issued.filter fun b => b.cls == cls).getLast? with | some b => b.issuePt + 150 | none => 0
  max (max h.pt h.dcn.readyPt) (max a c)

/-! ### TAGs -/

/-- TAGs outstanding (R97): of accesses, of combines and multicasts, and of a broadcast until every agent holds it
(R104, log entry 95). -/
def Dcn.tagsOut (d : Dcn) (pt : Nat) : List Byte :=
  d.txns.map (·.tag) ++ d.combines.map (·.tag) ++ d.mcasts.map (·.tag) ++
    (d.issued.filter fun b => b.cls != 5 && !b.copy && decide (pt < b.issuePt + 120)).map (·.tag)

/-- The next free TAG from the running count, which starts at 0 and starts anew at a hub reset (log entry 96). One is
free: at most 16 combines, 12 broadcasts and `maxTxns` accesses are outstanding. -/
def Dcn.freeTag (d : Dcn) (pt : Nat) : Byte :=
  let i := (lowestFree ((d.tagsOut pt).map fun t => (t - d.nextTag).toNat) 256).getD 0
  d.nextTag + BitVec.ofNat 8 i

/-- Accesses outstanding at a time: the rest of the 256 TAGs is kept for combines and broadcasts (log entry 96). -/
def maxTxns : Nat := 224

/-! ### Issuing -/

/-- A broadcast leaves the active root, SAFE each powered root (R98, R101): it is kept for 10 us (R116). -/
def Hub.start (h : Hub) (b : Bcast) : Hub :=
  let keep := h.dcn.issued.filter fun x => decide (h.pt ≤ x.issuePt + 10000) || decide (h.pt ≤ x.instant + 5)
  ({ h with dcn := { h.dcn with issued := keep ++ [b], lastIssue := some b.issuePt } }.startBcast (b.root.getD h.red.holder) b.cls b.issuePt b.pkt.cells).emit (.bcast b)

/-- Issue a broadcast under a TAG: the class's SEQ advances by one (R103), INSTANT, CLAIM and argument travel with it
(R98), where the root's injector takes it (R357). -/
def Hub.issueTagged (h : Hub) (cls : Nat) (sc : Scope) (instant : Nat) (arg : W32) (tag : Byte) : Hub :=
  let seq := mapGet 0 h.dcn.seqs cls + 1
  let b : Bcast := { cls := cls, scope := sc, seq := seq, instant := instant, claim := h.red.claim,
                     arg := arg, tag := tag, issuePt := h.issueAt cls }
  h.atStage (rootStage h.red.holder) fun h =>
    { h with dcn := { h.dcn with seqs := mapSet 0 h.dcn.seqs cls seq, nextTag := tag + 1 } }.start b

/-- Issue a broadcast that is no COLLECT. -/
def Hub.issue (h : Hub) (cls : Nat) (sc : Scope) (instant : Nat) (arg : W32) : Hub :=
  h.issueTagged cls sc instant arg (h.dcn.freeTag h.pt)

/-- The broadcast issued last. -/
def Hub.lastBcast (h : Hub) : Option Bcast := h.dcn.issued.getLast?

/-- List scope: ARM_MASK bit `cls` and bit 5 in the listed agents, zero in every other (R148). -/
def Hub.writeMasks (h : Hub) (cls : Nat) (us : List UnitId) : Hub :=
  let m : Byte := BitVec.twoPow 8 cls ||| 0x20
  { h with agents := h.agents.map fun p =>
      if h.answers (unitOf p.1) then (p.1, { p.2 with armMask := if us.contains (unitOf p.1) then m else 0 })
      else p }

/-- Write ARM_MASK where the scope is a list. -/
def Hub.maskFor (h : Hub) (cls : Nat) (sc : Scope) (us : List UnitId) : Hub :=
  if sc = .mask then h.writeMasks cls us else h

/-! ### Combines -/

/-- Identity of an operator (Table 4-7). -/
def opIdentity (op : Nat) : BitVec 320 :=
  match op with
  | 0 => 0xFFFFFFFFFFFFFFFF
  | 5 => 0xFFFFFFFFFFFFFFFF
  | 6 => 0x8000000000000000
  | 7 => 0x7FFFFFFFFFFFFFFF
  | _ => 0

/-- A 64-bit result widened. -/
def widen (x : W64) : BitVec 320 := x.setWidth 320

/-- Reduce two operands (Table 4-7): the result, and whether an ADD carried out of bit 63. -/
def reduce (op : Nat) (x y : BitVec 320) : BitVec 320 × Bool :=
  let a : W64 := x.setWidth 64
  let b : W64 := y.setWidth 64
  match op with
  | 0 => (widen (a &&& b), false)
  | 1 => (widen (a ||| b), false)
  | 2 => (widen (a + b), decide (2 ^ 64 ≤ a.toNat + b.toNat))
  | 3 => (x + y, false)
  | 4 => (widen (if a.toNat < b.toNat then b else a), false)
  | 5 => (widen (if b.toNat < a.toNat then b else a), false)
  | 6 => (widen (if a.toInt < b.toInt then b else a), false)
  | _ => (widen (if b.toInt < a.toInt then b else a), false)

/-- Reduce two COMBINE bodies: COUNT and MISSING add, WRAP is ORed (R107). -/
def Reduced.join (op : Nat) (x y : Reduced) : Reduced :=
  let r := reduce op x.value y.value
  { value := r.1, count := x.count + y.count, missing := x.missing + y.missing,
    wrap := x.wrap || y.wrap || r.2, units := x.units ++ y.units }

/-- The identity with COUNT 0. -/
def Reduced.none (op : Nat) : Reduced := { value := opIdentity op }

/-- The node above a node: of an adopted bay its adopter (R115); none for the active root. -/
def Hub.parent (h : Hub) (n : Node) : Option Node :=
  match n with
  | .bay s p b =>
    match h.adoptedBy s p b with
    | some q => some (.bay s q b)
    | none => some (.pier s p)
  | .pier s _ => some (.root s)
  | .root s => if s = h.red.holder then none else some (.root h.red.holder)

/-- Units that are not Absent: those a node expects an answer from (R108, R110). -/
def Hub.notAbsent (h : Hub) : List UnitId := h.poweredUnits.filter fun u => !h.retired u

/-- Add an expected child with `n` agents under it to a node's slot. -/
def expectAt (op : Nat) (n : Node) (c : Child) (k : Nat) : List NodeSlot → List NodeSlot
  | [] => [{ node := n, acc := Reduced.none op, expected := [(c, k)] }]
  | s :: ss =>
    if s.node = n then
      (if s.expected.any fun e => e.1 == c then
        { s with expected := s.expected.map fun e => if e.1 = c then (e.1, e.2 + k) else e } :: ss
      else { s with expected := s.expected ++ [(c, k)] } :: ss)
    else s :: expectAt op n c k ss

/-- Expect `k` agents at every node above a node, by fuel: a path has at most five nodes. -/
def Hub.expectAbove (h : Hub) (op k : Nat) : Nat → Node → List NodeSlot → List NodeSlot
  | 0, _, ss => ss
  | f + 1, n, ss =>
    match h.parent n with
    | none => ss
    | some p => h.expectAbove op k f p (expectAt op p (.node n) k ss)

/-- Expect one agent at every node of its path. -/
def Hub.expectAgent (h : Hub) (op : Nat) (ss : List NodeSlot) (u : UnitId) : List NodeSlot :=
  let bay := Node.bay (halfOf u) (attachPier u) (attachBay u)
  h.expectAbove op 1 5 bay (expectAt op bay (.agent u) 1 ss)

/-- The nodes' slots for a combine in which some agents answer; a chip without them answers at once. -/
def Combine.opened (c : Combine) (slots : List NodeSlot) : Combine :=
  { c with slots := slots, result := if slots.isEmpty then some (Reduced.none c.op) else none }

/-- A combine begins: its TAG is taken. -/
def Hub.addCombine (h : Hub) (c : Combine) : Hub :=
  { h with dcn := { h.dcn with combines := h.dcn.combines ++ [c], nextTag := c.tag + 1,
                               ended := h.dcn.ended.filter fun x => x.tag != c.tag } }

/-- Issue a COLLECT with its combine: the operator, QUANTITY, scope, the instant of sampling and the nodes' timeout. -/
def Hub.openCollect (h : Hub) (r : CollectReq) : Hub :=
  let tag := h.dcn.freeTag h.pt
  let c : Combine :=
    { tag := tag, op := r.op, quantity := r.quantity, scope := r.scope, instant := r.instant, timeoutUs := r.timeoutUs,
      issuer := r.issuer, slots := [], ups := [], issuePt := h.issueAt 5, seq := mapGet 0 h.dcn.seqs 5 + 1 }
  (h.addCombine (c.opened (h.notAbsent.foldl (h.expectAgent r.op) []))).issueTagged 5 r.scope r.instant
    (BitVec.ofNat 32 (r.op + r.quantity * 0x10000)) tag

/-- The root refuses a reserved operator (R105). -/
def collectStatus (op : Nat) : Status := if op < 8 then .ok else .badArg

/-- A combiner's posting. -/
def Issuer.posts (i : Issuer) : Bool := match i with | .posting _ _ => true | _ => false

/-- A COLLECT that confirms a stop, a step or a freeze. -/
def Issuer.confirms (i : Issuer) : Bool :=
  match i with
  | .states | .valid | .gated | .shadows | .freeze | .probeFreeze => true
  | _ => false

/-- Combine slots in use by issuers of a kind. -/
def Hub.slotsHeld (h : Hub) (p : Issuer → Bool) : Nat := (h.dcn.combines.filter fun c => p c.issuer).length

/-- A slot is free for an issuer: the combiners hold at most 6 of a node's 16, and of the other 10 two are kept for
confirmations (R282, R439). -/
def Hub.collectRoom (h : Hub) (i : Issuer) : Bool :=
  if i.posts then decide (h.slotsHeld Issuer.posts < 6)
  else
    decide (h.slotsHeld (fun x => !x.posts) < 10) &&
      (i.confirms || decide (h.slotsHeld (fun x => !x.posts && !x.confirms) < 8))

/-- An agent's contribution to a combine, on its way to its bay (R108). -/
def Combine.answer (c : Combine) (u : UnitId) (body : Reduced) : Combine :=
  if c.answered.contains u then c else
  { c with answered := c.answered ++ [u],
           ups := c.ups ++ [{ node := .bay (halfOf u) (attachPier u) (attachBay u), child := .agent u, body := body }] }

/-- A multicast begins, with the ADD combine under its TAG (R117). -/
def Hub.beginMcast (h : Hub) (sc : Scope) (m : Mcast) : Hub :=
  let c : Combine :=
    { tag := m.tag, op := 2, quantity := 0, scope := sc, instant := 0, timeoutUs := h.dcn.timeoutM1.toNat + 1,
      issuer := .multicast, slots := [], ups := [], issuePt := h.pt }
  let h := h.addCombine (c.opened (m.addressed.foldl (h.expectAgent 2) []))
  { h with dcn := { h.dcn with mcasts := h.dcn.mcasts ++ [{ m with scope := sc }] } }

/-- Ask the root for a COLLECT: it is issued while a slot is free for it, and waits for one otherwise (R111, R439). -/
def Hub.collect (h : Hub) (op quantity : Nat) (sc : Scope) (instant timeoutUs : Nat) (i : Issuer) : Hub :=
  let r : CollectReq := { op := op, quantity := quantity, scope := sc, instant := instant, timeoutUs := timeoutUs, issuer := i }
  if collectStatus op ≠ .ok then h
  else if h.collectRoom i then h.openCollect r
  else { h with dcn.collects := h.dcn.collects ++ [r] }

/-- The node timeout in us as configured (R110). -/
def Dcn.timeoutUs (d : Dcn) : Nat := d.timeoutM1.toNat + 1

/-- A combine waits for an issuer. -/
def Hub.collecting (h : Hub) (i : Issuer) : Bool :=
  (h.dcn.combines.any fun c => c.issuer == i) || h.dcn.collects.any fun c => c.issuer == i

def Hub.combine (h : Hub) (tag : Byte) : Option Combine := h.dcn.combines.find? fun c => c.tag == tag

/-- The combine under a TAG, or one that has ended under it. -/
def Hub.combineOrEnded (h : Hub) (tag : Byte) : Option Combine :=
  (h.combine tag).orElse fun _ => h.dcn.ended.find? fun c => c.tag == tag

def Hub.setCombine (h : Hub) (c : Combine) : Hub :=
  { h with dcn := { h.dcn with combines := h.dcn.combines.map fun x => if x.tag = c.tag then c else x,
                               ended := h.dcn.ended.map fun x => if x.tag = c.tag then c else x } }

/-- The first COLLECT that waited and has a slot now is issued. -/
def Hub.nextCollect (h : Hub) : Hub :=
  match h.dcn.collects.find? fun r => h.collectRoom r.issuer with
  | some r => { h with dcn.collects := h.dcn.collects.erase r }.openCollect r
  | none => h

/-- End a combine: its slots and its TAG are free, and a COLLECT that waited goes out. What comes for it later is late
(R110); the latest 16 that ended are kept for that. -/
def Hub.endCombine (h : Hub) (tag : Byte) : Hub :=
  match h.combine tag with
  | none => h
  | some c =>
    let l := h.dcn.ended ++ [{ c with slots := [], result := none }]
    { h with dcn := { h.dcn with combines := h.dcn.combines.filter fun x => x.tag != tag, ended := l.drop (l.length - 16) } }.nextCollect

/-- After the last body flit an agent contributes to the multicast's combine: 1 where it took the data, 0 where it
refused (R117). -/
def Hub.contribute (h : Hub) (u : UnitId) (tag : Byte) (v : Nat) : Hub :=
  match h.combineOrEnded tag with
  | none => h
  | some c =>
    if c.answered.contains u then h else
    let body : Reduced := { value := BitVec.ofNat 320 v, count := 1 }
    (h.setCombine (c.answer u body)).inject (.agent u) (body.pkt 2 tag)

/-- A node's contributions reduced; the other root's result comes last (R110). -/
def NodeSlot.total (s : NodeSlot) (op : Nat) : Reduced :=
  match s.last with
  | some r => s.acc.join op r
  | none => s.acc

/-- A node sends its COMBINE (R107, R110): its slot is freed, and the packet goes to its parent, or is the active
root's result. -/
def Hub.sendUp (h : Hub) (c : Combine) (s : NodeSlot) (body : Reduced) : Hub :=
  let rest := c.slots.filter fun x => x.node != s.node
  match h.parent s.node with
  | some p =>
    (h.setCombine { c with slots := rest, ups := c.ups ++ [{ node := p, child := .node s.node, body := body }] }).inject
      (.node s.node) (body.pkt c.op c.tag)
  | none => h.setCombine { c with slots := rest, result := some body }

/-- The half a node lies in. -/
def nodeHalf (n : Node) : Half := match n with | .root s => s | .pier s _ => s | .bay s _ _ => s

def Dcn.half (d : Dcn) (s : Half) : DcnHalf := match s with | .west => d.west | .east => d.east
def Dcn.setHalf (d : Dcn) (s : Half) (x : DcnHalf) : Dcn :=
  match s with | .west => { d with west := x } | .east => { d with east := x }

/-! ### Unicast access (R113) -/

/-- The first packet of a command's access to a unit. -/
def requestPkt (u : UnitId) (i : Instr) : Pkt :=
  match i with
  | .regRead _ a _ => regPkt u 0 false (BitVec.ofNat 10 (a.toNat / 4)) 0
  | .regWrite _ a ws => regPkt u 0 true (BitVec.ofNat 10 (a.toNat / 4)) (ws.headD 0)
  | .inspectRead _ _ space off len =>
    if space = 0 then regPkt u 0 false (BitVec.ofNat 10 (off.toNat / 4)) 0
    else bulkRdPkt u 0 (BitVec.ofNat 17 (off.toNat / 8)) (max 1 (min 32 (len.toNat / 8)))
  | _ => regPkt u 0 false 1 0

/-- Send a request to an agent under a fresh TAG, for the `tries`-th time; with no TAG for it, it waits (R97). Nothing is
sent to a retired unit (R30). -/
def Hub.sendRequest (h : Hub) (tries : Nat) (p : Pkt) : Hub :=
  if maxTxns ≤ h.dcn.txns.length then { h with dcn.txnWait := h.dcn.txnWait ++ [(tries, p)] } else
  let tag := h.dcn.freeTag h.pt
  let q := { p with tag := tag }
  let t : Txn := { tag := tag, unit := p.unit, request := q, tries := tries, sentPt := h.pt }
  let h := { h with dcn := { h.dcn with txns := h.dcn.txns ++ [t], nextTag := tag + 1 } }
  if h.retired p.unit then h else h.injectDown q

/-- Requests that waited for a TAG go out as TAGs come free, by fuel. -/
def sendWaiting : Nat → Hub → Hub
  | 0, h => h
  | f + 1, h =>
    match h.dcn.txnWait with
    | p :: rest =>
      if maxTxns ≤ h.dcn.txns.length then h else sendWaiting f ({ h with dcn.txnWait := rest }.sendRequest p.1 p.2)
    | [] => h

/-- Transactions end, and their TAGs are free. -/
def Hub.dropTxns (h : Hub) (p : Txn → Bool) : Hub :=
  sendWaiting h.dcn.txnWait.length { h with dcn.txns := h.dcn.txns.filter fun t => !p t }

/-- What waits for a unit's answer is given up. -/
def Hub.dropAccess (h : Hub) (u : UnitId) : Hub :=
  { h with dcn.txnWait := h.dcn.txnWait.filter fun p => p.2.unit != u }.dropTxns fun t => t.unit == u

/-- The hub learns the STATE of an agent (R205). -/
def Hub.learnState (h : Hub) (u : UnitId) (s : AgState) : Hub :=
  { h with dcn.known := mapSet none h.dcn.known (ordinalOf u) (some s) }

/-- The hub holds the unit Present, and its agent does not answer. -/
def Hub.silent (h : Hub) (u : UnitId) : Bool := h.presence u == 0 && !h.answers u && !(h.agent u).powering

/-- Run an access to a unit's agent: at once where the agent answers; UNREACHABLE where the hub holds it
Absent or Unreachable (R426, Table 5-17); otherwise the command waits for the answer or ACCESS_TIMEOUT. -/
def Hub.withAgent (h : Hub) (code : Nat) (hdr : Hdr) (u : UnitId) (again : Instr) (run : Hub → Hub) : Hub :=
  if h.answers u then run h
  else if h.silent u then (h.occupy code hdr (.access u again)).sendRequest 1 (requestPkt u again)
  else h.answer code hdr .unreachable (unitsBody [u])

/-- Run a command that addresses several agents: at once where none of them is silent, otherwise once each of these
has answered or timed out (R113). -/
def Hub.withAgents (h : Hub) (code : Nat) (hdr : Hdr) (us : List UnitId) (again : Instr) (run : Hub → Hub) : Hub :=
  let l := us.filter h.silent
  if l.isEmpty then run h
  else l.foldl (fun h u => h.sendRequest 1 (requestPkt u again)) (h.occupy code hdr (.gather l again))

end Sys2Proof.Machine
end

