-- ==== Sys2Proof/Machine/TraceOps.lean ====
section
/-! DEFINITION. Marks and triggers as every part of the hub delivers them to the collectors (R218, R222,
R226), and the restart of the streams (R228). -/

namespace Sys2Proof.Machine

def Hub.collector (h : Hub) (c : Nat) : Collector := mapGet {} h.trace.collectors c
def Hub.setCollector (h : Hub) (c : Nat) (x : Collector) : Hub :=
  { h with trace.collectors := mapSet {} h.trace.collectors c x }

/-- The Source ID of collector `c` itself (R21). -/
def collectorSource (c : Nat) : SourceId := sourceOf (collectorUnit c) 0

/-- A Fix at its place in the stream, before its line is known. -/
def fixDueRec (reason : Nat) (pt : Nat) : Rec :=
  { typ := 5, source := 0, pt := pt, tag := 0, payload := BitVec.ofNat 40 (reason * 2 ^ 36) }

/-- A Mark (Table 9-3). -/
def MarkReq.record (m : MarkReq) (holder : Half) : Rec :=
  { typ := 7, source := sourceOf (abutmentUnit holder) 0, pt := m.instant, tag := m.value,
    payload := BitVec.ofNat 40 (m.origin.toNat * 2 ^ 36 + b2n m.trigger * 2 ^ 35 + m.program.toNat * 2 ^ 32 +
      m.markId.toNat) }

/-- A Closed (Table 9-3). -/
def Mirror.closedRec (m : Mirror) (s : SourceId) (reason pt : Nat) : Rec :=
  { typ := 8, source := s, pt := pt, tag := BitVec.ofNat 32 m.written,
    payload := BitVec.ofNat 40 (reason * 2 ^ 38 + sat32 m.drops) }

/-- A source's record. -/
def Rec.ofSource (r : Rec) : Bool := decide (r.typ.toNat ≤ 4)

/-- The records of sources that the collector holds but never writes do not count as written (Table 9-3 RECORDS). -/
def Collector.unwrite (c : Collector) : Collector :=
  let less (m : SMap Mirror) (r : Rec) : SMap Mirror := mapMod {} m r.source.toNat fun x => { x with written := x.written - 1 }
  { c with mirrors := ((c.intake ++ c.line).filter Rec.ofSource).foldl less c.mirrors }

/-- A Gap (Table 9-3). -/
def Gap.record (g : Gap) (c : Nat) : Rec :=
  { typ := 6, source := collectorSource c, pt := g.lastPt, tag := BitVec.ofNat 32 (sat32 g.dropped),
    payload := BitVec.ofNat 40 (g.cause.toNat * 2 ^ 38 + min (2 ^ 38 - 1) (g.lastPt - g.firstPt)) }

/-- A gap ends: a Gap, then a Fix with REASON 1 (R235). -/
def Collector.endGap (c : Collector) (i : Nat) : Collector :=
  match c.gap with
  | none => c
  | some g => { c with gap := none, intake := c.intake ++ [g.record i, fixDueRec 1 g.lastPt] }

/-- All collectors, 16 of each half (R216). -/
def collectorNumbers : List Nat := List.range 32

/-- Apply a change to every collector. -/
def Hub.allCollectors (h : Hub) (f : Collector → Collector) : Hub :=
  collectorNumbers.foldl (fun h c => h.setCollector c (f (h.collector c))) h

/-- Deliver a Mark for an instant to every collector that is not frozen; it is the next Mark since AO
power-on (R218). While its collector domain is off a stream does not exist, and nothing is written to it (R304). -/
def Hub.mark (h : Hub) (instant : Nat) (value : W32) (origin : BitVec 4) (program : BitVec 3) (trigger : Bool) :
    Hub :=
  let id := h.trace.markId + 1
  let m : MarkReq := { instant := instant, value := value, origin := origin, trigger := trigger,
                       program := program, markId := id }
  let take (h : Hub) (i : Nat) : Hub :=
    let c := h.collector i
    if c.frozen || c.safeHalt || !h.domainOn (6 + i / 16) then h
    else h.atStage (collectorStage i) fun h => h.setCollector i { c with marks := c.marks ++ [m] }
  let l := (h.trace.marked.filter fun x => decide (h.pt ≤ x.1 + 5)) ++ [(instant, trigger)]
  collectorNumbers.foldl take { h with trace.markId := id, trace.marked := l }

/-- A trigger would act: the region is in Keep-after-trigger mode and no trigger has acted since the restart
(R226, Table 12-5). -/
def Trace.triggerActs (t : Trace) : Bool := t.isSet && t.mode == 2 && !t.triggerTaken

/-- A trigger that acts. -/
def Hub.triggerNow (h : Hub) (tt : Nat) (value : W32) (origin : BitVec 4) (program : BitVec 3) : Hub :=
  { h with trace.triggerTaken := true }.mark tt value origin program true

/-- A trigger that does not act is counted (R226). -/
def Hub.triggerIgnored (h : Hub) : Hub := { h with trace.ignored := sat32 (h.trace.ignored + 1) }

/-- A trigger without a Mark of its own where it does not act: TRACE_TRIGGER and a hang declaration (log entry 15). -/
def Hub.trigger (h : Hub) (tt : Nat) (value : W32) (origin : BitVec 4) (program : BitVec 3) : Hub :=
  if h.trace.triggerActs then h.triggerNow tt value origin program else h.triggerIgnored

/-- A trigger that places a Mark with TRIGGER 0 where it does not act: a probe ACT and POD_TRIG_IN (Tables
12-5 and 19-6). -/
def Hub.triggerOrMark (h : Hub) (tt : Nat) (value : W32) (origin : BitVec 4) (program : BitVec 3) : Hub :=
  if h.trace.triggerActs then h.triggerNow tt value origin program
  else h.triggerIgnored.mark tt value origin program false

/-- Restart a collector's stream; its sources' settings and its WAKE_LEVEL stay (R228, R230). -/
def Collector.restart (c : Collector) : Collector :=
  { wakeLevel := c.wakeLevel, taps := c.taps,
    mirrors := c.unwrite.mirrors.map fun m => (m.1, { m.2 with drops := 0 }) }

/-- Restart every stream (R228). -/
def Hub.restartStreams (h : Hub) : Hub :=
  { h with trace := { h.trace with triggerTaken := false, ignored := 0, marked := [] } }.allCollectors Collector.restart

/-- The active controller restarts every stream, through the collectors' configuration ports (R228, R357). -/
def Hub.restartByCommand (h : Hub) : Hub :=
  collectorNumbers.foldl (fun (h : Hub) i => h.atStage (collectorStage i) fun h => h.setCollector i (h.collector i).restart)
    { h with trace := { h.trace with triggerTaken := false, ignored := 0, marked := [] } }

end Sys2Proof.Machine
end

