-- ==== Sys2Proof/Machine/Stops.lean ====
section
/-! DEFINITION. Declaring a hang (R144, R146) and issuing a stop (R147 to R150, R162, R163), as HANG_STOP,
reactions, POD_STOP, probe programs and bench triggers use them. -/

namespace Sys2Proof.Machine

/-! ### Hangs -/

/-- Add an entry to the hang log; a seventeenth drops the oldest and counts (R146). -/
def Stops.logEntry (s : Stops) (e : HangEntry) : Stops :=
  if s.log.length < 16 then { s with log := s.log ++ [e] }
  else { s with log := s.log.drop 1 ++ [e], lost := sat16 (s.lost + 1) }

/-- Declare a hang (R144): the next HANG_ID, a log entry, and the trigger of R226 where TRIGGER_ON_HANG is
set. -/
def Hub.declareHang (h : Hub) (cause : Byte) (unit : UnitId) (engine : Byte) (data session : W32) : Hub :=
  let id := h.stops.hangId + 1
  let e : HangEntry := { pt := h.pt, hangId := id, unit := unit, engine := engine, cause := cause,
                         data := data, session := session }
  let h := { h with stops := { h.stops.logEntry e with declared := true, hangId := id } }
  if h.trace.onHang then
    let v := Config.hangMarkValue h.free
    h.drawFree.trigger (h.pt + 1000) v 3 0
  else h

/-- The newest log entry takes the STOP_ID of the first stop issued while it is the newest (Table 6-2). -/
def Stops.stamp (s : Stops) (id : W32) : Stops :=
  match s.log.getLast? with
  | some e => if e.stopId = 0 then { s with log := s.log.dropLast ++ [{ e with stopId := id }] } else s
  | none => s

/-! ### Stops -/

/-- The lead of a stop, a step or a resume (R147, R171, R181): from I + 200 ns to I + 30 us, 0 meaning the
earliest. -/
def leadInstant (i lo hi t : Nat) : Option Nat :=
  if t = 0 then some (i + lo) else if i + lo ≤ t ∧ t ≤ i + hi then some t else none

/-- CAUSE in the STOP's class argument (Table 6-3). -/
def Stops.causeCode (s : Stops) : Nat :=
  if s.declared then ((s.log.getLast?).map fun e => e.cause.toNat).getD 0 else 0

/-- The STOP class argument (Table 6-3). -/
def stopArg (late pod : Bool) (cause : Nat) (id : W32) : W32 :=
  BitVec.ofNat 32 (id.toNat % 0x10000 + cause % 8 * 0x10000 + b2n pod * 0x80000 + b2n late * 0x100000)

/-- POD_OUTCOME of a pod-wide stop (Tables 6-10 and 8-3): the first condition that applies. -/
def Hub.podOutcomeNow (h : Hub) (late : Bool) : Nat :=
  if !h.ident.assigned then 5 else if late then 4 else if h.unsighted then 3 else if h.sight.deep then 2 else 1

/-- Issue a STOP broadcast for instant `t` (R149): the next STOP_ID, and the record of the newest stop. Work discarded
under a stop that still stands stays discarded (R181). -/
def Hub.issueStop (h : Hub) (t : Nat) (sc : Scope) (us : List UnitId) (pod late : Bool) (initiator : W16) : Hub :=
  let id := h.stops.stopId + 1
  let cause := h.stops.causeCode
  let h := h.maskFor 0 sc us
  let h := h.issue 0 sc t (stopArg late pod cause id)
  let seq := mapGet 0 h.dcn.seqs 0
  let n : StopInfo :=
    { stopId := id, t := t, scope := sc, units := us, pod := pod, late := late,
      cause := BitVec.ofNat 3 cause, claim := h.red.claim, seq := seq, initiator := initiator,
      discarded := !h.stops.standing.isEmpty && (h.stops.newest.map fun (x : StopInfo) => x.discarded).getD false }
  let s := h.stops.stamp id
  { h with stops := { s with stopId := id, newest := some n, standing := s.standing ++ [(t, sc, us)],
                             podOutcome := if pod then h.podOutcomeNow late else 0 } }

/-- PT at which the next STOP can leave the root. -/
def Hub.stopIssueAt (h : Hub) : Nat := h.issueAt 0

/-- A chip-scope stop without a command (R150, Table 19-6): T as wanted, moved to I + 200 ns where the
broadcast cannot leave in time. It is confirmed without a reply. -/
def Hub.stopWithoutReply (h : Hub) (t : Nat) : Hub :=
  let t := max t (h.stopIssueAt + 200)
  let h := h.issueStop t .chip [] false false 0
  { h with stops.confirming := true }

/-- Every agent that is not Absent is Stopping, Stopped or Stepping, and there is one. -/
def Hub.chipStopped (h : Hub) : Bool :=
  !h.notAbsent.isEmpty && h.notAbsent.all fun u => (h.agent u).state != .running

/-- The octets of a POD_STOP (Table 6-9). -/
def podStopBytes (m : PodStopMsg) : List Byte :=
  le 2 m.initiator.toNat ++ [m.hops, BitVec.ofNat 8 (b2n m.test)] ++ le 4 m.stopId.toNat ++ le 8 m.t.toNat

/-- Send a control-class message on every scale-out link that is up, but one; nothing while Assigned is 0
(R23, R57). -/
def Hub.ctlAll (h : Hub) (skip : Option Nat) (typ : Byte) (payload : List Byte) : Hub :=
  if !h.ident.assigned then h else
  (List.range 16).foldl (fun h l =>
    if h.ctl.links.getLsbD l && skip != some l then h.emit (.ctl l typ payload) else h) h

end Sys2Proof.Machine
end

