-- ==== Sys2Proof/Machine/FaultCore.lean ====
section
/-! DEFINITION. The fault collector (R307 to R330): the source catalogue, how an event is disposed of,
records and history, reactions, the safe state and taint notices. -/

namespace Sys2Proof.Machine

/-! ### Source catalogue (Table 13-1) -/

/-- One row of the catalogue. -/
structure SourceRow where
  dataPath : Bool := false
  fixed : Bool := false
  allowed : List Nat := [0, 1, 4]
  n : Nat := 1
  wexp : Nat := 30
  reaction : Nat := 1
  taint : Bool := false
  deriving DecidableEq, Repr

/-- The catalogue's row of a source; none for a reserved number. -/
def sourceRow (s : Nat) : Option SourceRow :=
  if s < agentCount then
    (if unitCore (unitOf s) then
      some { dataPath := true, allowed := [0, 1, 2, 4], n := 2, wexp := 40, reaction := 2, taint := true }
    else some { dataPath := true, n := 2, wexp := 40, taint := true })
  else if 0x800 ≤ s ∧ s < 0x800 + agentCount then
    some { allowed := [0, 1, 3, 4], reaction := if unitCore (unitOf (s - 0x800)) then 3 else 1 }
  else if s = 0xFA4 then some { n := 4 }
  else if s = 0xFA5 then some { fixed := true, allowed := [4], wexp := 10, reaction := 4, taint := true }
  else if 0xFA6 ≤ s ∧ s ≤ 0xFB8 then some { n := 4 }
  else if 0xFB9 ≤ s ∧ s ≤ 0xFBC then some {}
  else if s = 0xFBD ∨ s = 0xFBE then some { fixed := true, allowed := [4], wexp := 10, reaction := 4 }
  else if 0xFBF ≤ s ∧ s ≤ 0xFC1 then some {}
  else if s = 0xFC2 ∨ s = 0xFC3 then some { n := 16, wexp := 20 }
  else if 0xFC4 ≤ s ∧ s ≤ 0xFCA then some {}
  else if 0xFCB ≤ s ∧ s ≤ 0xFD2 then some { allowed := [0, 1, 3, 4] }
  else if s = 0xFD3 then some { n := 16 }
  else if s = 0xFD4 then some {}
  else if 0xFD5 ≤ s ∧ s ≤ 0xFE4 then some { dataPath := true, n := 16 }
  else if s = 0xFE5 ∨ s = 0xFE6 then some { dataPath := true, n := 16, wexp := 20 }
  else if 0xFE7 ≤ s ∧ s ≤ 0xFE9 then some {}
  else none

/-- FC_CFG's word (Table 13-9). -/
def cfgWord (nM1 wexp reaction : Nat) (taint : Bool) : W32 :=
  BitVec.ofNat 32 (nM1 % 16 + wexp % 64 * 16 + reaction % 8 * 1024 + b2n taint * 8192)

def SourceRow.word (r : SourceRow) : W32 := cfgWord (r.n - 1) r.wexp r.reaction r.taint

/-- FC_CFG of a source as it reads: zero for a reserved number; of a fixed source only TAINT can change. -/
def Fc.cfg (f : Fc) (s : Nat) : W32 :=
  match sourceRow s with
  | none => 0
  | some r =>
    let w := ((mapGet {} f.sources s).cfg).getD r.word
    if r.fixed then cfgWord 0 10 4 (w.getLsbD 13) else w &&& 0x3FFF

/-- N of a configuration word. -/
def cfgN (w : W32) : Nat := bits w.toNat 3 0 + 1
/-- WEXP, values below 10 acting as 10 and above 42 as 42. -/
def cfgWexp (w : W32) : Nat := min 42 (max 10 (bits w.toNat 9 4))
/-- The reaction performed: notify in place of one that is not allowed (R310). -/
def cfgReaction (r : SourceRow) (w : W32) : Nat :=
  let x := bits w.toNat 12 10
  if r.allowed.contains x then x else 1
def cfgTaint (w : W32) : Bool := w.getLsbD 13

def Fc.source (f : Fc) (s : Nat) : FcSource := mapGet {} f.sources s
def Fc.setSource (f : Fc) (s : Nat) (x : FcSource) : Fc := { f with sources := mapSet {} f.sources s x }

/-! ### Epochs (R328) -/

/-- The epoch in force at a PT, and whether the PT precedes the oldest epoch held. -/
def Fc.epochAt (f : Fc) (pt : Nat) : W32 × Bool :=
  if f.epochPt ≤ pt ∨ !f.hasPrev then (f.epoch, false)
  else (f.epochPrev, decide (pt < f.epochPrevPt))

/-! ### Records (R313 to R317) -/

/-- All records held, the one of the safe state with them, in RECORD_SEQ order. -/
def Fc.all (f : Fc) : List FaultRec :=
  let l := f.records
  match f.safeRecord with
  | none => l
  | some r => (l.filter fun x => decide (x.seq.toNat < r.seq.toNat)) ++ [r] ++
      (l.filter fun x => decide (r.seq.toNat < x.seq.toNat))

def Fc.unread (f : Fc) : List FaultRec := f.all.filter fun r => !r.read

/-- The highest performed reaction among unread records (R315). -/
def Fc.highest (f : Fc) : Nat := maxOf (f.unread.map (·.performed))

/-- The value an IBI carries: FAULT_SUMMARY [18:16] and SAFE (R48). -/
def Hub.ibiByte (h : Hub) : Byte := BitVec.ofNat 8 (h.fc.highest % 8 + 8 * b2n h.fc.safe)

/-- A change of the pending reaction or of SAFE raises an IBI where target interrupts are enabled; a later change
replaces the byte that waits (R48). -/
def Hub.noteIbi (h : Hub) : Hub :=
  if h.ibiByte = h.i3c.ibiSeen then h else
  { h with i3c := { h.i3c with ibiSeen := h.ibiByte, ibi := if h.i3c.ibiEnabled then some h.ibiByte else h.i3c.ibi } }

/-- Change a record by its RECORD_SEQ. -/
def Fc.modRec (f : Fc) (seq : W32) (g : FaultRec → FaultRec) : Fc :=
  { f with records := f.records.map fun r => if r.seq = seq then g r else r,
           safeRecord := f.safeRecord.map fun r => if r.seq = seq then g r else r }

/-- The oldest Handling record. -/
def Fc.oldestHandling (f : Fc) : Option FaultRec := f.all.find? fun r => r.handling

/-- A slot for a new record: a free one, else that of the oldest read record (R313). -/
def Fc.slotFor (f : Fc) : Option (Nat × List FaultRec) :=
  match lowestFree (f.records.map (·.slot)) 64 with
  | some i => some (i, f.records)
  | none =>
    match f.records.find? fun r => r.read with
    | some r => some (r.slot, f.records.filter fun x => x.seq != r.seq)
    | none => none

/-- Capture the history as a record opens, where none is held and no unread record exists (R317). -/
def Fc.capture (f : Fc) (pt : Nat) (seq : W32) : Fc × Bool :=
  if f.unread.isEmpty && !f.historyValid then
    ({ f with history := some { recordSeq := seq, capturePt := pt, entries := f.log }, historyValid := true }, true)
  else (f, false)

/-- The record a Severe event opens (Table 13-3), but its slot and number. -/
structure NewRec where
  source : Nat
  unit : UnitId
  configured : Nat
  performed : Nat
  n : Nat
  wexp : Nat
  data : W32
  firstPt : Nat
  severePt : Nat
  originPt : Nat

def NewRec.at (x : NewRec) (slot : Nat) (seq : W32) (history : Bool) (epoch : W32) : FaultRec :=
  { slot := slot, seq := seq, source := x.source, unit := x.unit, configured := x.configured,
    performed := x.performed, history := history, n := x.n, wexp := x.wexp, data := x.data,
    firstPt := x.firstPt, severePt := x.severePt, originPt := x.originPt, epoch := epoch }

/-- Open a record; none where no slot is to be had, which FC_LOST counts (R313). -/
def Fc.openRec (f : Fc) (x : NewRec) : Fc × Option W32 :=
  let seq := f.nextSeq
  let e := (f.epochAt (if x.originPt = 0 then x.severePt else x.originPt)).1
  if x.performed = 4 then
    let c := f.capture x.severePt seq
    ({ c.1 with nextSeq := seq + 1, safeRecord := some (x.at 64 seq c.2 e) }, some seq)
  else
    match f.slotFor with
    | none => ({ f with lostRecords := sat32 (f.lostRecords + 1) }, none)
    | some (slot, rest) =>
      let c := f.capture x.severePt seq
      ({ c.1 with nextSeq := seq + 1, records := rest ++ [x.at slot seq c.2 e] }, some seq)

/-- Handling of a record ends (R318). -/
def Fc.endHandling (f : Fc) (pt : Nat) (seq : W32) : Fc :=
  f.modRec seq fun r => if r.handling then { r with handling := false, done := true, donePt := pt } else r

/-! ### Taint notices (R328 to R330) -/

/-- Join a later decision into a notice: the earliest PT, the later epoch, MERGED (R23, R330). -/
def Taint.join (a b : Taint) : Taint :=
  { a with earliest := min a.earliest b.earliest, merged := true,
           epoch := if laterThan 32 b.epoch.toNat a.epoch.toNat then b.epoch else a.epoch,
           epochStale := a.epochStale || b.epochStale }

/-- Hold a notice: at most 16, a later one merged into the sixteenth (R23). -/
def Fc.hold (f : Fc) (t : Taint) : Fc :=
  let t := { t with held := true }
  if f.heldTaints.length < 16 then { f with heldTaints := f.heldTaints ++ [t] }
  else
    match f.heldTaints.getLast? with
    | some l => { f with heldTaints := f.heldTaints.dropLast ++ [l.join t] }
    | none => { f with heldTaints := [t] }

/-- Notices can be sent: a destination is set and Assigned is 1 (R330). -/
def Hub.taintFree (h : Hub) : Bool := h.ident.assigned && !h.fc.dests.isEmpty

/-- Decide a notice: it is held, joins a pending one of its source, or becomes pending (R330). -/
def Hub.decideTaint (h : Hub) (t : Taint) : Hub :=
  if !h.taintFree then { h with fc := h.fc.hold t }
  else if h.fc.taints.any fun x => x.source == t.source then
    { h with fc.taints := h.fc.taints.map fun x => if x.source = t.source then x.join t else x }
  else { h with fc.taints := h.fc.taints ++ [t] }

/-- The notice of an event (R328). -/
def Hub.eventTaint (h : Hub) (s : Nat) (unit : UnitId) (origin : Option Nat) : Hub :=
  let e := origin.getD h.pt
  let ep := h.fc.epochAt e
  h.decideTaint { origin := 1, epochStale := ep.2, merged := false, held := false, epoch := ep.1,
                  earliest := e, source := s, unit := unit, decidedPt := h.pt }

/-- A digest-mismatch event of a HEALTH source, which REPLAY's own notice covers (R328). -/
def digestMismatch (s : Nat) (data : W32) : Bool := decide (s < agentCount) && bits data.toNat 31 24 == 0xD1

/-! ### Discard of work in flight (R319) -/

/-- The request to the command front end (Table 2-9). -/
def Hub.feRequest (h : Hub) (r : FeRequest) (us : List UnitId) : Hub :=
  let q : FeReq := { req := r, units := us, sentPt := h.pt }
  { h with fe.requests := h.fe.requests ++ [q] }.emit (.frontEnd q)

/-- Request REISSUE of a captured descriptor on an engine, with its output to a scratch address. -/
def Hub.feReissue (h : Hub) (u : UnitId) (engine scratch : Nat) (descriptor : List Byte) : Hub :=
  let q : FeReq := { req := .reissue, units := [u], sentPt := h.pt, engine := engine, scratch := scratch, descriptor := descriptor }
  { h with fe.requests := h.fe.requests ++ [q] }.emit (.frontEnd q)

/-- The front end's units: class 7 indexes 18 and 19 of each half. -/
def frontEndUnits : List UnitId := [0x7012, 0x7013, 0xF012, 0xF013]

/-- The command front end is stopped (R319). -/
def Hub.frontEndStopped (h : Hub) : Bool :=
  frontEndUnits.any fun u => (h.agent u).state != .running || ((h.agent u).armedAt 0).isSome

/-- Request DROP_INFLIGHT with chip scope; the count in its answer goes to the record of the reaction that asks. -/
def Hub.requestDrop (h : Hub) (record : Option W32) : Hub :=
  let q : FeReq := { req := .dropInflight, units := [], sentPt := h.pt, record := record }
  { h with fe.requests := h.fe.requests ++ [q] }.emit (.frontEnd q)

/-- The units that an executing RUN_PATTERNS has quiesced: RESUME is requested for them as it ends (R343). -/
def Hub.quiescedUnits (h : Hub) : List UnitId :=
  match h.slot with
  | some ⟨_, _, _, _, .patterns r, _, _, _, _, _, _, _, _⟩ => if r.finishing then [] else r.quiesced
  | _ => []

/-- A command whose reply still waits for room in the JTAG reply buffer ends with SAFE_STATE or DISCARDED: packets of its
reply that have not begun to leave are dropped, and that answer is its last packet; where the last one has begun, it
stands (R319, R375, R383). -/
def Hub.discardWaiting (h : Hub) (reaction : Nat) : Hub :=
  let own := h.tap.txWait.filter (·.own)
  match h.tap.waitFor with
  | none => h
  | some (session, sequence, opcode) =>
    if own.length = 1 ∧ own.all (·.begun) = true then h
    else
      { h with tap.txWait := h.tap.txWait.filter fun p => !p.own || p.begun }.send .jtag
        { more := false, opcode := opcode, sequence := sequence, session := session,
          status := if reaction = 4 then .safeState else .discarded,
          payload := if reaction = 4 then [] else le 2 sequence.toNat ++ le 2 opcode.toNat }

/-- The executing command ends: with SAFE_STATE, or DISCARDED (R319, R326). -/
def Hub.discardSlot (h : Hub) (reaction : Nat) : Hub :=
  match h.slot with
  | none => h.discardWaiting reaction
  | some e =>
    if reaction = 4 then h.conclude .safeState []
    else
      let us := h.quiescedUnits
      let h := h.conclude .discarded (le 2 e.hdr.sequence.toNat ++ le 2 e.opcode.toNat)
      if us.isEmpty then h else h.feRequest .resume us

/-- All work in flight is discarded: the executing command ends, and the chip-scope drop is requested or
left pending (R319). A pending drop of a retirement leaves the work as it is (R181, R320). -/
def Hub.discardWork (h : Hub) (reaction : Nat) (record : Option W32) : Hub :=
  let h := h.discardSlot reaction
  let wait := reaction = 3 ∨ h.frontEndStopped
  let h := if reaction = 2 ∧ wait then h
           else { h with stops.newest := h.stops.newest.map fun (n : StopInfo) => { n with discarded := true } }
  if wait then { h with fc.pendingDrops := h.fc.pendingDrops ++ [record] } else h.requestDrop record

/-! ### Retirement (R320) -/

/-- Insert into a strictly rising list. -/
def insertNat (n : Nat) : List Nat → List Nat
  | [] => [n]
  | m :: l => if n < m then n :: m :: l else if n = m then m :: l else m :: insertNat n l

/-- Set a unit's bit in the retired-unit map; each change counts once (R28). -/
def Ident.retire (i : Ident) (o : Nat) : Ident :=
  if i.retired.contains o then i else { i with retired := insertNat o i.retired, retiredGen := i.retiredGen + 1 }

/-- The steps of a retirement: the map bit, no new traffic, the drop on the unit, and its power (R320,
Table 5-17). -/
def Hub.retireNow (h : Hub) (u : UnitId) : Hub :=
  let h := { h with ident := h.ident.retire (ordinalOf u) }
  (h.feRequest .dropInflight [u]).emit (.unitPower u false)

/-- The unit can be retired (Table 1-1). -/
def retirable (u : UnitId) : Bool := unitHasAgent u && unitCore u

/-- Retire a unit for a record, or for UNIT_RETIRE: at once; pending under a stop; or nothing where the unit
is Absent, or is of a class that cannot be retired (R28, log entry 89). -/
def Hub.retire (h : Hub) (u : UnitId) (record : Option W32) : Hub :=
  if !retirable u || decide (h.presence u = 1 ∨ h.presence u = 2) then
    match record with
    | some s => { h with fc := h.fc.endHandling h.pt s }
    | none => h
  else if (h.agent u).state = .stopped then
    let h := { h with fc.pendingRetire := h.fc.pendingRetire ++ [u] }
    match record with
    | some s => { h with fc := h.fc.modRec s fun r => { r with pendingRet := true } }
    | none => h
  else h.retireNow u

/-! ### Reaction windows (R321) -/

/-- RX_WINDOW in ns, values below 10 us acting as 10 and above 1,000 as 1,000 (Table 13-9). -/
def Fc.windowNs (f : Fc) : Nat := 1000 * min 1000 (max 10 f.rxWindowUs.toNat)

/-- A window opens for a record, or for UNIT_RETIRE; a reaction without a record opens none (log entry 110). -/
def Fc.openWindow (f : Fc) (pt : Nat) (record : Option W32) (u : UnitId) (hangStop : Bool) : Fc :=
  { f with windows := f.windows ++
      [{ record := record, unit := u, hangStop := hangStop, openPt := pt, lengthNs := f.windowNs }] }

/-- A source in the blast set of a window (Table 13-5). -/
def Window.holds (w : Window) (s : Nat) : Bool :=
  let hang := decide (0x800 ≤ s) && decide (s < 0x800 + agentCount)
  let k := unitHalf w.unit
  if w.hangStop then hang || (decide (0xFCB ≤ s) && decide (s ≤ 0xFD2)) || s == 0xFC1
  else hang || s == ordinalOf w.unit || s == 0xFC2 + k || s == 0xFC4 + k || s == 0xFE5 + k || s == 0xFC1

/-- The newest open window that holds a source. -/
def Fc.windowFor (f : Fc) (pt s : Nat) : Option Window :=
  (f.windows.filter fun w => decide (pt < w.openPt + w.lengthNs) && w.holds s).getLast?

/-! ### Safe state (R323 to R325) -/

/-- A collector halts: intake and partly filled line are discarded (Table 9-11). -/
def Collector.halt (c : Collector) : Collector :=
  { c.unwrite with safeHalt := true, intake := [], line := [], gap := none, marks := [] }

/-- Every probe slot that runs stops with an error, and the action queue is discarded (Table 12-6). -/
def Probe.stopAll (p : Probe) (error : Nat) : Probe :=
  { slots := p.slots.map fun x =>
      match x.2.state with
      | .running | .evaluating | .waiting =>
        (x.1, { x.2 with state := .stopped, error := error, waitPt := none, waitReg := none })
      | _ => x,
    queue := [] }

/-- The claim that a DCN root holds (R357); zero while it holds none. -/
def Red.rootClaim (r : Red) (s : Half) : W32 := ((mapGet none r.stages (1 + halfNat s)).map (·.1)).getD 0

/-- Each powered DCN root issues one SAFE broadcast on its own trestle, with SCOPE 0, INSTANT 0 and the claim that the root
holds (Table 13-7); the two have one SEQ and one TAG (log entry 150). -/
def Hub.issueSafe (h : Hub) : Hub :=
  let roots := [Half.west, Half.east].filter h.dcnOn
  if roots.isEmpty then h else
  let seq := mapGet 0 h.dcn.seqs 7 + 1
  let tag := h.dcn.freeTag h.pt
  let at_ := h.issueAt 7
  let h := { h with dcn := { h.dcn with seqs := mapSet 0 h.dcn.seqs 7 seq, nextTag := tag + 1 } }
  roots.foldl (fun (h : Hub) s =>
    (h.start { cls := 7, scope := .chip, seq := seq, instant := 0, claim := h.red.rootClaim s, arg := 0, tag := tag,
               issuePt := at_, root := some s }).emit (.safeBcast s (h.red.rootClaim s))) h

/-- A retirement that is Handling stops at the step reached (Table 13-10). -/
def FaultRec.halt (r : FaultRec) : FaultRec := if r.handling && r.performed == 2 then { r with halted := true } else r

/-- Retirements stop as the safe state is entered: a record's pending one does not proceed any more. -/
def Fc.haltRetirements (f : Fc) : Fc :=
  let stopped := (f.records.filter fun r => r.handling && r.performed == 2).map fun r => r.unit
  { f with records := f.records.map FaultRec.halt, pendingRetire := f.pendingRetire.filter fun u => !stopped.contains u }

/-- Enter the safe state (Table 13-7). -/
def Hub.enterSafe (h : Hub) (record : Option W32) : Hub :=
  if h.fc.safe then h else
  let h := h.issueSafe.wakeWork
  let h := { h with fc := { h.fc.haltRetirements with safe := true, safePt := h.pt } }
  let h := h.allCollectors Collector.halt
  let h := { h with probe := h.probe.stopAll 2,
                    soundings := h.soundings.map fun (s : Nat × Sounding) => (s.1, { s.2 with posting := none }) }
  h.discardWork 4 record

/-! ### Reactions (R318) -/

/-- The reaction performed: retire unit and hang-stop are performed as notify in End-of-life and Locked. -/
def Hub.performed (h : Hub) (reaction : Nat) : Nat :=
  if (reaction = 2 ∨ reaction = 3) ∧ 3 ≤ h.lcNat then 1 else reaction

/-- Fire a reaction (Table 13-4). -/
def Hub.fire (h : Hub) (performed s : Nat) (u : UnitId) (record : Option W32) : Hub :=
  match performed with
  | 2 =>
    let h := h.wakeWork
    let h := if record.isSome then { h with fc := h.fc.openWindow h.pt record u false } else h
    (h.discardWork 2 record).retire u record
  | 3 =>
    let h := h.wakeWork
    let h := if record.isSome then { h with fc := h.fc.openWindow h.pt record u true } else h
    let h := h.declareHang 5 u 0 (BitVec.ofNat 32 s) 0
    if h.chipStopped then
      let h := match record with
        | some r => { h with fc := h.fc.endHandling h.pt r }
        | none => h
      h.discardWork 3 record
    else (h.stopWithoutReply (h.pt + 250)).discardWork 3 record
  | 4 => h.enterSafe record
  | _ => h

/-! ### Events (R308 to R312) -/

/-- Enter an event in the log of the latest 16 (R317). -/
def Fc.logEvent (f : Fc) (pt s : Nat) (disp : Nat) (u : UnitId) (data : W32) : Fc :=
  let e : FaultLogEntry := { pt := pt, source := s, disposition := disp, unit := u, data := data }
  { f with log := (if f.log.length < 16 then f.log else f.log.drop 1) ++ [e] }

/-- A counted event: its arrival PT joins the list; the source may become Severe (R312). -/
def Hub.countEvent (h : Hub) (r : SourceRow) (s : Nat) (u : UnitId) (data : W32) (origin : Option Nat) : Hub :=
  let w := h.fc.cfg s
  let n := cfgN w
  let x := h.fc.source s
  let l := x.times ++ [h.pt]
  let times := l.drop (l.length - n)
  let oldest := times.headD h.pt
  if times.length < n ∨ 2 ^ cfgWexp w ≤ h.pt - oldest then
    { h with fc := h.fc.setSource s { x with times := times } }
  else
    let h := { h with fc := h.fc.setSource s { x with times := [] } }
    let react := cfgReaction r w
    if react = 0 then h
    else if (h.fc.all.any fun q => q.source == s && !q.read) then
      let again (q : FaultRec) : FaultRec :=
        if q.source = s ∧ q.read = false then { q with repeats := sat16 (q.repeats + 1) } else q
      { h with fc := { h.fc with records := h.fc.records.map again, safeRecord := h.fc.safeRecord.map again } }
    else
      let p := h.performed react
      let o := h.fc.openRec { source := s, unit := u, configured := bits w.toNat 12 10, performed := p, n := n,
                              wexp := cfgWexp w, data := data, firstPt := oldest, severePt := h.pt,
                              originPt := origin.getD 0 }
      { h with fc := o.1 }.fire p s u o.2

/-- An event is counted in FC_COUNT, disposed of under Table 13-2, entered in the log, and may cause a taint notice
(R311). A reserved source number has no events. -/
def Hub.disposeEvent (h : Hub) (s : Nat) (u : UnitId) (data : W32) (origin : Option Nat) (injected : Bool) : Hub :=
  match sourceRow s with
  | none => h
  | some r =>
    let x := h.fc.source s
    let h := { h with fc := h.fc.setSource s { x with count := sat32 (x.count + 1), lastPt := h.pt } }
    let log (h : Hub) (d : Nat) : Hub :=
      { h with fc := h.fc.logEvent h.pt s (if injected then 5 else d) u data }
    let taint (h : Hub) : Hub :=
      if cfgTaint (h.fc.cfg s) && !digestMismatch s data then h.eventTaint s u origin else h
    if h.fc.safe then log { h with fc.safeEvents := sat32 (h.fc.safeEvents + 1) } 3
    else if r.fixed then
      let h := taint (log h 4)
      let o := h.fc.openRec { source := s, unit := u, configured := 4, performed := 4, n := 1, wexp := 10,
                              data := data, firstPt := h.pt, severePt := h.pt, originPt := origin.getD 0 }
      { h with fc := o.1 }.enterSafe o.2
    else
      match h.fc.windowFor h.pt s with
      | some w =>
        let f := match w.record with
          | some q => h.fc.modRec q fun r => { r with conseq := sat16 (r.conseq + 1) }
          | none => { h.fc with conseqNoRec := sat32 (h.fc.conseqNoRec + 1) }
        log { h with fc := f } 2
      | none =>
        match (if r.dataPath then h.fc.oldestHandling else none) with
        | some q =>
          taint (log { h with fc := h.fc.modRec q.seq fun r => { r with merged := sat16 (r.merged + 1) } } 1)
        | none => (taint (log h 0)).countEvent r s u data origin

/-- The collector takes an event (R311); a change of what an I3C target shows of it raises an IBI (R48). -/
def Hub.takeEvent (h : Hub) (s : Nat) (u : UnitId) (data : W32) (origin : Option Nat) (injected : Bool) : Hub :=
  (h.disposeEvent s u data origin injected).noteIbi

/-- An event of a source of the hub's own. -/
def Hub.raise (h : Hub) (s : Nat) (u : UnitId) (data : Nat) : Hub :=
  h.takeEvent s u (BitVec.ofNat 32 data) none false

/-- An event of a monitor line, which asserted at a PT (R58, R308). -/
def Hub.raiseLine (h : Hub) (s : Nat) (data asserted : Nat) : Hub :=
  h.takeEvent s 0 (BitVec.ofNat 32 data) (some asserted) false

/-- A package flash error (Table 13-1). -/
def Hub.flashError (h : Hub) (block : Nat) : Hub := h.raise 0xFE9 0 (block % 0x10000)

/-- A command that writes flash ends OK, or SAFE_STATE where an event of its own, a flash error, has entered the safe state
(R319, R326). -/
def Hub.stored (h : Hub) (code : Nat) (hdr : Hdr) (body : List Byte) : Hub :=
  if h.fc.safe then h.answer code hdr .safeState [] else h.ok code hdr body

end Sys2Proof.Machine
end

