-- ==== Sys2Proof/Machine/SessionOps.lean ====
section
/-! DEFINITION. Staging and committing settings at the agents (R229, R230, R275, R279), and the end of a
session (R379, R391, R400). -/

namespace Sys2Proof.Machine

/-! ### Staging (Table 5-7, Tables 9-5 and 11-5) -/

/-- Write octets into an agent's staging buffer. -/
def Agent.stage (a : Agent) (addr : Nat) (bs : List Byte) : Agent :=
  { a with staging := memWrite a.staging addr bs }

/-- The staging address of engine `e`'s TRACE_SET (Table 9-5). -/
def traceEntryAddr (e : Nat) : Nat := 8 * e

/-- The staging address of slot `j` of engine `e` (Table 11-5). -/
def soundEntryAddr (e j : Nat) : Nat := 0x40 + 64 * (4 * e + j)

/-- Why an agent refuses a multicast (R127, Table 5-8): 0 applying a COMMIT, 1 Stopping. -/
def Agent.refuses (a : Agent) (pt : Nat) : Option Nat :=
  if pt < a.applyUntil then some 0 else if a.state = .stopping then some 1 else none

/-- The REFUSAL notice of an agent (Table 5-8). -/
def Agent.refusal (a : Agent) (u : UnitId) (pt : Nat) (tag : Byte) (why : Nat) : Agent :=
  a.notice pt { kind := 1, unit := u, tag := tag, arg := BitVec.ofNat 26 why, body := 0 }

/-- Staging writes, each with its address in the buffer, as an agent takes them: while a COMMIT is being applied they
wait in its link slots (R114, R127). -/
def Agent.takeStaging (a : Agent) (pt : Nat) (tag : Byte) (ws : List (Nat × List Byte)) : Agent :=
  if pt < a.applyUntil then
    { a with held := a.held ++ ws.map fun w => { tag := tag, address := 0x18000 + w.1, data := w.2 } }
  else ws.foldl (fun (a : Agent) w => a.stage w.1 w.2) a

/-- The packets of a staging, each entry once, by its bulk address in 8-byte units. -/
def stagingPackets (us : List UnitId) (ws : UnitId → List (Nat × List Byte)) : List (Nat × List W64) :=
  (us.flatMap ws).foldl (fun l w =>
    let p := (0x3000 + w.1 / 8, words64 w.2)
    if l.contains p then l else l ++ [p]) []

/-- The multicast of a staging goes out, with its combine, while a combine slot is free for it; without one its data go
by unicast alone (R111, R117, log entry 146). -/
def Hub.castStaging (h : Hub) (tag : Byte) (us : List UnitId) (ps : List (Nat × List W64)) : Hub :=
  if us.isEmpty || ps.isEmpty || !h.collectRoom .multicast then { h with dcn.nextTag := tag + 1 }
  else
    (h.beginMcast .chip { tag := tag, scope := .chip, packets := ps, addressed := us, took := us }).injectAll
      (ps.map fun p => mcastPkt .chip tag (BitVec.ofNat 17 p.1) p.2)

/-- Stage settings in agents that answer, by multicast with unicast completion (R117, R118): an agent that takes the
multicast contributes 1; one that refuses it says so with a notice, contributes 0, and takes its writes by unicast. -/
def Hub.stageAll (h : Hub) (us : List UnitId) (ws : UnitId → List (Nat × List Byte)) : Hub :=
  let tag := h.dcn.freeTag h.pt
  us.foldl (fun h u =>
    let why := (h.agent u).refuses h.pt
    let h := h.modAgent u fun a =>
      match why with
      | some w => (a.refusal u h.pt tag w).takeStaging h.pt tag (ws u)
      | none => a.takeStaging h.pt tag (ws u)
    h.contribute u tag (b2n why.isNone)) (h.castStaging tag us (stagingPackets us ws))

/-- Issue COMMIT (class 4) at an instant: argument bit 0 TRACE, bit 1 SOUND (R229, R275). -/
def Hub.commit (h : Hub) (sc : Scope) (instant : Nat) (arg : Nat) : Hub := h.issue 4 sc instant (BitVec.ofNat 32 arg)

/-- The earliest Tc or Td: staging writes to the agents are complete, also those that wait for the end of an earlier
COMMIT's apply, plus 200 ns (R229). -/
def Hub.commitAt (h : Hub) (us : List UnitId) : Nat :=
  us.foldl (fun t u => max t (h.agent u).applyUntil) (h.issueAt 4) + 200

/-! ### Soundings -/

def Hub.sounding (h : Hub) (s : Nat) : Sounding := mapGet {} h.soundings s
def Hub.setSounding (h : Hub) (s : Nat) (x : Sounding) : Hub := { h with soundings := mapSet {} h.soundings s x }

/-- Armed now: until Td, once cleared (R279). -/
def Sounding.isArmed (x : Sounding) (pt : Nat) : Bool :=
  x.armed && (match x.td with | some t => decide (pt < t) | none => true)

/-- Its number cannot be armed: it is armed, or its final posting is not written yet (R279). -/
def Sounding.isBusy (x : Sounding) (pt : Nat) : Bool := x.isArmed pt || (x.armed && x.td.isSome)

/-- A slot's entry in the staging buffer is to be applied by the next COMMIT, for sounding `s`. -/
def Agent.stagedFor (a : Agent) (s k : Nat) : Bool :=
  (memByte a.staging (0x40 + 64 * k + 2)).getLsbD 7 && (memByte a.staging (0x40 + 64 * k)).toNat == s

/-- An entry for sounding `s` waits to enter the staging buffer at a slot (R127). -/
def Agent.heldFor (a : Agent) (s k : Nat) : Bool :=
  a.held.any fun w => w.address == 0x18040 + 64 * k && (w.data.getD 2 0).getLsbD 7 && (w.data.getD 0 0).toNat == s

/-- Slot numbers `4e + j` that hold sounding `s` in an agent, or will hold it from a COMMIT on that is still to come: it is
staged there, or waits to be. -/
def Agent.slotsOf (a : Agent) (s : Nat) : List Nat :=
  (List.range 8).filter fun k =>
    ((mapFind a.taps k).map fun t => t.sounding == s).getD false || a.stagedFor s k || a.heldFor s k

/-- The disarming of `s`: ENABLE 0 and CHANGE 1 in each of its slots (R279). -/
def clearWrites (s : Nat) (ks : List Nat) : List (Nat × List Byte) :=
  ks.map fun k => (0x40 + 64 * k, [BitVec.ofNat 8 s, 0, 0x80] ++ zeros 61)

/-- Agents that answer and have a slot of `s`. -/
def Hub.holders (h : Hub) (s : Nat) : List UnitId :=
  h.poweredUnits.filter fun u => h.answers u && !((h.agent u).slotsOf s).isEmpty

/-- Disarm a sounding (R279), at `td` or at the earliest instant from then on: its COMMIT has the whole chip for its
scope, since a unit may have left the one it was armed with (log entry 98). -/
def Hub.clearSounding (h : Hub) (s td : Nat) : Hub :=
  let us := h.holders s
  let t := max td (h.commitAt us)
  ((h.stageAll us fun u => clearWrites s ((h.agent u).slotsOf s)).commit .chip t 2).setSounding s { h.sounding s with td := some t }

/-- Clear every sounding a session armed without PERSIST (R279, R400). R79 lets nothing be armed while Measuring and R400 ends a
session whatever happens: the session's end wins, and its COMMIT goes out (log entry 159). -/
def Hub.clearOwned (h : Hub) (tag : W32) : Hub :=
  (h.soundings.filter fun p => p.2.isArmed h.pt && p.2.td.isNone && p.2.owner == tag && !p.2.persist).foldl
    (fun h p => h.clearSounding p.1 0) h

/-! ### TEST_GATE and sessions -/

/-- TEST_GATE: Blank or Test, and a Vendor session open (R391). -/
def Hub.gateWanted (h : Hub) : Bool :=
  h.inBlankOrTest && h.island.sessions.any fun s => s.role == .vendor

/-- Set TEST_GATE to what R391 states, and put a change out on the line. -/
def Hub.setGate (h : Hub) : Hub :=
  let g := h.gateWanted
  if g = h.island.testGate then h else { h with island.testGate := g }.emit (.testGate g)

/-- A session ends: its tag is removed, its partly received loads are discarded, its soundings without
PERSIST are cleared and its key is forgotten (R400, R379). -/
def Hub.endSession (h : Hub) (tag : W32) : Hub :=
  let drop (p : Option PartLoad) : Option PartLoad := p.filter fun (x : PartLoad) => x.session != tag
  let h := h.clearOwned tag
  let h := { h with island.sessions := h.island.sessions.filter fun s => s.tag != tag }
  let h := { h with pat.part := drop h.pat.part, power.fwPart := drop h.power.fwPart }
  h.setGate

/-- End several sessions. -/
def Hub.endSessions (h : Hub) (p : Session → Bool) : Hub :=
  ((h.island.sessions.filter p).map (·.tag)).foldl Hub.endSession h

def Hub.endAllSessions (h : Hub) : Hub := h.endSessions fun _ => true

/-- The lane enters or leaves Up: the port resets, sessions opened on the transport that was left end, the
pending challenge ends, and an executing command's reply is discarded (R41, R43, R396, Table 17-8). -/
def Hub.leaveTransport (h : Hub) (left : Transport) : Hub :=
  let h := h.endSessions fun s => s.transport == left
  { h with island.challenge := none,
           slot := h.slot.map fun (e : Exec) => if e.transport = left then { e with mute := true } else e,
           red.heldReplies := h.red.heldReplies.filter fun r => r.transport != left }

/-- The port resets: frame numbers start at 0 and nothing waits (R41, R368). Its counts are AO. -/
def Port.reset (p : Port) : Port :=
  { retrains := p.retrains, crc := p.crc, naks := p.naks, resends := p.resends, errors := p.errors, busy := p.busy,
    lane := p.lane, trainingPt := p.trainingPt }

/-- The commands in flight at a failover: the one that executes, and those whose last reply packet has not left the port:
held for the standby, waiting for a frame, or for room in the JTAG reply buffer (R363). -/
def Hub.inFlight (h : Hub) : List (W32 × W16 × W16) :=
  (h.slot.map fun (e : Exec) => (e.hdr.session, e.hdr.sequence, e.opcode)).toList ++
    (h.red.heldReplies.map fun r => (r.hdr.session, r.hdr.sequence, r.opcode)) ++
    ((h.port.waiting.filter fun p => !p.more).map fun p => (p.session, p.sequence, p.opcode)) ++ h.tap.waitFor.toList

/-- A warm failover discards the command in flight: its session's next packet is answered DISCARDED (R363), and reply
packets that have not left are lost. -/
def Hub.discardInFlight (h : Hub) : Hub :=
  { h with discards := h.discards ++ h.inFlight, slot := none, port.waiting := [],
           tap := { h.tap with txWait := [], waitFor := none },
           red := { h.red with syncWait := none, heldReplies := [] } }

end Sys2Proof.Machine
end

