-- ==== Sys2Proof/Machine/UnitOps.lean ====
section
/-! DEFINITION. What depends on a unit's class (Tables 1-1, 5-11, 5-15), and what an agent does as its unit
powers on or off, changes partition or pushes its counters (R68, R125, R140, R247 to R250, R284). -/

namespace Sys2Proof.Machine

/-! ### Unit classes -/

/-- Instrumented queues (Table 5-15). -/
def queueCount (u : UnitId) : Nat :=
  match unitClass u with
  | 0 | 1 | 4 => 8
  | 2 => 6
  | 3 | 6 => 3
  | 5 => 2
  | _ => if unitIndex u < 16 then 2 else 0

/-- Size of the capture shadow (Table 5-11). -/
def shadowSize (u : UnitId) : Nat :=
  match unitClass u with
  | 0 | 1 | 2 => 0x4000
  | 4 => 0x10000
  | 5 | 6 => 0x2000
  | _ => 0x1000

/-- Bytes of unit SRAM (Table 1-1). -/
def sramSize (u : UnitId) : Nat :=
  match unitClass u with
  | 0 => 0x80000
  | 1 => 0x40000
  | 2 => 0x20000
  | 3 => 0x100000
  | _ => 0

/-- Watchdogs: classes 0 to 3, memory controllers and link units have one for each engine (R142). -/
def watchdogCount (u : UnitId) : Nat := engineCount u

/-- Tapped engines (Table 11-1): M- and V-cores have two, S-cores and slices one. -/
def tapEngines (u : UnitId) : Nat :=
  match unitClass u with
  | 0 | 1 => 2
  | 2 | 3 => 1
  | _ => 0

/-- TAP_MASK bit of tap index `e` of a class (Table 11-1). -/
def tapBit (cls e : Nat) : Nat := match cls with | 0 => e | 1 => 2 + e | 2 => 4 | _ => 5

/-- DEPTH of a queue (Table 5-14). -/
def depthOf (u : UnitId) (q : Nat) : W16 := Config.queueDepth (unitClass u) (unitIndex u) q

/-- The reset SHIFT: the least for which 8 * 2^SHIFT holds DEPTH (Table 5-14). -/
def defaultShift (depth : Nat) : Nat :=
  ((List.range 16).find? fun s => decide (depth ≤ 8 * 2 ^ s)).getD 15

/-- SHIFT as it stands. -/
def QueueInst.shiftNow (q : QueueInst) (depth : Nat) : Nat :=
  match q.shift with
  | some s => s.toNat
  | none => defaultShift depth

/-- The trace collector that serves a unit's sources (R216). -/
def collectorOf (u : UnitId) : Nat := 16 * unitHalf u + unitIndex u % 16

/-- PT of which only bits [31:0] are given, unwrapped against a full PT (R82). -/
def unwrapPt (f l : Nat) : Nat :=
  let d := (l + 2 ^ 32 - f % 2 ^ 32) % 2 ^ 32
  if 2 ^ 31 ≤ d then f + d - 2 ^ 32 else f + d

/-! ### Light totals -/

/-- Add increments to totals, saturating at 2^64 − 1 (R245). -/
def Totals.add (a b : Totals) : Totals :=
  { busy := sat64 (a.busy + b.busy), cmds := sat64 (a.cmds + b.cmds), corr := sat64 (a.corr + b.corr),
    uncorr := sat64 (a.uncorr + b.uncorr) }

/-- Total `c` of Table 10-1. -/
def Totals.get (t : Totals) (c : Nat) : Nat :=
  match c with | 0 => t.busy | 1 => t.cmds | 2 => t.corr | _ => t.uncorr

def Totals.bytes (t : Totals) : List Byte := le 8 t.busy ++ le 8 t.cmds ++ le 8 t.corr ++ le 8 t.uncorr

/-- The differences of Observer results (R263). -/
def Totals.minus (a b : Totals) : Totals :=
  { busy := a.busy - b.busy, cmds := a.cmds - b.cmds, corr := a.corr - b.corr, uncorr := a.uncorr - b.uncorr }

def Hub.arrayTotals (h : Hub) (u : UnitId) : Totals := mapGet {} h.arrays.totals (ordinalOf u)

/-- The array adds a push to the unit's entry (R247). -/
def Hub.arrayAdd (h : Hub) (u : UnitId) (t : Totals) : Hub :=
  { h with arrays.totals := mapSet {} h.arrays.totals (ordinalOf u) ((h.arrayTotals u).add t) }

/-- The bank entry a tagged push leaves (R255): it overwrites the entry of its freeze, and before the provisional copies
any entry that is not held; after finalization its QUALITY is 2. -/
def BankEntry.tagged (b : BankEntry) (f : FreezeRun) (p : TaggedPush) (t : Totals) (taken final : Bool) : BankEntry :=
  let q := if p.late || final then 2 else 0
  if b.state ≠ 0 ∧ b.freezeId = f.freezeId then { b with quality := q, snapPt := p.snapPt, totals := t }
  else if b.state = 2 || taken then b
  else { state := p.state, quality := q, freezeId := f.freezeId, snapPt := p.snapPt, totals := t }

/-- The freeze a tagged push belongs to: the latest with its FREEZE_ID [15:0]. -/
def Arrays.freezeOf (a : Arrays) (id : W32) : Option FreezeRun :=
  a.freezes.reverse.find? fun f => f.freezeId.toNat % 0x10000 == id.toNat % 0x10000

def Arrays.setFreeze (a : Arrays) (f : FreezeRun) : Arrays :=
  { a with freezes := a.freezes.map fun x => if x.freezeId = f.freezeId then f else x }

/-- The oldest tagged push of a unit arrives at its array (R252, R255). -/
def Hub.deliverTagged (h : Hub) (u : UnitId) : Hub :=
  let a := h.agent u
  match a.cnt.tagged with
  | [] => h
  | p :: rest =>
    let h := (h.arrayAdd u p.incr).setAgent u { a with cnt := { a.cnt with tagged := rest } }
    match h.arrays.freezeOf p.freezeId with
    | none => h
    | some f =>
      let o := ordinalOf u
      let taken := if halfOf u = .west then f.westTaken else f.eastTaken
      let final := if halfOf u = .west then f.westDone else f.eastDone
      let b := (mapGet {} h.arrays.bank o).tagged f p (h.arrayTotals u) taken final
      { h with arrays := { h.arrays with bank := mapSet {} h.arrays.bank o b }.setFreeze { f with pushed := f.pushed ++ [o] } }

/-- An agent pushes the increments counted since its previous push (R247); the push path keeps the order, so
tagged pushes on their way arrive first. -/
def Hub.push (h : Hub) (u : UnitId) : Hub :=
  let h := (h.agent u).cnt.tagged.foldl (fun h _ => h.deliverTagged u) h
  let a := (h.agent u).settle h.pt
  (h.arrayAdd u a.cnt.unpushed).setAgent u { a with cnt := { a.cnt with unpushed := {} } }

/-- Count one event in the light set of a core or slice (Table 10-1). -/
def Cnt.count (c : Cnt) (t : Totals) : Cnt := { c with light := c.light.add t, unpushed := c.unpushed.add t }

/-! ### Queue instruments -/

/-- Unit-clock cycles of the unit since power-on, 6 in 5 ns while its clocks run (R136, log entry 9). -/
def Agent.cycles (a : Agent) (pt : Nat) : Nat := 6 * a.ungated pt / 5

/-- One sample of an occupancy `n`: a bin saturates at 2^32 − 1 (R136, R249). -/
def QueueInst.sample (x : QueueInst) (shift n : Nat) : QueueInst :=
  let i := min 7 (n / 2 ^ shift)
  { x with bins := x.bins.set i (sat32 (x.bins.getD i 0 + 1)), hwm := max x.hwm n }

/-- A queue's instrument with the samples of every cycle up to `cycle`. -/
def QueueInst.upTo (x : QueueInst) (u : UnitId) (q cycle : Nat) : QueueInst :=
  let d := (depthOf u q).toNat
  let s := (List.range (cycle - x.seen)).foldl (fun (y : QueueInst) i =>
    y.sample (x.shiftNow d) (min d (Config.queueOccupancy (ordinalOf u) q (x.seen + i)))) x
  { s with seen := cycle }

/-- Queue `q`'s instrument as it reads now. -/
def Agent.queue (a : Agent) (u : UnitId) (pt q : Nat) : QueueInst := (mapGet {} a.queues q).upTo u q (a.cycles pt)

/-- QUEUE_SAT: a bin has saturated since the latest clear (R249). -/
def Agent.queueSat (a : Agent) (u : UnitId) (pt : Nat) : Bool :=
  (List.range (queueCount u)).any fun q => (a.queue u pt q).bins.contains (2 ^ 32 - 1)

/-- Clear every bin, HWM and QUEUE_SAT; SHIFT stays. What stood there is kept for a snapshot edge in the same cycle
(R250). -/
def Agent.clearQueues (a : Agent) (u : UnitId) (pt : Nat) : Agent :=
  { a with queues := (List.range (queueCount u)).map fun q => (q, { shift := (mapGet {} a.queues q).shift, seen := a.cycles pt }),
           uncleared := some (pt, a.queues) }

/-- The instruments that a snapshot edge at `pt` copies: as they stood before a clear in the same cycle (R250). -/
def Agent.queuesAtEdge (a : Agent) (pt : Nat) : SMap QueueInst :=
  match a.uncleared with
  | some (t, qs) => if t = pt then qs else a.queues
  | none => a.queues

/-! ### Partition (R125, R250, R284) -/

/-- A partition-scoped slot's accumulators are discarded, and the discard counted. -/
def TapSlot.discard (t : TapSlot) : TapSlot :=
  if t.ctrl.getLsbD 4 then { t with acc := { discards := t.acc.discards + 1 } } else t

/-- PARTITION changes: the event, LIGHT_BASE and BASE_PT, cleared instruments and discarded accumulators. -/
def Agent.changePartition (a : Agent) (u : UnitId) (pt : Nat) (member : Bool) (p : BitVec 6) (old : BitVec 6)
    (wasMember : Bool) : Agent :=
  let a := a.settle pt
  let n := (a.taps.filter fun t => t.2.ctrl.getLsbD 4).length
  let c := { a.cnt with base := a.cnt.light, basePt := pt }
  let a := { a with member := member, partition := p, cnt := c, taps := a.taps.map fun (t : Nat × TapSlot) => (t.1, t.2.discard),
                    discards := sat16 (a.discards + n) }
  (a.clearQueues u pt).event u pt 0x08 0 (p.toNat + 64 * b2n member + 256 * old.toNat + 0x4000 * b2n wasMember)

/-- The agent loads PARTITION from the partition manager, as a change from 0 (R125). -/
def Hub.loadPartition (h : Hub) (u : UnitId) : Hub :=
  if !unitCore u then h else
  match mapGet none h.chip.membership (ordinalOf u) with
  | some p => h.modAgent u fun a => a.changePartition u h.pt true p 0 false
  | none => h.modAgent u fun a => a.changePartition u h.pt false 0 0 false

/-- Light totals from the AO array: what was counted before is added to what is loaded, once since power-on (R248). -/
def Hub.loadTotals (h : Hub) (u : UnitId) : Hub :=
  if !unitCore u then h else
  let t := h.arrayTotals u
  h.modAgent u fun a =>
    let a := a.settle h.pt
    if a.cnt.loaded then a else { a with cnt := { a.cnt with light := a.cnt.light.add t, loaded := true } }

/-! ### Powering on -/

/-- A slot that selects a command by its tag (R266). -/
def TapSlot.selectsTag (t : TapSlot) (tag : W32) : Bool :=
  t.ctrl.getLsbD 0 && !t.ctrl.getLsbD 1 && (tag.setWidth 64 &&& t.selB) == (t.selA &&& t.selB)

/-- Tags of an interval (Table 11-7, words 14 and 15). -/
def Accum.noteTag (a : Accum) (tag : W32) : Accum :=
  { a with tagMin := if tag.toNat < a.tagMin.toNat then tag.setWidth 64 else a.tagMin,
           tagMax := if a.tagMax.toNat < tag.toNat then tag.setWidth 64 else a.tagMax }

/-- Move a slot's accumulators to its posting buffer (R281): they start from zero, and the open command counts
in OPEN, its tag among those of the interval. -/
def TapSlot.move (t : TapSlot) (instant : Nat) : TapSlot :=
  let a := t.acc
  let a := match t.openTag with
    | some g => { a.noteTag g with openCmds := a.openCmds + 1 }
    | none => a
  { t with buffer := some (instant, a), acc := {} }

/-- A tap slot with empty accumulators. -/
def TapSlot.fresh (t : TapSlot) : TapSlot :=
  { t with acc := {}, buffer := none, beatNo := 0, openTag := none }

/-- SOUND_ACTIVE (Table 11-6). -/
def TapSlot.word (t : TapSlot) : Nat :=
  t.sounding + (t.stats.toNat % 64) * 0x100 + t.format.toNat * 0x10000 + b2n (t.ctrl.getLsbD 1) * 2 ^ 24 +
    b2n (t.ctrl.getLsbD 2) * 2 ^ 25 + b2n (t.ctrl.getLsbD 3) * 2 ^ 26 + b2n (t.ctrl.getLsbD 4) * 2 ^ 27 +
    b2n (t.ctrl.getLsbD 0) * 2 ^ 31

/-- The engines' trace settings as the collector mirrors them (R230). -/
def Hub.mirrorEngines (h : Hub) (u : UnitId) : SMap Engine :=
  let c := h.collector (collectorOf u)
  (List.range (engineCount u)).foldl (fun m e =>
    let x := mapGet {} c.mirrors (sourceOf u e).toNat
    mapSet {} m e { trace := x.trace, kM1 := x.kM1 }) []

/-- The tap slots of soundings that are armed and not being cleared, as the collector mirrors them (R277). -/
def Hub.mirrorTaps (h : Hub) (u : UnitId) : SMap TapSlot :=
  let c := h.collector (collectorOf u)
  let o := ordinalOf u
  (c.taps.filter fun t => t.1 / 8 == o && (h.sounding t.2.sounding).armed && (h.sounding t.2.sounding).td.isNone).map fun t => (t.1 % 8, t.2.fresh)

/-- A stop that stands has reached its instant and covers a unit; membership is the partition manager's,
since the agent has not loaded it. -/
def Hub.stopCovers (h : Hub) (u : UnitId) : Bool :=
  h.stops.standing.any fun s => decide (s.1 ≤ h.pt) &&
    (match s.2.1 with
     | .chip => true
     | .half x => halfOf u == x
     | .part p => mapGet none h.chip.membership (ordinalOf u) == some p
     | .mask => s.2.2.contains u)

/-- SOUND_ACTIVE of restored tap slots (R277). -/
def soundWords (m : SMap TapSlot) : SMap Nat := m.map fun t => (t.1, t.2.word)

/-- The agent of a unit that powers on or is reset: Running, or Stopped under a stop that covers it, with a
header-only shadow flagged POWERED_IN (Table 5-1, R135). -/
def Hub.freshAgent (h : Hub) (u : UnitId) (old : Agent) : Agent :=
  let a : Agent := { powered := true, engines := h.mirrorEngines u, taps := h.mirrorTaps u,
                     soundActive := soundWords (h.mirrorTaps u), ungateSince := h.pt,
                     unreachable := !h.linksUp u, cnt := { busyPt := h.pt }, sramLost := old.sramLost, sramBad := old.sramBad,
                     shadowBad := old.shadowBad, written := old.written }
  let a := a.ringWrite h.pt 0x01 0 0
  if h.stopCovers u then
    let n := h.stops.newest
    { a with state := .stopped, gated := true,
             shadow := some { complete := true, late := false, poweredIn := true, step := false, cutPt := 0,
                              donePt := 0, blocks := [], blockCount := 0, cutSeq := 0,
                              claim := (n.map (·.claim)).getD 0, stopSeq := (n.map (·.seq)).getD 0 } }
  else a

/-! ### Powering off -/

/-- Before power is removed the agent answers every pending COLLECT with the identity and COUNT 0
(Table 5-17). -/
def Hub.answerPending (h : Hub) (u : UnitId) : Hub :=
  { h with dcn.combines := h.dcn.combines.map fun (c : Combine) => c.answer u (Reduced.none c.op) }

/-- A voluntary power-down proceeds: the last push, the POWER notice and the pending answers, and the unit is
ready to lose power (R247, Table 5-17). -/
def Hub.powerDown (h : Hub) (u : UnitId) : Hub :=
  let h := if unitCore u then h.push u else h
  let h := h.modAgent u fun a =>
    { a with powerHold := false, powering := true }.notice h.pt
      { kind := 7, unit := u, arg := 0, body := BitVec.ofNat 64 (a.replica h.pt) }
  (h.answerPending u).emit (.unitPower u false)

/-- Release a deferred power-down: at RESUME, or once SHADOW_KEEP is written 0 (Table 5-17). -/
def Hub.releasePower (h : Hub) (u : UnitId) : Hub :=
  let a := h.agent u
  if a.powerHold && (!a.shadowKeep || a.state == .running) then h.powerDown u else h

/-- Tagged pushes that an agent has sent reach the array though its power goes: only the increments since the last push are
lost (R247). -/
def Hub.landPushes (h : Hub) (u : UnitId) : Hub :=
  if h.retired u then h else (h.agent u).cnt.tagged.foldl (fun h _ => h.deliverTagged u) h

/-- The unit has lost power: ring, shadow, accumulators and armed instants are lost, its SRAM contents become
undefined, its sources close, its soundings have lost a unit (R133, R233, R284). -/
def Hub.unitGone (h : Hub) (u : UnitId) : Hub :=
  let h := h.landPushes u
  let a := h.agent u
  let pt := h.pt
  let reason := if h.retired u then 2 else 1
  let c := h.collector (collectorOf u)
  let close (m : SMap Mirror) (e : Nat) : SMap Mirror :=
    let k := (sourceOf u e).toNat
    let x := mapGet {} m k
    if x.trace.getLsbD 0 then mapSet {} m k { x with closing := some (reason, pt) } else m
  let h := h.setCollector (collectorOf u) { c with mirrors := (List.range (engineCount u)).foldl close c.mirrors }
  let h := { h with soundings := h.soundings.map fun (s : Nat × Sounding) =>
    if (a.taps.any fun t => t.2.sounding == s.1) then (s.1, { s.2 with unitLost := true }) else s }
  h.setAgent u { sramLost := a.sramLost + 1, sramBad := a.sramBad, shadowBad := a.shadowBad, written := a.written }

/-- The reply of UNIT_RETIRE: GENERATION and PENDING (Table 16-5). -/
def Hub.retireBody (h : Hub) (pending : Bool) : List Byte :=
  le 4 h.ident.retiredGen.toNat ++ le 1 (b2n pending)

/-- A retirement is complete once the unit is off and its map bit set: Handling ends, and UNIT_RETIRE ends
(Table 13-4, R320); of one that the safe state has stopped DONE stays 0 (Table 13-10). -/
def Hub.retirementDone (h : Hub) (u : UnitId) : Hub :=
  if !h.retired u then h else
  let done := h.fc.all.filter fun r => r.handling && r.performed == 2 && r.unit == u && !r.halted
  let f := done.foldl (fun f r => f.endHandling h.pt r.seq) h.fc
  let h := { h with fc := f }
  match h.slot with
  | some ⟨_, _, _, _, .retire v, _, _, _, _, _, _, _, _⟩ => if v = u then h.conclude .ok (h.retireBody false) else h
  | _ => h

/-! ### Notices -/

/-- The notice of a watchdog's expiry (R143). -/
def watchdogNoticeOf (u : UnitId) (e : Nat) (queue : Bool) (exp : BitVec 6) (pt : Nat) (tag : W32) : Notice :=
  { kind := 6, unit := u, arg := BitVec.ofNat 26 (e % 16 + 16 * b2n queue + 32 * exp.toNat),
    body := BitVec.ofNat 64 (pt % 2 ^ 32 * 2 ^ 32 + tag.toNat) }

end Sys2Proof.Machine
end

