-- ==== Sys2Proof/Machine/Units.lean ====
section
/-! DEFINITION. Events at the units and their agents: power (R121, R140), replica load (R68), partition
changes (R125), unit events and watchdogs (R130, R141), and notices on their way to the hub (R128, R129). -/

namespace Sys2Proof.Machine

/-! ### Power -/

/-- UNIT_POWER_ON (Table 5-1). A retired unit stays off, a fuse-retired one before enumeration too (R30). -/
def opUnitPowerOn (unit : UnitId) (h : Hub) : Hub :=
  let a := h.agent unit
  let fused := retirable unit && h.island.otp.repair.contains (ordinalOf unit)
  if !unitHasAgent unit || h.retired unit || fused || a.powered then h
  else (h.setAgent unit (h.freshAgent unit a)).emit (.unitPower unit true)

/-- REPLICA_LOAD: full PT, then the light totals and PARTITION (R68, R125, R248). -/
def opReplicaLoad (unit : UnitId) (h : Hub) : Hub :=
  let a := h.agent unit
  if !a.powered || a.replicaLoaded then h else
  let h := h.modAgent unit fun a =>
    ({ a with replicaLoaded := true }.event unit h.pt 0x02 0 0).notice h.pt
      { kind := 7, unit := unit, arg := 1, body := BitVec.ofNat 64 h.pt }
  (h.loadTotals unit).loadPartition unit

/-- PARTITION_CHANGE: the partition manager changes a membership; a powered unit that has loaded its own
follows it (R125). -/
def opPartitionChange (unit : UnitId) (member : Bool) (ident : BitVec 6) (h : Hub) : Hub :=
  if !unitHasAgent unit || !unitCore unit then h else
  let new := if member then some ident else none
  let h := { h with chip.membership := mapSet none h.chip.membership (ordinalOf unit) new }
  let a := h.agent unit
  let old := if a.member then some a.partition else none
  if !a.powered || !a.replicaLoaded || old == new then h
  else h.modAgent unit fun a => a.changePartition unit h.pt member (if member then ident else 0) a.partition a.member

/-- POWER_DOWN_REQUEST: deferred under SHADOW_KEEP, or it proceeds (Table 5-17). -/
def opPowerDownRequest (unit : UnitId) (h : Hub) : Hub :=
  let a := h.agent unit
  if !a.powered then h
  else if (a.state == .stopping || a.shadowValid) && a.shadowKeep then h.modAgent unit fun a => { a with powerHold := true }
  else h.powerDown unit

/-- An access in progress to a unit that powers down is answered POWERING, which is UNREACHABLE at the ICP
level (Table 5-17). -/
def Hub.accessLost (h : Hub) (u : UnitId) : Hub :=
  match h.slot with
  | some ⟨_, _, _, _, .access v _, _, _, _, _, _, _, _, _⟩ =>
    if v = u then
      (h.dropAccess u).conclude .unreachable (unitsBody [u])
    else h
  | _ => h

/-- UNIT_POWER_OFF (Table 5-1, R133). -/
def opUnitPowerOff (unit : UnitId) (h : Hub) : Hub :=
  if !(h.agent unit).powered then h else
  ((h.answerPending unit).unitGone unit).retirementDone unit |>.accessLost unit

/-- EMERGENCY_POWER_OFF: no answer is given to anything; what is pending times out (Table 5-17). -/
def opEmergencyPowerOff (unit : UnitId) (h : Hub) : Hub :=
  if !(h.agent unit).powered then h else (h.unitGone unit).retirementDone unit

/-! ### Events and watchdogs -/

/-- Codes a unit reports of itself (Table 5-10). -/
def unitEventCode (code : Byte) : Bool :=
  code == 0x10 || code == 0x11 || code == 0x13 || decide (0x80 ≤ code.toNat)

/-- UNIT_EVENT: the ring entry, the EVENT notice of some codes, and the ECC counters of the light set (R129,
R130, Table 10-1). -/
def opUnitEvent (unit : UnitId) (code : Byte) (engine : BitVec 4) (data : W32) (h : Hub) : Hub :=
  let a := h.agent unit
  if !a.powered || !unitEventCode code then h else
  h.modAgent unit fun a =>
    let a := a.event unit h.pt code engine data.toNat
    if unitCore unit && code == 0x10 then { a with cnt := a.cnt.count { corr := 1 } }
    else if unitCore unit && code == 0x11 then { a with cnt := a.cnt.count { uncorr := 1 } }
    else a

/-- The limit of a watchdog in ns; none while it is off (Table 6-1). -/
def Engine.limit (g : Engine) : Option Nat :=
  if g.exp = 0 then none else some (2 ^ min 40 (max 10 g.exp.toNat))

/-- Which case of R141 holds for an engine: the tag of the command that did not end, or of the one at the
head of the queue that did not start. The origin of the queue case is no earlier than the instant at which the queue
became non-empty. -/
def Engine.overdue (g : Engine) (now : Nat) (head : Option QueueHead) : Option (Bool × W32) :=
  match g.limit with
  | none => none
  | some l =>
    if g.expired then none else
    match g.running, head with
    | some c, _ => if g.cmdWatch && decide (g.origin + l ≤ now) then some (false, c.tag) else none
    | none, some t => if g.queueWatch && decide (max g.origin t.since + l ≤ now) then some (true, t.tag) else none
    | none, none => none

/-- The watchdog of an engine expires (R141). -/
def Hub.expireWatchdog (h : Hub) (u : UnitId) (e : Nat) (head : Option QueueHead) : Hub :=
  let a := h.agent u
  let g := a.engine e
  if !a.powered || decide (watchdogCount u ≤ e) then h else
  match g.overdue (a.ungatedOf e h.pt) head with
  | none => h
  | some (q, tag) =>
    h.setAgent u (((a.setEngine e { g with expired := true }).event u h.pt 0x12 (BitVec.ofNat 4 e) e).notice h.pt
      (watchdogNoticeOf u e q g.exp (a.replica h.pt) tag))

/-- WATCHDOG_EXPIRY; `head` is the command at the head of the engine's queue. -/
def opWatchdogExpiry (unit : UnitId) (engine : Nat) (head : Option QueueHead) (h : Hub) : Hub :=
  h.expireWatchdog unit engine head

/-- The first element that passes a test, and the rest. -/
def takeFirst {α : Type} (p : α → Bool) : List α → Option (α × List α)
  | [] => none
  | x :: xs =>
    if p x then some (x, xs)
    else match takeFirst p xs with
      | some (y, ys) => some (y, x :: ys)
      | none => none

/-- WATCHDOG_NOTICE at the hub: a hang is declared, and the unit's HANG source has an event (R143, R144). -/
def opWatchdogNotice (unit : UnitId) (h : Hub) : Hub :=
  match takeFirst (fun (n : Notice) => n.kind == 6 && n.unit == unit) h.dcn.inbox with
  | none => h
  | some (n, rest) =>
    let tag := bits n.body.toNat 31 0
    let h := { h with dcn.inbox := rest }
    let h := h.declareHang (if n.arg.getLsbD 4 then 2 else 1) unit (BitVec.ofNat 8 (bits n.arg.toNat 3 0))
      (BitVec.ofNat 32 tag) 0
    h.takeEvent (0x800 + ordinalOf unit) unit (BitVec.ofNat 32 tag)
      (some (unwrapPt h.pt (bits n.body.toNat 63 32))) false

/-! ### Notices -/

/-- An EVENT notice reaches the fault collector (Table 13-1). -/
def Hub.eventArrives (h : Hub) (n : Notice) : Hub :=
  let code := bits n.arg.toNat 7 0
  let data := bits n.body.toNat 31 0
  let origin := some (unwrapPt h.pt (bits n.body.toNat 63 32))
  let k := unitHalf n.unit
  if code = 0x10 then
    h.takeEvent (0xFD5 + 8 * k + unitClass n.unit) n.unit (BitVec.ofNat 32 (data % 0x10000)) origin false
  else if code = 0x11 then
    h.takeEvent (ordinalOf n.unit) n.unit (BitVec.ofNat 32 (0x11000000 + data % 0x10000)) origin false
  else if code = 0x13 then h.takeEvent (0xFE5 + k) n.unit (BitVec.ofNat 32 (data % 0x100)) origin false
  else h

/-- A LATE notice is counted with the stop, freeze, step or resume it belongs to (R161, R176, R183). -/
def Hub.lateArrives (h : Hub) (cls : Nat) : Hub :=
  let bump (p : Prog → Bool) (h : Hub) : Hub :=
    { h with slot := h.slot.map fun (e : Exec) => if p e.prog then { e with lateCount := e.lateCount + 1 } else e }
  match cls with
  | 0 => { h with stops.newest := h.stops.newest.map fun (n : StopInfo) => { n with lateCount := n.lateCount + 1 } }
  | 1 => bump (fun p => match p with | .freeze _ _ => true | _ => false) h
  | 2 => bump (fun p => match p with | .cycles _ _ => true | .cmdStep _ _ => true | _ => false) h
  | 3 => bump (fun p => match p with | .resume _ => true | _ => false) h
  | _ => h

/-- The peer of a checker port lies outside the scope of the stop, or of the step, which is the chip's (R156, R174, log
entry 103). -/
def Hub.peerOutside (h : Hub) (p : CutPort) : Bool :=
  match h.stops.newest with
  | some s => decide (p.peerKind ≠ 1) || (!p.step && !h.inScope s.scope s.units p.peer)
  | none => true

/-- A CUT notice is counted: a NO_MARKER toward a peer outside the scope is open, everything else is a
violation (R156). -/
def Hub.cutArrives (h : Hub) (n : Notice) : Hub :=
  let p := mapGet {} (h.agent n.unit).ports (bits n.arg.toNat 5 0)
  let isOpen := decide (bits n.arg.toNat 10 6 = 4) && h.peerOutside p
  if p.step then
    { h with slot := h.slot.map fun (e : Exec) =>
        if isOpen then { e with openLinks := e.openLinks + 1 } else { e with violating := e.violating + 1 } }
  else
    { h with stops.newest := h.stops.newest.map fun (s : StopInfo) =>
        if isOpen then { s with openLinks := s.openLinks + 1 } else { s with violating := s.violating + 1 } }

/-- A refusal of a multicast write (R117). -/
def Hub.refusalArrives (h : Hub) (n : Notice) : Hub :=
  { h with dcn.mcasts := h.dcn.mcasts.map fun (m : Mcast) =>
      if m.tag = n.tag ∧ m.refused.contains n.unit = false then { m with refused := m.refused ++ [n.unit] } else m }

/-- The state with a code of Table 5-4. -/
def stateNamed (n : Nat) : AgState := match n with | 0 => .running | 1 => .stopping | 2 => .stopped | _ => .stepping

/-- A notice of an agent reaches the hub (Table 5-8). A WATCHDOG notice waits for its own step. -/
def Hub.noticeArrives (h : Hub) (n : Notice) : Hub :=
  match n.kind with
  | 0 => h.learnState n.unit (stateNamed (bits n.arg.toNat 2 0))
  | 1 => h.refusalArrives n
  | 2 => h.eventArrives n
  | 4 => h.lateArrives (bits n.arg.toNat 2 0)
  | 6 => { h with dcn.inbox := h.dcn.inbox ++ [n] }
  | 9 => h.cutArrives n
  | _ => h

/-- NOTICE_SEND: the oldest queued notice leaves, where the agent holds a control-lane credit; after drops, OVERFLOW is
queued before any newer notice (R129). A notice held while its DCN domain is off wakes that domain (R119, R308). -/
def opNoticeSend (unit : UnitId) (h : Hub) : Hub :=
  let a := h.agent unit
  match a.notices with
  | [] => h
  | n :: rest =>
    if !a.powered then h else
    let h := h.powerDomains [4 + unitHalf unit, 4 + halfNat h.red.holder]
    if !h.pathUp unit || (h.link (.agent (ordinalOf unit))).upward.ctlCredit == 0 then h else
    let h := h.inject (.agent unit) n.pkt
    let lost : Notice := { kind := 8, unit := unit, arg := 0, body := BitVec.ofNat 64 a.lostSince }
    let a := if a.lostSince = 0 then { a with notices := rest }
             else { a with notices := rest ++ [lost], lostSince := 0 }
    (h.setAgent unit a).noticeArrives n

/-- PENDING_RETIREMENT: it proceeds once the unit runs again, at the RESUME instant of its stop, or has lost its power
(R320). -/
def opPendingRetirement (unit : UnitId) (h : Hub) : Hub :=
  if !h.fc.pendingRetire.contains unit || (h.agent unit).state != .running then h else
  let f := { h.fc with pendingRetire := h.fc.pendingRetire.filter fun u => u != unit }
  let f := (f.all.filter fun r => r.pendingRet && r.unit == unit).foldl
    (fun (f : Fc) r => f.modRec r.seq fun r => { r with pendingRet := false }) f
  let h := { h with fc := f }.retireNow unit
  if (h.agent unit).powered then h else h.retirementDone unit

/-! ### Meanings -/

def execUnitPowerOn (unit : UnitId) (st : State) : Host.Outcome State Fault Refusal :=
  .next { st with hub := opUnitPowerOn unit st.hub }
def execReplicaLoad (unit : UnitId) (st : State) : Host.Outcome State Fault Refusal :=
  .next { st with hub := opReplicaLoad unit st.hub }
def execPartitionChange (unit : UnitId) (member : Bool) (ident : BitVec 6) (st : State) :
    Host.Outcome State Fault Refusal :=
  .next { st with hub := opPartitionChange unit member ident st.hub }
def execPowerDownRequest (unit : UnitId) (st : State) : Host.Outcome State Fault Refusal :=
  .next { st with hub := opPowerDownRequest unit st.hub }
def execUnitPowerOff (unit : UnitId) (st : State) : Host.Outcome State Fault Refusal :=
  .next { st with hub := opUnitPowerOff unit st.hub }
def execEmergencyPowerOff (unit : UnitId) (st : State) : Host.Outcome State Fault Refusal :=
  .next { st with hub := opEmergencyPowerOff unit st.hub }
def execUnitEvent (unit : UnitId) (code : Byte) (engine : BitVec 4) (data : W32) (st : State) :
    Host.Outcome State Fault Refusal :=
  .next { st with hub := opUnitEvent unit code engine data st.hub }
def execWatchdogExpiry (unit : UnitId) (engine : Nat) (head : Option QueueHead) (st : State) :
    Host.Outcome State Fault Refusal :=
  .next { st with hub := opWatchdogExpiry unit engine head st.hub }
def execWatchdogNotice (unit : UnitId) (st : State) : Host.Outcome State Fault Refusal :=
  .next { st with hub := opWatchdogNotice unit st.hub }
def execNoticeSend (unit : UnitId) (st : State) : Host.Outcome State Fault Refusal :=
  .next { st with hub := opNoticeSend unit st.hub }
def execPendingRetirement (unit : UnitId) (st : State) : Host.Outcome State Fault Refusal :=
  .next { st with hub := opPendingRetirement unit st.hub }

end Sys2Proof.Machine
end

