-- ==== Sys2Proof/Machine/Window.lean ====
section
/-! DEFINITION. An agent's register window (R123, R124, Tables 5-3 to 5-6, 5-10, 5-14, 6-1, 7-4, 9-6, 10-2 to
10-4, 11-6) and its bulk space (R126, Table 5-7). -/

namespace Sys2Proof.Machine

/-! ### Register values -/

/-- AGENT_STATE (Table 5-4). -/
def Agent.stateWord (a : Agent) : Nat :=
  agStateCode a.state + 8 * b2n a.replicaLoaded + 16 * b2n a.shadowValid + 32 * b2n a.gated + 64 * b2n a.powerHold +
    128 * b2n a.late + 256 * a.notices.length

/-- AGENT_ID (Table 5-3). -/
def agentId (u : UnitId) : Nat :=
  u.toNat + (Config.layoutVersion (unitClass u)).toNat * 0x10000 + queueCount u * 0x1000000

/-- PARTITION (Table 5-6). -/
def Agent.partitionWord (a : Agent) : Nat := a.partition.toNat + 64 * b2n a.member

/-- ARMED: bit c while an instant of class c is armed. -/
def Agent.armedWord (a : Agent) : Nat :=
  ((List.range 5).map fun c => b2n (a.armedAt c).isSome * 2 ^ c).foldl (· + ·) 0

/-- LAST_SEQ: byte c is the last accepted SEQ of class c. -/
def Agent.lastSeqWord (a : Agent) : Nat :=
  ((List.range 8).map fun c => (mapGet 0 a.lastSeq c).toNat * 256 ^ c).foldl (· + ·) 0

def Agent.ringHead (a : Agent) : Nat := a.nextSeq.toNat + a.ringSlot * 0x10000
def Agent.ringCut (a : Agent) : Nat := a.cutSeq.toNat + b2n a.cutValid * 0x10000

/-- WDOG_LIMIT (Table 6-1). -/
def Engine.limitWord (g : Engine) : Nat := g.exp.toNat + 256 * b2n g.cmdWatch + 512 * b2n g.queueWatch

/-- TRACE_ACTIVE (Table 9-6). -/
def Engine.traceWord (g : Engine) : Nat := g.trace.toNat + g.kM1.toNat * 0x10000

/-- SOUND_STATUS (Table 11-6). -/
def Agent.soundStatus (a : Agent) : Nat :=
  ((a.taps.filter fun t => t.2.buffer.isSome).map fun t => 2 ^ t.1).foldl (· + ·) 0 + a.discards * 0x10000

/-- STEP_RESULT (Table 7-4). -/
def StepRegs.result (s : StepRegs) : Nat :=
  s.outcome + 128 * b2n s.fenceStall + s.engine.toNat * 0x100000 + s.seq.toNat * 0x1000000

/-- CNT_STATUS (Table 10-3). -/
def Cnt.status (c : Cnt) (queueSat : Bool) : Nat :=
  let sat := c.light.busy == 2 ^ 64 - 1 || c.light.cmds == 2 ^ 64 - 1 || c.light.corr == 2 ^ 64 - 1 ||
    c.light.uncorr == 2 ^ 64 - 1
  b2n queueSat + 2 * b2n sat + 4 * b2n c.loaded + 8 * b2n c.snapLate + c.snapState * 0x100 + c.freezeId.toNat * 0x10000

/-- The 64-bit registers of a window, by the byte offset of the low half. -/
def Agent.reg64 (a : Agent) (u : UnitId) (pt off : Nat) : Option Nat :=
  let light := unitCore u
  let c := (a.settle pt).cnt
  if off = 0x018 then some (a.replica pt)
  else if 0x020 ≤ off ∧ off < 0x048 ∧ off % 8 = 0 then some (((a.armedAt ((off - 0x020) / 8)).map (·.instant)).getD 0)
  else if off = 0x048 then some a.lastSeqWord
  else if off = 0x408 then some c.snapPt
  else if off < 0x410 ∨ 0x480 ≤ off ∨ off % 8 ≠ 0 ∨ !light then none
  else if off < 0x430 then some (c.light.get ((off - 0x410) / 8))
  else if off < 0x450 then some (c.snap.get ((off - 0x430) / 8))
  else if off < 0x470 then some (c.base.get ((off - 0x450) / 8))
  else if off = 0x470 then some c.basePt
  else none

/-- A queue instrument's registers (Table 5-14). -/
def Agent.queueReg (a : Agent) (u : UnitId) (pt q off : Nat) : Option Nat :=
  if queueCount u ≤ q then none else
  let x := a.queue u pt q
  let d := (depthOf u q).toNat
  if off < 0x20 then some (x.bins.getD (off / 4) 0)
  else if off = 0x20 then some (x.hwm + d * 0x10000)
  else if off = 0x24 then some (x.shiftNow d)
  else some 0

/-- A queue snapshot's registers (Table 10-4). -/
def Agent.snapReg (a : Agent) (u : UnitId) (q off : Nat) : Option Nat :=
  if queueCount u ≤ q then none else
  match mapFind a.queueSnaps q with
  | none => some 0
  | some s =>
    let x := s.inst.upTo u q s.cycle
    if off < 0x20 then some (x.bins.getD (off / 4) 0)
    else if off = 0x20 then some (x.hwm + x.shiftNow (depthOf u q).toNat * 0x10000)
    else some 0

/-- The 32-bit registers of a window by byte offset; none for an offset that answers NO_REG. -/
def Agent.reg32 (a : Agent) (u : UnitId) (pt off : Nat) : Option Nat :=
  if off = 0x000 then some (agentId u)
  else if off = 0x004 then some a.stateWord
  else if off = 0x008 then some (a.armMask.toNat + 256 * b2n a.shadowKeep)
  else if off = 0x00C then some a.partitionWord
  else if off = 0x010 then some a.armedWord
  else if off = 0x014 then some a.noticesLost
  else if off = 0x050 then some (b2n a.sramPage)
  else if 0x060 ≤ off ∧ off < 0x070 then
    (if (off - 0x060) / 4 < watchdogCount u then some (a.engine ((off - 0x060) / 4)).limitWord else none)
  else if off = 0x070 then
    (if watchdogCount u = 0 then none
     else some (((List.range 4).map fun e => b2n (a.engine e).expired * 2 ^ e).foldl (· + ·) 0))
  else if off = 0x074 then some a.step.result
  else if off = 0x078 then some (sat32 a.step.elapsed)
  else if off = 0x07C then some a.step.tag.toNat
  else if 0x080 ≤ off ∧ off < 0x090 then
    (if (off - 0x080) / 4 < engineCount u then some (a.engine ((off - 0x080) / 4)).traceWord else none)
  else if 0x090 ≤ off ∧ off < 0x0B0 then
    (if (off - 0x090) / 16 < tapEngines u then some (mapGet 0 a.soundActive ((off - 0x090) / 4)) else none)
  else if off = 0x0B0 then (if tapEngines u = 0 then none else some a.soundStatus)
  else if off = 0x0B4 then (if tapEngines u = 0 then none else some (sat32 a.stall))
  else if off = 0x100 then some a.ringHead
  else if off = 0x104 then some a.ringCut
  else if 0x200 ≤ off ∧ off < 0x400 then a.queueReg u pt ((off - 0x200) / 0x40) ((off - 0x200) % 0x40)
  else if off = 0x400 then some 0
  else if off = 0x404 then some (a.cnt.status (a.queueSat u pt))
  else if 0x500 ≤ off ∧ off < 0x700 then a.snapReg u ((off - 0x500) / 0x40) ((off - 0x500) % 0x40)
  else if 0x800 ≤ off ∧ off < 0x1000 then
    (if Config.unitRegister (unitClass u) off then some (mapGet 0 a.unitRegs off).toNat else none)
  else none

/-! ### Reads and writes -/

/-- Status of an access (Table 4-9). -/
inductive Access where
  | done | noReg | powering | fenced
  deriving DecidableEq, Repr

def Access.code (s : Access) : Nat := match s with | .done => 0 | .noReg => 1 | .powering => 2 | .fenced => 3

/-- Read the window at a byte offset. A read of the low half of a 64-bit register latches the high half, and
the next read of the high half returns the latched value (R12). -/
def Agent.readReg (a : Agent) (u : UnitId) (pt off : Nat) : Access × W32 × Agent :=
  match a.reg64 u pt off with
  | some v =>
    (.done, BitVec.ofNat 32 v, { a with latches := mapInsert a.latches (off + 4) (BitVec.ofNat 32 (v / 2 ^ 32)) })
  | none =>
    match (if off < 4 then none else a.reg64 u pt (off - 4)) with
    | some v =>
      (.done, (mapFind a.latches off).getD (BitVec.ofNat 32 (v / 2 ^ 32)), { a with latches := mapErase a.latches off })
    | none =>
      match a.reg32 u pt off with
      | some v => (.done, BitVec.ofNat 32 v, a)
      | none => (.noReg, 0, a)

/-- The access is fenced: no effect but the event (R124, Table 5-10). -/
def Hub.fence (h : Hub) (u : UnitId) (data : Nat) : Hub := h.modAgent u fun a => a.event u h.pt 0x09 0 data

/-- Write WDOG_LIMIT: the elapsed time is compared with the new limit at once (R141). -/
def Hub.writeLimit (h : Hub) (u : UnitId) (e : Nat) (v : W32) (head : Option QueueHead) : Hub :=
  let h := h.modAgent u fun a =>
    a.setEngine e { a.engine e with queueWatch := v.getLsbD 9, cmdWatch := v.getLsbD 8, exp := v.setWidth 6 }
  h.expireWatchdog u e head

/-- Write WDOG_STATUS: each bit written 1 clears EXPIRED and moves that engine's origin (R141). -/
def Agent.writeExpired (a : Agent) (u : UnitId) (pt : Nat) (v : W32) : Agent :=
  (List.range (watchdogCount u)).foldl (fun (a : Agent) e =>
    if v.getLsbD e then a.setEngine e { a.engine e with expired := false, origin := a.ungatedOf e pt } else a) a

/-- Write AGENT_CTRL; SHADOW_KEEP 0 releases a deferred power-down (R140). -/
def Hub.writeCtrl (h : Hub) (u : UnitId) (v : W32) : Hub :=
  (h.modAgent u fun a => { a with shadowKeep := v.getLsbD 8, armMask := v.setWidth 8 }).releasePower u

/-- A write of a core's or slice's own register that enters a factory memory test mode, which the unit accepts only while
TEST_GATE is high, or that leaves it (R391). -/
def Hub.testModeWrite (h : Hub) (u : UnitId) (off : Nat) (v : W32) : Hub :=
  match if unitCore u then Config.testModeOf (unitClass u) off v else none with
  | some true => if h.island.testGate then h.modAgent u fun a => { a with testMode := true } else h
  | some false => h.modAgent u fun a => { a with testMode := false }
  | none => h

/-- Write the window at a byte offset (R13, R123, R124). -/
def Hub.writeReg (h : Hub) (u : UnitId) (off : Nat) (v : W32) : Access × Hub :=
  let a := h.agent u
  let e := (off - 0x060) / 4
  let q := (off - 0x200) / 0x40
  if 0x800 ≤ off ∧ off < 0x1000 then
    if a.state ≠ .stopped then (.fenced, h.fence u (off / 4))
    else if Config.unitRegister (unitClass u) off then
      (.done, (h.modAgent u fun a => { a with unitRegs := mapSet 0 a.unitRegs off v }).testModeWrite u off v)
    else (.noReg, h)
  else if off = 0x008 then (.done, h.writeCtrl u v)
  else if off = 0x050 then (.done, h.modAgent u fun a => { a with sramPage := v.getLsbD 0 })
  else if 0x060 ≤ off ∧ off < 0x070 ∧ e < watchdogCount u then (.done, h.writeLimit u e v none)
  else if off = 0x070 ∧ watchdogCount u ≠ 0 then (.done, h.modAgent u fun a => a.writeExpired u h.pt v)
  else if 0x200 ≤ off ∧ off < 0x400 ∧ (off - 0x200) % 0x40 = 0x24 ∧ q < queueCount u then
    (.done, h.modAgent u fun a => { a with queues := mapInsert a.queues q { a.queue u h.pt q with shift := some (v.setWidth 4) } })
  else if off = 0x400 then (.done, if v.getLsbD 0 then h.modAgent u fun a => a.clearQueues u h.pt else h)
  else if (a.reg64 u h.pt off).isSome || (decide (4 ≤ off) && (a.reg64 u h.pt (off - 4)).isSome) || (a.reg32 u h.pt off).isSome then
    (.done, h)
  else (.noReg, h)

/-! ### Bulk space -/

/-- A ring entry's 16 octets (Table 5-9). -/
def RingEntry.bytes (e : RingEntry) : List Byte :=
  le 4 e.data.toNat ++ le 8 e.pt ++ le 2 e.seq.toNat ++
    le 2 (e.engine.toNat * 8 + b2n e.untimed * 0x80 + e.code.toNat * 0x100)

/-- The ring's 1,024 octets. -/
def Agent.ringBytes (a : Agent) : List Byte := (List.range 64).flatMap fun k => (mapGet {} a.ring k).bytes

/-- Octets 0 to 59 of the shadow header (Table 5-12). -/
def Shadow.head (s : Shadow) (u : UnitId) : List Byte :=
  le 4 0x44535849 ++ le 2 u.toNat ++ [Config.layoutVersion (unitClass u)] ++
    le 1 (b2n s.complete + 2 * b2n s.late + 4 * b2n s.poweredIn + 8 * b2n s.step) ++ le 8 s.cutPt ++ le 8 s.donePt ++
    le 4 (64 + s.blocks.length) ++ le 2 s.blockCount ++ le 2 s.cutSeq.toNat ++ le 4 s.claim.toNat ++ [s.stopSeq] ++
    zeros 23

/-- A shadow's octets, header and blocks. -/
def Shadow.bytes (s : Shadow) (u : UnitId) : List Byte :=
  let b := s.head u
  b ++ le 4 (crc32c (b ++ s.blocks)).toNat ++ s.blocks

/-- The staging buffer as BULK_RD reads it: the KEY octets of every sounding entry read zero (R126, R276). -/
def Agent.stagingByte (a : Agent) (o : Nat) : Byte :=
  if 0x40 ≤ o ∧ o < 0x240 ∧ 32 ≤ (o - 0x40) % 64 ∧ (o - 0x40) % 64 < 48 then 0 else mapGet 0 a.staging o

/-- A byte of unit SRAM; undefined contents are free values (R391, log entry 8). -/
def Agent.sramByte (a : Agent) (u : UnitId) (o : Nat) : Byte :=
  (mapFind a.sram o).getD (Config.lostSram (ordinalOf u) a.sramLost o)

/-- `n` octets of bulk space at a byte address, a read that lies in one region (Table 5-7). -/
def Agent.bulkGet (a : Agent) (u : UnitId) (addr n : Nat) : Access × List Byte :=
  let page := if a.sramPage then 0x80000 else 0
  if addr + n ≤ 0x10000 then
    if addr + n ≤ shadowSize u then
      (.done, ((fit (shadowSize u) ((a.shadow.map fun s => s.bytes u).getD [])).drop addr).take n)
    else (.noReg, zeros n)
  else if 0x10000 ≤ addr ∧ addr + n ≤ 0x10400 then (.done, (a.ringBytes.drop (addr - 0x10000)).take n)
  else if 0x18000 ≤ addr ∧ addr + n ≤ 0x19000 then
    (.done, (List.range n).map fun i => a.stagingByte (addr - 0x18000 + i))
  else if 0x80000 ≤ addr ∧ addr + n ≤ 0x100000 ∧ addr - 0x80000 + page + n ≤ sramSize u then
    if a.state = .stopped then (.done, (List.range n).map fun i => a.sramByte u (addr - 0x80000 + page + i))
    else (.fenced, zeros n)
  else (.noReg, zeros n)

/-- BULK_RD: a fenced read writes an event (Table 5-10). -/
def Hub.bulkRead (h : Hub) (u : UnitId) (addr n : Nat) : Access × List Byte × Hub :=
  let r := (h.agent u).bulkGet u addr n
  (r.1, r.2, if r.1 = .fenced then h.fence u (addr / 8 + 2 ^ 31) else h)

/-- Octets written into a sparse store whose unlisted bytes are not zero: every one is listed. -/
def sramWrite : SMap Byte → Nat → List Byte → SMap Byte
  | m, _, [] => m
  | m, a, b :: bs => sramWrite (mapInsert m a b) (a + 1) bs

/-- A unicast BULK_WR (Table 5-7). -/
def Hub.bulkWrite (h : Hub) (u : UnitId) (addr : Nat) (data : List Byte) : Access × Hub :=
  let a := h.agent u
  let n := data.length
  let page := if a.sramPage then 0x80000 else 0
  if 0x18000 ≤ addr ∧ addr + n ≤ 0x19000 then (.done, h.modAgent u fun a => a.stage (addr - 0x18000) data)
  else if 0x80000 ≤ addr ∧ addr + n ≤ 0x100000 ∧ addr - 0x80000 + page + n ≤ sramSize u then
    if a.state = .stopped then
      (.done, h.modAgent u fun a => { a with sram := sramWrite a.sram (addr - 0x80000 + page) data })
    else (.fenced, h.fence u (addr / 8 + 2 ^ 31))
  else (.noReg, h)

/-! ### Register writes with a behaviour of their own -/

/-- A write that reaches a unit's agent. -/
def Hub.agentWrite (h : Hub) (u : UnitId) (off : Nat) (v : W32) : Hub :=
  if unitHasAgent u && (h.agent u).powered then (h.writeReg u off v).2 else h

def opWdogStatusWrite (unit : UnitId) (value : W32) (h : Hub) : Hub := h.agentWrite unit 0x070 value

/-- WDOG_LIMIT_WRITE, with the command at the head of the engine's queue, where there is one. -/
def opWdogLimitWrite (unit : UnitId) (engine : Nat) (value : W32) (head : Option QueueHead) (h : Hub) : Hub :=
  if unitHasAgent unit && (h.agent unit).powered && decide (engine < watchdogCount unit) then
    h.writeLimit unit engine value head
  else h

def opClearQueues (unit : UnitId) (value : W32) (h : Hub) : Hub := h.agentWrite unit 0x400 value

def opShadowKeepWrite (unit : UnitId) (value : W32) (h : Hub) : Hub := h.agentWrite unit 0x008 value

/-! ### Meanings -/

def execWdogStatusWrite (unit : UnitId) (value : W32) (st : State) : Host.Outcome State Fault Refusal :=
  .next { st with hub := opWdogStatusWrite unit value st.hub }
def execWdogLimitWrite (unit : UnitId) (engine : Nat) (w : LimitWrite) (st : State) : Host.Outcome State Fault Refusal :=
  .next { st with hub := opWdogLimitWrite unit engine w.value w.head st.hub }
def execClearQueues (unit : UnitId) (value : W32) (st : State) : Host.Outcome State Fault Refusal :=
  .next { st with hub := opClearQueues unit value st.hub }
def execShadowKeepWrite (unit : UnitId) (value : W32) (st : State) : Host.Outcome State Fault Refusal :=
  .next { st with hub := opShadowKeepWrite unit value st.hub }

end Sys2Proof.Machine
end

