-- ==== Sys2Proof/Machine/AgentActs.lean ====
section
/-! DEFINITION. What an agent does when an armed instant is reached, or when a broadcast is accepted after its
instant: STOP (R132, R137, R138), FREEZE (R252, R254), STEP (R173 to R179), RESUME (R182) and COMMIT (R230,
R277). -/

namespace Sys2Proof.Machine

/-! ### FREEZE -/

/-- Copy every counter into the snapshot (R252). -/
def Agent.snapshot (a : Agent) (u : UnitId) (pt : Nat) (id : W16) (state : Nat) (late : Bool) : Agent :=
  let qs := a.queuesAtEdge pt
  let snaps := (List.range (queueCount u)).map fun q => (q, { inst := mapGet {} qs q, cycle := a.cycles pt })
  let c := { a.cnt with snap := a.cnt.light, snapPt := pt, freezeId := id, snapState := state, snapLate := late,
                        refused := false }
  { a with queueSnaps := snaps, cnt := c }

/-- A FREEZE at its snapshot edge (Table 10-6). -/
def Agent.freezeNow (a : Agent) (u : UnitId) (pt : Nat) (arg : W32) (late : Bool) : Agent :=
  let a := (a.settle pt).disarm 1
  let mode := bits arg.toNat 31 30
  let id : W16 := BitVec.ofNat 16 (bits arg.toNat 15 0)
  if mode = 3 then a
  else if a.cnt.snapState = 2 then
    if mode = 2 then { a with cnt := { a.cnt with snapState := 1, refused := false } }.ringWrite pt 0x06 0 1
    else { a with cnt := { a.cnt with refused := true } }.ringWrite pt 0x06 0 1
  else if mode = 2 then { a with cnt := { a.cnt with refused := false } }.ringWrite pt 0x06 0 1
  else (a.snapshot u pt id (mode + 1) late).ringWrite pt 0x06 0 1

/-- A FREEZE at its snapshot edge, with the tagged push of a new snapshot of a core or slice (R252). -/
def Hub.agentFreeze (h : Hub) (u : UnitId) (arg : W32) (late : Bool) : Hub :=
  let a := h.agent u
  let taken := decide (a.cnt.snapState ≠ 2) && decide (bits arg.toNat 31 30 < 2)
  let a := a.freezeNow u h.pt arg late
  if !taken || !unitCore u then h.setAgent u a
  else
    let p : TaggedPush := { incr := a.cnt.unpushed, freezeId := BitVec.ofNat 32 (bits arg.toNat 15 0), snapPt := h.pt,
                            late := late, state := bits arg.toNat 31 30 + 1 }
    h.setAgent u { a with cnt := { a.cnt with unpushed := {}, tagged := a.cnt.tagged ++ [p] } }

/-! ### COMMIT -/

/-- A TRACE_SET entry of the staging buffer (Table 9-5). -/
def Agent.traceEntry (a : Agent) (e : Nat) : Nat := leNat (memRead a.staging (traceEntryAddr e) 8)

/-- Clear the CHANGE bit of what has been applied (log entry 24). -/
def Agent.unstage (a : Agent) (addr : Nat) (mask : Byte) : Agent :=
  { a with staging := memSet a.staging addr (memByte a.staging addr &&& ~~~ mask) }

/-- The mirror follows a source's settings; a disabled source closes at Tc, an enabled one starts counting anew
(R230, R232). -/
def Mirror.follow (m : Mirror) (trace : BitVec 5) (kM1 : BitVec 12) (pt : Nat) : Mirror :=
  let was := m.trace.getLsbD 0
  let now := trace.getLsbD 0
  let m := { m with trace := trace, kM1 := kM1 }
  if was && !now then { m with closing := some (0, pt) }
  else if !was && now then { m with written := 0, drops := 0 }
  else m

/-- Apply the trace entry of engine `e` where CHANGE is set (R230, R231). -/
def Hub.commitTrace (h : Hub) (u : UnitId) (pt e : Nat) : Hub :=
  let a := h.agent u
  let v := a.traceEntry e
  if !bit v 28 then h else
  let trace : BitVec 5 := BitVec.ofNat 5 v
  let k : BitVec 12 := BitVec.ofNat 12 (bits v 27 16)
  let g := a.engine e
  let run := g.running.map fun (r : RunningCmd) => { r with traced := false, sampled := false }
  let a := (a.setEngine e { g with trace := trace, kM1 := k, begun := 0, running := run }).unstage (traceEntryAddr e + 3) 0x10
  let c := h.collector (collectorOf u)
  let key := (sourceOf u e).toNat
  let m := mapSet {} c.mirrors key ((mapGet {} c.mirrors key).follow trace k pt)
  (h.setAgent u a).setCollector (collectorOf u) { c with mirrors := m }

/-- The tap slot a staged sounding entry describes (Table 11-5). -/
def slotOfBytes (b : List Byte) : TapSlot :=
  { sounding := (b.getD 0 0).toNat, format := b.getD 1 0, ctrl := b.getD 2 0,
    stats := BitVec.ofNat 16 (leNat ((b.drop 4).take 2)), expBase := b.getD 6 0, shifts := b.getD 7 0,
    scaleBase := b.getD 8 0, selA := BitVec.ofNat 64 (leNat ((b.drop 16).take 8)),
    selB := BitVec.ofNat 64 (leNat ((b.drop 24).take 8)), key := (b.drop 32).take 16 }

/-- A slot is disarmed: it processes no more beats, and its accumulators wait for the final posting's edge, so that a
posting still being collected keeps its buffer (R279, R281). -/
def TapSlot.disarm (t : TapSlot) : TapSlot := { t with ctrl := t.ctrl &&& 0xFE }

/-- A slot is armed on an engine: a selected command that is running counts as open from here on (Table 11-3). -/
def TapSlot.arm (t : TapSlot) (g : Engine) : TapSlot :=
  match g.running with
  | some r => if t.selectsTag r.tag then { t with openTag := some r.tag, acc := t.acc.noteTag r.tag } else t
  | none => t

/-- Apply the sounding entry of slot `k` where CHANGE is set (R277, R279). -/
def Hub.commitSound (h : Hub) (u : UnitId) (k : Nat) : Hub :=
  let a := h.agent u
  let addr := 0x40 + 64 * k
  let b := memRead a.staging addr 64
  let ctrl := b.getD 2 0
  if !ctrl.getLsbD 7 then h else
  let t : TapSlot := { slotOfBytes b with ctrl := ctrl &&& 0x7F }
  let taps := if ctrl.getLsbD 0 then mapInsert a.taps k (t.arm (a.engine (k / 4)))
              else match mapFind a.taps k with
                | some t => mapInsert a.taps k t.disarm
                | none => a.taps
  let a := { a with taps := taps, soundActive := mapSet 0 a.soundActive k t.word }.unstage (addr + 2) 0x80
  let c := h.collector (collectorOf u)
  let key := 8 * ordinalOf u + k
  let m := if ctrl.getLsbD 0 then mapInsert c.taps key t
           else mapErase c.taps key
  (h.setAgent u a).setCollector (collectorOf u) { c with taps := m }

/-- A COMMIT at its instant, whose PT the settings take (R232): argument bit 0 TRACE, bit 1 SOUND (R229, R275). Applying takes at most 2 us
(R127). -/
def Hub.agentCommit (h : Hub) (u : UnitId) (arg : W32) (instant : Nat) : Hub :=
  let t := if instant = 0 then h.pt else instant
  let h := h.modAgent u fun a => { (a.disarm 4).ringWrite h.pt 0x06 0 4 with applyUntil := h.pt + 2000 }
  let h := if arg.getLsbD 0 then (List.range (engineCount u)).foldl (fun h e => h.commitTrace u t e) h else h
  if arg.getLsbD 1 then (List.range (4 * tapEngines u)).foldl (fun h k => h.commitSound u k) h else h

/-! ### STOP, STEP, RESUME -/

/-- A STOP at its instant, or accepted after it: a Running agent gates; in every other state nothing changes
but ACTED (Tables 5-1, 6-8). -/
def Agent.stopAct (a : Agent) (u : UnitId) (pt : Nat) (x : Armed) (late : Bool) : Agent :=
  let a := a.disarm 0
  if a.state = .running then a.stopNow u pt x late else a.ringWrite pt 0x06 0 0

/-- The engine a command step runs, MODE and DURATION of a STEP argument (Table 7-2). -/
def stepEngine (arg : W32) : Nat := bits arg.toNat 23 20
def stepIsCommand (arg : W32) : Bool := arg.getLsbD 16
def stepDuration (arg : W32) : Nat := bits arg.toNat 15 0

/-- A Stopped agent begins a step (R173, R178). -/
def Agent.beginStep (a : Agent) (u : UnitId) (pt : Nat) (x : Armed) : Agent :=
  let cmd := stepIsCommand x.arg
  let e := stepEngine x.arg
  let d := stepDuration x.arg
  if d = 0 then a
  else if cmd && decide (3 < unitClass u) then { a with step := { a.step with outcome := 5 } }
  else
    let tag := if cmd then (((a.engine e).running).map (·.tag)).getD 0 else 0
    let r : StepRun := { command := cmd, engine := BitVec.ofNat 4 e, startPt := pt,
                         endPt := x.instant + (if cmd then 1000 * d else d), claim := x.claim, seq := x.seq }
    let a := a.ungate pt
    let a := if cmd then a else { a with selfRefresh := false, chipHeld := unitClass u == 6 && decide (d < 320) }
    let a := { a with shadowValid := false, stepRun := some r, step := { a.step with tag := tag, engine := BitVec.ofNat 4 e } }
    (a.setState u pt .stepping).ringWrite pt 0x06 0 2

/-- A STEP at its instant (Table 5-1). -/
def Agent.stepAct (a : Agent) (u : UnitId) (pt : Nat) (x : Armed) : Agent :=
  let a := a.disarm 2
  match a.state with
  | .stopped => a.beginStep u pt x
  | .stopping => a.ringWrite pt 0x05 0 2
  | _ => a

/-- The watchdogs of the engines that stayed gated in a command step have counted nothing (R141). -/
def Agent.skipOthers (a : Agent) (u : UnitId) (pt : Nat) : Agent :=
  (List.range (engineCount u)).foldl (fun (a : Agent) e =>
    if a.heldOff e then a.setEngine e { a.engine e with origin := (a.engine e).origin + (pt - a.ungateSince) } else a) a

/-- The end of a step: the unit gates again and is rescanned (R174, R175, R179). Only a cycle step makes a new
cut with new markers. -/
def Agent.endStep (a : Agent) (u : UnitId) (pt : Nat) (r : StepRun) (outcome : Nat) (stall : Bool) : Agent :=
  let x : Armed := { instant := r.endPt, arg := 0, claim := r.claim, seq := r.seq }
  let a := ((a.skipOthers u pt).cutNow pt x true false).holdMemory u
  let a := if r.command then { a with cut := a.cut.map fun (c : CutInfo) => { c with closed := true } } else a.openPorts u pt true
  let stall := stall || (r.command && a.outbound.any fun q => q.1 == r.engine.toNat)
  let a := { a with stepRun := none, step := { a.step with outcome := outcome, fenceStall := stall, elapsed := pt - r.startPt } }
  a.setState u pt .stopped

/-- The end of a command step as its engine's command ends or is dropped (R179). -/
def Agent.endCommandStep (a : Agent) (u : UnitId) (pt e outcome : Nat) : Agent :=
  match a.stepRun with
  | some r => if r.command ∧ r.engine.toNat = e then a.endStep u pt r outcome false else a
  | none => a

/-- The cut markers a unit sends at its gating edge (R154): one on every port, with EARLY_SEEN where the peer's marker
came first on that port. On a scale-out link they name the pod-wide stop, elsewhere the broadcast; at the end of a step
they name the STEP everywhere (R174). Which ports of a link unit belong to its scale-out link is not given (log entry 148). -/
def Hub.sendMarkers (h : Hub) (u : UnitId) (x : Armed) (late step : Bool) : Hub :=
  let a := h.agent u
  let early := (a.ports.filter fun p => p.2.marker.isSome && decide (p.2.arrivalPt < h.pt)).map (·.1)
  let m : CutMarker := { identity := x.claim, seq := x.seq.setWidth 32, instant := x.instant, gatePt := h.pt,
                         late := late || x.arg.getLsbD 20, earlySeen := false }
  let n : W32 × W32 := if step then (m.identity, m.seq) else
    (h.stops.newest.map fun (s : StopInfo) => (s.initiator.setWidth 32, s.podId)).getD (0, 0)
  let send (h : Hub) (scaleOut : Bool) (ps : List Nat) (m : CutMarker) : Hub :=
    (ps.foldl (fun h p => h.emit (.marker u scaleOut (some p) { m with earlySeen := true })) h).emit (.marker u scaleOut none m)
  if unitClass u = 7 ∧ unitIndex u < 16 then
    let out := early.filter fun p => Config.scaleOutPort (unitIndex u) p
    send (send h false (early.filter fun p => !Config.scaleOutPort (unitIndex u) p) m) true out { m with identity := n.1, seq := n.2 }
  else send h false early m

/-- A STOP at an agent: a Running one gates and sends its markers. -/
def Hub.agentStop (h : Hub) (u : UnitId) (x : Armed) (late : Bool) : Hub :=
  let runs := (h.agent u).state == .running
  let h := h.modAgent u fun a => a.stopAct u h.pt x late
  if runs then h.sendMarkers u x late false else h

/-- A RESUME at its instant (R182, Table 5-1). -/
def Agent.resumeAct (a : Agent) (u : UnitId) (pt : Nat) : Agent :=
  let a := a.disarm 3
  match a.state with
  | .stopped =>
    let a := a.ungate pt
    let a := { a with shadowValid := false, cutValid := false, cut := none, ports := [],
                      selfRefresh := false, chipHeld := false }
    (a.setState u pt .running).ringWrite pt 0x06 0 3
  | .stopping => a.ringWrite pt 0x05 0 3
  | _ => a

end Sys2Proof.Machine
end

