-- ==== Sys2Proof/Machine/Hang.lean ====
section
/-! DEFINITION. Hang declaration and the consistent stop (R144 to R163): the opcodes, POD_STOP, and what the
agents and their cut checkers do. -/

namespace Sys2Proof.Machine

/-! ### Hang log (R144 to R146) -/

/-- A hang log entry's 32 octets (Table 6-2). -/
def HangEntry.bytes (e : HangEntry) : List Byte :=
  le 8 e.pt ++ le 4 e.hangId.toNat ++ le 2 e.unit.toNat ++ [e.engine, e.cause] ++ le 4 e.data.toNat ++
    le 4 e.session.toNat ++ le 4 e.stopId.toNat ++ zeros 4

/-- The log oldest first, unused entries zero and last (R146). -/
def Stops.logBytes (s : Stops) : List Byte := fit 512 (s.log.flatMap HangEntry.bytes)

/-- DECLARE_HANG (R144); with TRIGGER_ON_HANG it would arm a trigger at a PT instant, which a measurement refuses (R79,
R226). -/
def opDeclareHang (hdr : Hdr) (reason : W32) (h : Hub) : Hub :=
  h.icp 0x0300 hdr fun h =>
    if h.measuring && h.trace.onHang then h.badState 0x0300 hdr else
    let h := h.declareHang 3 0 0 reason hdr.session
    h.ok 0x0300 hdr (le 4 h.stops.hangId.toNat)

def opHangStatus (hdr : Hdr) (h : Hub) : Hub :=
  h.icp 0x0303 hdr fun h =>
    let s := h.stops
    h.ok 0x0303 hdr ([] |> put 1 (b2n s.declared) |> put 1 s.podOutcome |> put 2 s.lost |> putBytes (zeros 4) |>
      putBytes s.logBytes)

def opHangClear (hdr : Hdr) (h : Hub) : Hub :=
  h.icp 0x0304 hdr fun h => { h with stops.declared := false }.ok 0x0304 hdr []

/-! ### HANG_STOP (R145 to R149) -/

/-- Units of a stop's scope that the hub holds Unreachable (R30, R157). -/
def Hub.unreachIn (h : Hub) (sc : Scope) (us : List UnitId) : Nat :=
  ((h.poweredUnits).filter fun u => h.inScope sc us u && h.presence u == 3).length

/-- Units of a scope that a COLLECT expects (R108). -/
def Hub.expectedIn (h : Hub) (sc : Scope) (us : List UnitId) : Nat :=
  (h.notAbsent.filter fun u => h.inScope sc us u).length

/-- The value of a combine result, 0 while it is not in. -/
def resultValue (r : Option Reduced) : Nat := (r.map fun x => x.value.toNat).getD 0

/-- MISSING of a combine result; where it is not in, nothing has been counted (Table 16-5). -/
def Hub.missingOf (h : Hub) (sc : Scope) (us : List UnitId) (r : Option Reduced) : Nat :=
  match r with
  | some x => x.missing
  | none => h.expectedIn sc us

/-- The reply of HANG_STOP (R157, Table 16-5). -/
def Hub.stopBody (h : Hub) (n : StopInfo) : List Byte :=
  let missing := max (h.missingOf n.scope n.units n.states) (h.missingOf n.scope n.units n.valid)
  [] |> put 8 n.t |> put 4 n.stopId.toNat |> put 8 (resultValue n.states) |> put 2 (resultValue n.valid) |>
    put 2 n.lateCount |> put 2 (h.unreachIn n.scope n.units) |> put 2 missing |> put 4 n.openLinks |>
    put 4 n.violating

/-- Note a pair of a pod-wide stop; the latest 16 are kept (R163). -/
def Stops.notePair (s : Stops) (p : W16 × W32) : Stops :=
  let l := s.podPairs ++ [p]
  { s with podPairs := l.drop (l.length - 16) }

/-- The initiator sends POD_STOP on every scale-out link that is up (R162). -/
def Hub.startPod (h : Hub) (t : Nat) : Hub :=
  let id := h.stops.stopId
  let m : PodStopMsg := { initiator := h.ident.chipId, hops := 0, test := h.island.decoded == some .test,
                          stopId := id, t := BitVec.ofNat 64 t }
  let s := h.stops.notePair (h.ident.chipId, id)
  { h with stops := { s with newest := s.newest.map fun (n : StopInfo) => { n with podId := id } } }.ctlAll none 0x10
    (podStopBytes m)

def opHangStop (hdr : Hdr) (t : W64) (pod : Byte) (sb : ScopeBlock) (h : Hub) : Hub :=
  h.icp 0x0301 hdr fun h =>
    let isPod := pod == 1
    if 1 < pod.toNat then h.badArg 0x0301 hdr 8 else
    match scopeFault sb 9 with
    | some o => h.badArg 0x0301 hdr o
    | none =>
    if h.island.decoded == some .production && !h.stops.declared then h.answer 0x0301 hdr .notHung []
    else if h.measuring then h.badState 0x0301 hdr
    else
      match leadInstant h.stopIssueAt (if isPod then 25000 else 200) 30000 t.toNat with
      | none => h.badArg 0x0301 hdr 0
      | some at_ =>
        let sc := if isPod then (Scope.chip, []) else scopeOf sb (h.session hdr.session)
        let h := h.issueStop at_ sc.1 sc.2 isPod false (if isPod then h.ident.chipId else 0)
        let h := if isPod then h.startPod at_ else h
        h.occupy 0x0301 hdr .stop

/-- A stop waits for its confirmation: HANG_STOP executes, or a stop without a reply (R150). -/
def Hub.stopWaits (h : Hub) : Bool :=
  h.stops.confirming || (match h.slot with | some e => decide (e.prog = .stop) | none => false)

/-- At T + 1.9 us the hub issues the confirming COLLECTs (Table 6-6). -/
def Hub.confirmStop (h : Hub) : Hub :=
  match h.stops.newest with
  | none => h
  | some n =>
    if !h.stopWaits || n.collected || decide (h.pt < n.t + 1900) then h else
    let h := { h with stops.newest := some { n with collected := true } }
    (h.collect 2 0x0001 n.scope (n.t + 2100) 1 .states).collect 2 0x0002 n.scope (n.t + 2100) 1 .valid

/-- Records whose hang-stop has completed leave Handling (Table 13-4). -/
def Hub.endStopHandling (h : Hub) : Hub :=
  let done := h.fc.all.filter fun r => r.handling && r.performed == 3
  { h with fc := done.foldl (fun (f : Fc) r => f.endHandling h.pt r.seq) h.fc }

/-- STOP_COMPLETE: at T + 4 us, whether or not every agent has captured (R158). -/
def opStopComplete (h : Hub) : Hub :=
  match h.stops.newest with
  | none => h
  | some n =>
    if n.complete || decide (h.pt < n.t + 4000) then h else
    let h := { h with stops.newest := some { n with complete := true }, stops.confirming := false }
    let h := h.endStopHandling
    match h.slot with
    | some e => if e.prog = .stop then h.conclude .ok (h.stopBody n) else h
    | none => h

/-! ### STOP_CANCEL (Table 6-8) -/

/-- STOP_CANCEL: CANCEL for class 0 to the chip; the states are counted in the scope of the most recent stop. -/
def opStopCancel (hdr : Hdr) (h : Hub) : Hub :=
  h.icp 0x0302 hdr fun h =>
    let sc : Scope × List UnitId := match h.stops.newest with | some n => (n.scope, n.units) | none => (.chip, [])
    let h := h.issue 6 .chip 0 0
    let h := { h with stops.standing := h.stops.standing.filter fun s => decide (s.1 ≤ h.pt) }
    ((h.maskFor 0 sc.1 sc.2).collect 2 0x0001 sc.1 0 h.dcn.timeoutUs .cancelled).occupy 0x0302 hdr .cancel

/-! ### POD_STOP (R162, R163) -/

/-- The opcode table permits HANG_STOP in the life-cycle state the chip has. -/
def Hub.stopsInState (h : Hub) : Bool := (h.island.decoded.map States.live.has).getD false

/-- ns from the receipt of a POD_STOP to the earliest issue of its STOP, by the active Abutment's state then: the end of the
bound of Table 6-12 for one that is asleep or in low-speed mode (log entry 147). -/
def Hub.abutmentDelay (h : Hub) : Nat :=
  if h.asleep then 12300 else if (h.red.ctrl h.red.holder).fast then 0 else 2300

/-- A POD_STOP that is acted on: the hang, the forwarding, and the chip's own stop, on time or Late. -/
def Hub.actPodStop (h : Hub) (link : Nat) (m : PodStopMsg) : Hub :=
  let ready := h.pt + h.abutmentDelay
  let h := h.wakeWork
  let h := { h with stops := h.stops.notePair (m.initiator, m.stopId) }
  let h := h.declareHang 4 0 0 (BitVec.ofNat 32 (m.initiator.toNat + m.hops.toNat * 0x10000)) 0
  let on : PodStopMsg := { m with hops := BitVec.ofNat 8 (sat8 (m.hops.toNat + 1)) }
  let h := h.ctlAll (some link) 0x10 (podStopBytes on)
  if !h.stopsInState then h else
  let h := { h with dcn.readyPt := ready }
  let i := h.stopIssueAt
  let late := decide (m.t.toNat < i + 200)
  let h := h.issueStop (if late then i + 200 else m.t.toNat) .chip [] true late m.initiator
  { h with stops := { h.stops with
      confirming := true, newest := h.stops.newest.map fun (n : StopInfo) => { n with podId := m.stopId } } }

def opPodStop (link : Nat) (m : PodStopMsg) (h : Hub) : Hub :=
  if h.pt + 1000000000 < m.t.toNat then { h with stops.podDiscards := sat32 (h.stops.podDiscards + 1) }
  else if h.stops.podPairs.contains (m.initiator, m.stopId) then h
  else h.actPodStop link m

/-! ### Acceptance of a broadcast (R98 to R103, R138) -/

/-- A CANCEL at an agent (R100): an instant not yet reached is disarmed. -/
def Agent.cancel (a : Agent) (pt cls : Nat) : Agent × Bool :=
  match a.armedAt cls with
  | some x =>
    if !a.replicaLoaded || decide (pt < x.instant) then ((a.disarm cls).ringWrite pt 0x07 0 cls, true) else (a, false)
  | none => (a, false)

/-- An agent whose FREEZE a CANCEL has disarmed is noted, so that its bank entry says so (R255). -/
def Hub.noteCancel (h : Hub) (u : UnitId) (x : Armed) : Hub :=
  match h.arrays.freezeOf x.arg with
  | some f => { h with arrays := h.arrays.setFreeze { f with cancelled := insertNat (ordinalOf u) f.cancelled } }
  | none => h

/-- The effect of class `cls` at its instant, or at receipt where the instant has passed (R138). -/
def Hub.actNow (h : Hub) (u : UnitId) (cls : Nat) (x : Armed) (late : Bool) : Hub :=
  match cls with
  | 0 => (h.modAgent u fun a => { a with late := late }).agentStop u x late
  | 1 => h.agentFreeze u x.arg late
  | 2 =>
    if late then h.modAgent u fun a => { a.disarm 2 with step := { a.step with outcome := 6 } }
    else h.modAgent u fun a => a.stepAct u h.pt x
  | 3 => (h.modAgent u fun a => a.resumeAct u h.pt).releasePower u
  | _ => h.agentCommit u x.arg x.instant

/-- An accepted broadcast of class 0 to 4: armed, or acted on where its instant has passed or is 0. -/
def Hub.takeTimed (h : Hub) (u : UnitId) (cls : Nat) (x : Armed) : Hub :=
  let a := h.agent u
  let passed := a.replicaLoaded && decide (x.instant < h.pt)
  if x.instant = 0 then h.actNow u cls x false
  else if passed then (h.modAgent u fun a => a.lateEvent u h.pt cls x.instant).actNow u cls x true
  else h.modAgent u fun a =>
    let a := if cls = 0 then { a with late := false } else a
    a.arm cls x

/-- SAFE at an agent: armed STEP, RESUME and COMMIT are disarmed, STOP and FREEZE stay (Table 13-7). -/
def Agent.safe (a : Agent) (pt : Nat) : Agent :=
  [2, 3, 4].foldl (fun (a : Agent) c => if (a.armedAt c).isSome then (a.disarm c).ringWrite pt 0x07 0 c else a) a

/-- A broadcast that is no COLLECT and that the agent accepts, its SEQ and the event written. -/
def Hub.accepted (h : Hub) (u : UnitId) (b : Bcast) : Hub :=
  let x : Armed := { instant := b.instant, arg := b.arg, claim := b.claim, seq := b.seq }
  let h := h.modAgent u fun a =>
    let a := { a with lastSeq := mapInsert a.lastSeq b.cls b.seq }.ringWrite h.pt 0x04 0 (b.cls + 8 * b.seq.toNat)
    if b.cls = 2 then { a with step := { a.step with seq := b.seq, outcome := 0 } } else a
  match b.cls with
  | 5 => h
  | 6 =>
    let cls := b.arg.toNat % 8
    let r := (h.agent u).cancel h.pt cls
    match (if r.2 && cls == 1 then (h.agent u).armedAt 1 else none) with
    | some y => (h.setAgent u r.1).noteCancel u y
    | none => h.setAgent u r.1
  | 7 => h.modAgent u fun a => a.safe h.pt
  | _ => h.takeTimed u b.cls x

/-- An agent that is not Absent receives the COLLECT of a combine once its SEQ is accepted (R103, R108): it notes whether
it lies in its scope; an INSTANT that has passed is an event (R109). -/
def Hub.collectReceipt (h : Hub) (c : Combine) (u : UnitId) : Hub × Combine :=
  let a := h.agent u
  let inSc := a.inScope u c.scope 5
  let a := { a with lastSeq := mapInsert a.lastSeq 5 c.seq }
  let a := if inSc then a.ringWrite h.pt 0x04 0 (5 + 8 * c.seq.toNat) else a
  let c := { c with received := c.received ++ [(u, inSc)] }
  let late := a.replicaLoaded && decide (c.instant ≠ 0) && decide (c.instant < h.pt)
  ((h.setAgent u (if late then a.ringWrite h.pt 0x05 0 5 else a)).setCombine c, c)

/-- The combine of the COLLECT with a SEQ. -/
def Hub.combineOfSeq (h : Hub) (seq : Byte) : Option Combine :=
  (h.dcn.combines ++ h.dcn.ended).find? fun c => c.seq == seq && c.issuer != .multicast

/-- A broadcast comes down to an agent: from the active root, SAFE from the root of the agent's own half (Table 13-7). -/
def Hub.comesDown (h : Hub) (u : UnitId) (cls : Nat) : Bool :=
  if cls = 7 then (h.link (.agent (ordinalOf u))).up && h.bayUp (halfOf u) (attachPier u) (attachBay u) && h.dcnOn (halfOf u)
  else h.pathUp u

/-- BCAST_ACCEPT: one broadcast of the hub reaches one agent once it has left the active root (R103); a broadcast outside
the agent's scope is ignored (R98), but a COLLECT, which it answers all the same (R108). Nothing goes to a retired unit
(R30). -/
def opBcastAccept (unit : UnitId) (cls : BitVec 3) (seq : Byte) (h : Hub) : Hub :=
  match h.dcn.issued.find? fun b => b.cls == cls.toNat && b.seq == seq && (b.root.getD (halfOf unit)) == halfOf unit with
  | none => h
  | some b =>
    let a := h.agent unit
    if !unitHasAgent unit || h.retired unit || !a.powered || !h.comesDown unit b.cls || !a.takesSeq b.cls seq || decide (h.pt < b.issuePt) then h
    else if b.cls = 5 then
      match h.combineOfSeq seq with
      | some c => (h.collectReceipt c unit).1
      | none => h
    else if a.inScope unit b.scope b.cls then h.accepted unit b
    else h

/-! ### The stop at an agent (R132, R134, R137) -/

/-- The armed instant of a class, where it has been reached on the agent's replica. -/
def Hub.dueAt (h : Hub) (u : UnitId) (cls : Nat) : Option Armed :=
  let a := h.agent u
  match a.armedAt cls with
  | some x => if a.powered && a.replicaLoaded && decide (x.instant ≤ h.pt) then some x else none
  | none => none

def opStopInstant (unit : UnitId) (h : Hub) : Hub :=
  match h.dueAt unit 0 with
  | none => h
  | some x => h.agentStop unit x false

/-! ### Cut checkers (R154 to R156) -/

/-- The gating edge of the cut whose ports are open, or have been. -/
def Agent.checkerGate (a : Agent) : Option CutInfo :=
  match a.cut with
  | some c => if c.closed then none else some c
  | none => none

/-- CUT_MARKER_ARRIVAL: a marker before the port's gating edge is kept for the port to open with, or, at a unit without a
checker, for EARLY_SEEN of its own marker (R154); at a checker the first one up to its close counts. -/
def opCutMarkerArrival (unit : UnitId) (port : Nat) (m : CutMarker) (h : Hub) : Hub :=
  let a := h.agent unit
  if !a.powered || decide (64 ≤ port) then h else
  let p := mapGet {} a.ports port
  let put (p : CutPort) : Hub := h.setAgent unit { a with ports := mapSet {} a.ports port p }
  if !a.gated && a.stepOnly.isNone then
    (if p.gatePt.isNone && p.marker.isSome then h else put { marker := some m, arrivalPt := h.pt })
  else if !hasChecker unit then h
  else
    match a.checkerGate with
    | none => h
    | some c =>
      if p.closed || p.marker.isSome || decide (c.pt + 1500 < h.pt) then h
      else put { p with gatePt := some c.pt, opened := true, step := c.step, marker := some m, arrivalPt := h.pt }

/-- A signed difference of two PTs in 32 bits, saturating at 2^31 − 1 in magnitude (R156). -/
def sat31 (a b : Nat) : Nat :=
  let lim := 2 ^ 31 - 1
  if b ≤ a then min lim (a - b) else 2 ^ 32 - min lim (b - a)

/-- MISMATCH (Table 6-5): the identity, SEQ and INSTANT of the marker against this end's; at the end of a step those of the
STEP on every link (R174). -/
def Hub.markerDiffers (h : Hub) (c : CutInfo) (peerKind : Nat) (m : CutMarker) : Bool :=
  let own : W32 × W32 :=
    if peerKind = 2 ∧ c.step = false then
      match h.stops.newest with
      | some n => (n.initiator.setWidth 32, n.podId)
      | none => (0, 0)
    else (c.claim, c.seq.setWidth 32)
  decide ((m.identity, m.seq) ≠ own) || decide (m.instant ≠ c.instant)

/-- The outcome bits of Table 6-5. -/
def Hub.checkOutcome (h : Hub) (c : CutInfo) (p : CutPort) (peerKind : Nat) (flitAfter : Bool) : Nat :=
  match p.marker with
  | none => 4
  | some m =>
    b2n (decide (p.arrivalPt < c.pt) || m.earlySeen) + 2 * b2n flitAfter +
      8 * b2n (h.markerDiffers c peerKind m) + 16 * b2n m.late

/-- The CUT notice of a port (R156). -/
def cutNotice (u : UnitId) (port gate : Nat) (p : CutPort) : Notice :=
  let seen := p.marker.isSome
  let peerPt := (p.marker.map (·.gatePt)).getD 0
  let off := if seen then sat31 p.arrivalPt gate else 0
  { kind := 9, unit := u,
    arg := BitVec.ofNat 26 (port % 64 + p.outcome.toNat * 64 + 2048 * b2n seen + 4096 * min 8191 p.inFlight),
    body := BitVec.ofNat 64 (peerPt % 2 ^ 32 * 2 ^ 32 + off) }

/-- The cut-marker block of a port that has closed (Table 5-13): ARG and body of its CUT notice as two words. -/
def CutPort.block (u : UnitId) (p : Nat × CutPort) : ShadowBlock :=
  let n := cutNotice u p.1 (p.2.gatePt.getD 0) p.2
  { typ := 6, instance_ := p.1, body := le 8 n.arg.toNat ++ le 8 n.body.toNat }

/-- CHECKER_CLOSE: 1.5 us after its gating edge a port is classed, and one that is not Clean sends CUT. -/
def opCheckerClose (unit : UnitId) (port : Nat) (peerKind : Nat) (peer : W16) (inFlight : Nat)
    (flitAfterMarker : Bool) (h : Hub) : Hub :=
  let a := h.agent unit
  match a.checkerGate with
  | none => h
  | some c =>
    let p := mapGet {} a.ports port
    if !a.powered || !hasChecker unit || decide (64 ≤ port) || p.closed || decide (h.pt < c.pt + 1500) then h else
    let o := h.checkOutcome c p peerKind flitAfterMarker
    let p := { p with gatePt := some c.pt, opened := true, step := c.step, closed := true, peerKind := peerKind,
                      peer := peer, inFlight := inFlight, outcome := BitVec.ofNat 5 o }
    let a := { a with ports := mapSet {} a.ports port p }
    h.setAgent unit (if o = 0 then a else a.notice h.pt (cutNotice unit port c.pt p))

/-! ### The capture (R134, R135, R175) -/

/-- A block that the scan of a unit writes (Table 5-13); the cut-marker blocks are the checker's. -/
def scanBlock (u : UnitId) (b : ShadowBlock) : Bool :=
  match b.typ with
  | 1 | 2 | 5 => decide (b.instance_ < engineCount u)
  | 3 => decide (b.instance_ < queueCount u)
  | 4 => decide (b.instance_ < 64)
  | t => decide (0x8000 ≤ t)

/-- Every checker port of the cut has closed, with a marker or without (R155); a command step opens none. The number of a
unit's ports is not given (log entry 149). -/
def Agent.portsClosed (a : Agent) (u : UnitId) (c : CutInfo) (pt : Nat) : Bool :=
  !hasChecker u || c.closed || (decide (c.pt + 1500 ≤ pt) && (a.ports.all fun p => p.2.closed || p.2.gatePt.isNone) &&
    (List.range (Config.checkerPorts (unitClass u) (unitIndex u))).all fun p => (mapGet {} a.ports p).closed)

/-- The cut-marker blocks of the shadow: the checker's results, or after a command step those of the stop (R155, R175,
R179). -/
def Agent.checkerBlocks (a : Agent) (u : UnitId) (c : CutInfo) : List Byte :=
  if c.closed then c.kept else (a.ports.filter fun p => p.2.closed).flatMap fun p => (CutPort.block u p).bytes

/-- CAPTURE_COMPLETE with the `count` blocks the scan has written: once the checker has written its own, SHADOW_VALID is
set and CAPTURED sent (R134, R135, R155, R175). Octets that are no such blocks are no end of a scan. -/
def opCaptureComplete (unit : UnitId) (count : Nat) (blocks : List Byte) (h : Hub) : Hub :=
  let a := h.agent unit
  match a.cut, a.shadow, blocksOf blocks with
  | some c, some s, some bs =>
    let all := blocks ++ a.checkerBlocks unit c
    if !a.powered || !c.capturing || decide (bs.length ≠ count) || !(bs.all (scanBlock unit)) || !a.portsClosed unit c h.pt ||
        decide (shadowSize unit < 64 + all.length) then h else
    let s := { s with complete := true, donePt := h.pt, blocks := all, blockCount := ((blocksOf all).getD []).length }
    let a := { a with shadow := some s, shadowValid := true, cut := some { c with capturing := false } }
    let a := if a.state = .stopping then a.setState unit h.pt .stopped else a
    h.setAgent unit (a.notice h.pt { kind := 5, unit := unit, arg := BitVec.ofNat 26 (64 + all.length),
                                     body := BitVec.ofNat 64 (a.replica h.pt) })
  | _, _, _ => h

/-! ### Meanings -/

def execDeclareHang (h : Hdr) (reason : W32) (st : State) : Host.Outcome State Fault Refusal :=
  .next { st with hub := opDeclareHang h reason st.hub }
def execHangStop (h : Hdr) (t : W64) (pod : Byte) (sb : ScopeBlock) (st : State) :
    Host.Outcome State Fault Refusal :=
  .next { st with hub := opHangStop h t pod sb st.hub }
def execStopCancel (h : Hdr) (st : State) : Host.Outcome State Fault Refusal :=
  .next { st with hub := opStopCancel h st.hub }
def execHangStatus (h : Hdr) (st : State) : Host.Outcome State Fault Refusal :=
  .next { st with hub := opHangStatus h st.hub }
def execHangClear (h : Hdr) (st : State) : Host.Outcome State Fault Refusal :=
  .next { st with hub := opHangClear h st.hub }
def execPodStop (link : Nat) (m : PodStopMsg) (st : State) : Host.Outcome State Fault Refusal :=
  .next { st with hub := opPodStop link m st.hub }
def execBcastAccept (unit : UnitId) (cls : BitVec 3) (seq : Byte) (st : State) :
    Host.Outcome State Fault Refusal :=
  .next { st with hub := opBcastAccept unit cls seq st.hub }
def execStopInstant (unit : UnitId) (st : State) : Host.Outcome State Fault Refusal :=
  .next { st with hub := opStopInstant unit st.hub }
def execCaptureComplete (unit : UnitId) (count : Nat) (blocks : List Byte) (st : State) : Host.Outcome State Fault Refusal :=
  .next { st with hub := opCaptureComplete unit count blocks st.hub }
def execCutMarkerArrival (unit : UnitId) (port : Nat) (m : CutMarker) (st : State) :
    Host.Outcome State Fault Refusal :=
  .next { st with hub := opCutMarkerArrival unit port m st.hub }
def execCheckerClose (unit : UnitId) (port : Nat) (peerKind : Nat) (peer : W16) (inFlight : Nat) (flitAfterMarker : Bool) (st : State) :
    Host.Outcome State Fault Refusal :=
  .next { st with hub := opCheckerClose unit port peerKind peer inFlight flitAfterMarker st.hub }
def execStopComplete (st : State) : Host.Outcome State Fault Refusal :=
  .next { st with hub := opStopComplete st.hub }

end Sys2Proof.Machine
end

