-- ==== Sys2Proof/Machine/Counter.lean ====
section
/-! DEFINITION. The group counters (0x06xx), the global freeze at the arrays and the counter pushes (R245 to
R264). -/

namespace Sys2Proof.Machine

/-- Cores and slices, which have light counters. -/
def lightUnits : List UnitId := allUnits.filter fun u => unitCore u

/-- The session is an Observer's. -/
def Hub.isObserver (h : Hub) (hdr : Hdr) : Bool :=
  match h.session hdr.session with
  | some s => decide (s.role = .observer)
  | none => false

/-- Units of a scope whose agents the hub addresses: neither retired nor powered off. -/
def Hub.presentIn (h : Hub) (sc : Scope) (us : List UnitId) : List UnitId :=
  (h.scopeUnits sc us).filter fun u => h.presence u == 0 || h.presence u == 3

/-! ### COUNTER_READ -/

/-- One unit's entry: UNIT, and TOTALS at offset 8. -/
def totalsEntry (u : UnitId) (t : Totals) : List Byte := le 2 u.toNat ++ zeros 6 ++ t.bytes

/-- A snapshot is younger than the unit's latest change of partition (R263). -/
def Cnt.snapFresh (c : Cnt) : Bool := decide (c.basePt ≤ c.snapPt)

/-- A unit's window totals for COUNTER_READ: live or snapshot, relative for an Observer. -/
def Hub.windowTotals (h : Hub) (which : Nat) (relative : Bool) (u : UnitId) : Option Totals :=
  let c := ((h.agent u).settle h.pt).cnt
  let t := if which = 0 then c.light else c.snap
  if !relative then some t
  else if which = 1 ∧ c.snapFresh = false then none
  else some (t.minus c.base)

/-- The entries of live or snapshot totals; UNREACHABLE names the units that did not answer. -/
def Hub.readWindows (h : Hub) (hdr : Hdr) (which : Nat) (sc : Scope) (us : List UnitId) : Hub :=
  let l := (h.presentIn sc us).filter fun u => unitCore u
  let lost := l.filter fun u => !h.answers u
  if lost.isEmpty then
    h.ok 0x0600 hdr (l.flatMap fun u => ((h.windowTotals which (h.isObserver hdr) u).map (totalsEntry u)).getD [])
  else h.answer 0x0600 hdr .unreachable (unitsBody lost)

def Hub.bankEntry (h : Hub) (u : UnitId) : BankEntry := mapGet {} h.arrays.bank (ordinalOf u)

def opCounterRead (hdr : Hdr) (which : Byte) (sb : ScopeBlock) (h : Hub) : Hub :=
  h.icp 0x0600 hdr fun h =>
    if 3 < which.toNat then h.badArg 0x0600 hdr 0 else
    match scopeFault sb 1 with
    | some o => h.badArg 0x0600 hdr o
    | none =>
      let sc := scopeOf sb (h.session hdr.session)
      if which.toNat < 2 then
        h.withAgents 0x0600 hdr ((h.presentIn sc.1 sc.2).filter fun u => unitCore u) (.counterRead hdr which sb) fun h =>
          h.readWindows hdr which.toNat sc.1 sc.2
      else if h.isObserver hdr then h.denied 0x0600 hdr
      else
        let l := (h.scopeUnits sc.1 sc.2).filter fun u => unitCore u
        h.ok 0x0600 hdr (l.flatMap fun u =>
          totalsEntry u (if which = 2 then h.arrayTotals u else (h.bankEntry u).totals))

/-! ### COUNTER_AGGREGATE (R259 to R263) -/

/-- The operator of a counter quantity (Table 10-10); none where it is not implemented. -/
def quantityOp (q : Nat) : Option Nat :=
  if 0x0100 ≤ q ∧ q < 0x0140 ∧ q % 16 < 4 then some 2
  else if 0x0200 ≤ q ∧ q < 0x0280 ∧ q % 16 ≤ 8 then some (if q % 16 = 8 then 4 else 2)
  else if 0x0300 ≤ q ∧ q < 0x0380 ∧ q % 16 ≤ 8 then some (if q % 16 = 8 then 4 else 2)
  else if q = 0x0400 ∨ q = 0x0401 then some 2
  else none

/-- Quantities an Observer may aggregate (R263): relative light totals and queue instruments. -/
def observerQuantity (q : Nat) : Bool :=
  (decide (0x0110 ≤ q) && decide (q < 0x0120)) || (decide (0x0130 ≤ q) && decide (q < 0x0140)) ||
    (decide (0x0200 ≤ q) && decide (q < 0x0400))

def opCounterAggregate (hdr : Hdr) (quantity : W16) (sb : ScopeBlock) (h : Hub) : Hub :=
  h.icp 0x0601 hdr fun h =>
    match quantityOp quantity.toNat with
    | none => h.badArg 0x0601 hdr 0
    | some op =>
      match scopeFault sb 2 with
      | some o => h.badArg 0x0601 hdr o
      | none =>
        if h.isObserver hdr && !observerQuantity quantity.toNat then h.denied 0x0601 hdr else
        let sc := scopeOf sb (h.session hdr.session)
        let h := h.maskFor 5 sc.1 sc.2
        (h.collect op quantity.toNat sc.1 (h.issueAt 5 + 200) h.dcn.timeoutUs .aggregate).occupy 0x0601 hdr
          (.aggregate quantity.toNat sc.1 sc.2)

/-- A unit implements a counter quantity (Table 10-10). -/
def hasQuantity (q : Nat) (u : UnitId) : Bool :=
  if q < 0x0200 then unitCore u else if q < 0x0400 then decide (q % 256 / 16 < queueCount u) else true

/-- The AO value added for a unit that did not contribute (R260), an array's as it was at the last push before INSTANT
(R261); relative and queue quantities have none. -/
def Hub.aoValue (h : Hub) (c : Combine) (q : Nat) (u : UnitId) : Option Nat :=
  if !unitCore u then none
  else if 0x0100 ≤ q ∧ q < 0x0104 then
    some ((mapGet {} (c.arrays.getD h.arrays.totals) (ordinalOf u)).get (q - 0x0100))
  else if 0x0120 ≤ q ∧ q < 0x0124 then some ((h.bankEntry u).totals.get (q - 0x0120))
  else none

/-- The reply of COUNTER_AGGREGATE from the result of its combine: of a light quantity, AO values are added for the units
that did not contribute; Absent units are reported for every quantity (R260). -/
def Hub.aggregateBody (h : Hub) (c : Combine) (r : Reduced) (q : Nat) (us : List UnitId) (observer : Bool) : List Byte :=
  let l := if observer then [] else (h.scopeUnits c.scope us).filter fun u => hasQuantity q u && !r.units.contains u
  let off := l.filter fun u => h.presence u == 1 || h.presence u == 2
  let stale := l.filter fun u => (h.presence u == 0 || h.presence u == 3) && (h.aoValue c q u).isSome
  let add := ((off ++ stale).map fun u => (h.aoValue c q u).getD 0).foldl (· + ·) 0
  let sum := (r.value.setWidth 64 : W64).toNat + add
  let wrap := r.wrap || decide (2 ^ 64 ≤ sum)
  [] |> put 8 sum |> put 1 (b2n wrap) |> put 4 r.count |> put 4 off.length |> put 4 stale.length |> put 4 r.missing

/-- The combine of COUNTER_AGGREGATE has its result. -/
def Hub.completeAggregate (h : Hub) (c : Combine) (r : Reduced) : Hub :=
  match h.slot with
  | some e =>
    match e.prog with
    | .aggregate q _ us => h.conclude .ok (h.aggregateBody c r q us (h.isObserver e.hdr))
    | _ => h
  | none => h

/-! ### COUNTER_FREEZE (R252 to R257) -/

/-- Freezes in the order of their instants. -/
def insertFreeze (f : FreezeRun) : List FreezeRun → List FreezeRun
  | [] => [f]
  | x :: xs => if f.instant < x.instant then f :: x :: xs else x :: insertFreeze f xs

/-- A freeze that the arrays still follow: not final in both halves, or with an entry of its own in a bank. -/
def Arrays.follows (a : Arrays) (f : FreezeRun) : Bool :=
  !(f.westDone && f.eastDone) || a.bank.any fun b => b.2.freezeId == f.freezeId

/-- A freeze whose instant a later FREEZE has replaced: the arrays take nothing at it (Table 10-11, log entry 157). -/
def FreezeRun.replaced (f : FreezeRun) (pt : Nat) : FreezeRun :=
  if pt < f.instant then { f with westTaken := true, eastTaken := true, westDone := true, eastDone := true } else f

/-- Issue a FREEZE (R253, R255): the next FREEZE_ID, and the arrays take the instant, in place of one that is still to come.
`confirm`: it has no command that waits for its confirmation. -/
def Hub.issueFreeze (h : Hub) (f mode : Nat) (sc : Scope) (us : List UnitId) (confirm : Bool) : Hub :=
  let id := h.arrays.freezeId + 1
  let h := (h.maskFor 1 sc us).issue 1 sc f (BitVec.ofNat 32 (mode % 4 * 2 ^ 30 + id.toNat % 0x10000))
  let run : FreezeRun := { instant := f, freezeId := id, mode := mode, scope := sc, units := us, confirming := confirm }
  let old := (h.arrays.freezes.filter fun x => h.arrays.follows x || decide (h.pt < x.instant + 4000)).map fun x => x.replaced h.pt
  { h with arrays := { h.arrays with freezeId := id, freezes := insertFreeze run old } }

def opCounterFreeze (hdr : Hdr) (f : W64) (mode : Byte) (sb : ScopeBlock) (h : Hub) : Hub :=
  h.icp 0x0602 hdr fun h =>
    if 2 < mode.toNat then h.badArg 0x0602 hdr 8 else
    match scopeFault sb 9 with
    | some o => h.badArg 0x0602 hdr o
    | none =>
      if h.isObserver hdr && mode != 0 then h.denied 0x0602 hdr
      else if h.measuring then h.badState 0x0602 hdr
      else
        match leadInstant (h.issueAt 1) 200 30000 f.toNat with
        | none => h.badArg 0x0602 hdr 0
        | some t =>
          let sc := scopeOf sb (h.session hdr.session)
          let h := h.issueFreeze t mode.toNat sc.1 sc.2 false
          h.occupy 0x0602 hdr (.freeze t h.arrays.freezeId)

/-- The scope and list of a freeze. -/
def Arrays.freezeScope (a : Arrays) (id : W32) : Scope × List UnitId :=
  match a.freezes.find? fun f => f.freezeId == id with
  | some f => (f.scope, f.units)
  | none => (.chip, [])

/-- At F + 1.9 us the confirming COLLECT of QUANTITY 0x0400 (R257). -/
def Hub.confirmFreeze (h : Hub) : Hub :=
  match h.slot with
  | some e =>
    match e.prog with
    | .freeze f id =>
      if e.collected || decide (h.pt < f + 1900) then h else
      { h with slot := some { e with collected := true } }.collect 2 0x0400 (h.arrays.freezeScope id).1 (f + 2100) 1 .freeze
    | _ => h
  | none => h

/-- The reply of COUNTER_FREEZE. -/
def Hub.freezeBody (h : Hub) (e : Exec) (f : Nat) (id : W32) : List Byte :=
  let sc := h.arrays.freezeScope id
  let v := resultValue e.states
  [] |> put 8 f |> put 4 id.toNat |> put 8 v |> put 2 e.lateCount |> put 2 (h.unreachIn sc.1 sc.2) |>
    put 2 (h.missingOf sc.1 sc.2 e.states) |> put 2 (bits v 63 48)

/-- At F + 4 us the freeze is complete (Table 10-9). -/
def Hub.completeFreeze (h : Hub) : Hub :=
  match h.slot with
  | some e =>
    match e.prog with
    | .freeze f id => if h.pt < f + 4000 then h else h.conclude .ok (h.freezeBody e f id)
    | _ => h
  | none => h

/-- FREEZE_INSTANT: the snapshot edge (R252). -/
def opFreezeInstant (unit : UnitId) (h : Hub) : Hub :=
  match h.dueAt unit 1 with
  | none => h
  | some x => h.agentFreeze unit x.arg false

/-! ### The arrays (R246, R247, R255) -/

/-- COUNTER_PUSH: at each PT that is a multiple of 1,000 ns (R247). -/
def opCounterPush (unit : UnitId) (h : Hub) : Hub :=
  let a := h.agent unit
  if a.powered && unitCore unit && unitHasAgent unit && a.replicaLoaded && h.pt % 1000 == 0 && !h.retired unit then h.push unit
  else h

def opTaggedPush (unit : UnitId) (h : Hub) : Hub := if h.retired unit then h else h.deliverTagged unit

def FreezeRun.taken (f : FreezeRun) (s : Half) : Bool := match s with | .west => f.westTaken | .east => f.eastTaken
def FreezeRun.done (f : FreezeRun) (s : Half) : Bool := match s with | .west => f.westDone | .east => f.eastDone
def FreezeRun.take (f : FreezeRun) (s : Half) : FreezeRun :=
  match s with | .west => { f with westTaken := true } | .east => { f with eastTaken := true }
def FreezeRun.finish (f : FreezeRun) (s : Half) : FreezeRun :=
  match s with | .west => { f with westDone := true } | .east => { f with eastDone := true }

/-- Ordinals of a half's entries in the scope of a freeze, but those whose agents a CANCEL has disarmed. -/
def Hub.frozenIn (h : Hub) (f : FreezeRun) (s : Half) : List UnitId :=
  lightUnits.filter fun u => halfOf u == s && h.inScope f.scope f.units u && !f.cancelled.contains (ordinalOf u)

/-- What a bank entry becomes at F, as a provisional value (Tables 10-6 and 10-7). -/
def BankEntry.provisional (b : BankEntry) (f : FreezeRun) (t : Totals) : BankEntry :=
  if b.state = 2 then (if f.mode = 2 then { b with state := 1 } else b)
  else if f.mode = 2 ∨ 2 < f.mode then b
  else { state := f.mode + 1, quality := 3, freezeId := f.freezeId, snapPt := f.instant, totals := t }

/-- The earliest freeze of which a half's array is to take provisional copies now, and the one it is to finalize. -/
def Hub.toTake (h : Hub) (s : Half) : Option FreezeRun := h.arrays.freezes.find? fun f => !f.taken s && decide (f.instant ≤ h.pt)
def Hub.toFinish (h : Hub) (s : Half) : Option FreezeRun :=
  h.arrays.freezes.find? fun f => f.taken s && !f.done s && decide (f.instant + 2000 ≤ h.pt)

/-- ARRAY_PROVISIONAL: at F each in-scope entry is copied, but those whose tagged push is already in. -/
def opArrayProvisional (half : Half) (h : Hub) : Hub :=
  match h.toTake half with
  | none => h
  | some f =>
    let l := h.frozenIn f half
    let off := (l.filter fun u => h.presence u == 1 || h.presence u == 2).map ordinalOf
    let bank := l.foldl (fun (m : SMap BankEntry) u =>
      if f.pushed.contains (ordinalOf u) then m
      else mapMod {} m (ordinalOf u) fun b => b.provisional f (h.arrayTotals u)) h.arrays.bank
    let f := { f.take half with absentAtF := f.absentAtF ++ off }
    { h with arrays := { h.arrays with bank := bank }.setFreeze f }

/-- QUALITY at finalization (Table 10-7). -/
def Hub.finalEntry (h : Hub) (f : FreezeRun) (u : UnitId) (b : BankEntry) : BankEntry :=
  let off := f.absentAtF.contains (ordinalOf u) && (h.presence u == 1 || h.presence u == 2)
  if b.state = 0 ∨ b.freezeId ≠ f.freezeId ∨ f.pushed.contains (ordinalOf u) = true then b
  else { b with quality := if off then 1 else 3, snapPt := f.instant }

/-- ARRAY_FINALIZE: at F + 2 us (R255). -/
def opArrayFinalize (half : Half) (h : Hub) : Hub :=
  match h.toFinish half with
  | none => h
  | some f =>
    let bank := (h.frozenIn f half).foldl (fun (m : SMap BankEntry) u => mapMod {} m (ordinalOf u) (h.finalEntry f u)) h.arrays.bank
    { h with arrays := { h.arrays with bank := bank }.setFreeze (f.finish half) }

/-! ### COUNTER_SNAPSHOT_READ, COUNTER_CLEAR -/

/-- A bank entry's 48 octets (Table 10-8). -/
def BankEntry.bytes (b : BankEntry) (u : UnitId) : List Byte :=
  le 2 u.toNat ++ le 1 (b.state + 4 * b.quality) ++ [0] ++ le 4 b.freezeId.toNat ++ le 8 b.snapPt ++ b.totals.bytes

/-- What an Observer sees of a unit's snapshot: the window's, relative, in the form of a bank entry; none
where it predates the latest change of partition (R263). -/
def Hub.observerEntry (h : Hub) (u : UnitId) : Option BankEntry :=
  let c := (h.agent u).cnt
  let id := h.arrays.freezeId
  if !c.snapFresh || c.snapState == 0 then none
  else some { state := c.snapState, quality := if c.snapLate then 2 else 0,
              freezeId := if id.toNat % 0x10000 = c.freezeId.toNat then id else c.freezeId.setWidth 32,
              snapPt := c.snapPt, totals := c.snap.minus c.base }

/-- COUNTER_SNAPSHOT_READ in an Observer session: window snapshots of the partition's members. -/
def Hub.observerSnapshots (h : Hub) (hdr : Hdr) (sc : Scope) : Hub :=
  let l := (h.presentIn sc []).filter fun u => unitCore u
  let lost := l.filter fun u => !h.answers u
  let omitted := (l.filter fun u => (h.observerEntry u).isNone).length
  if lost.isEmpty then
    h.ok 0x0603 hdr (le 4 omitted ++ zeros 4 ++ l.flatMap fun u => ((h.observerEntry u).map fun b => b.bytes u).getD [])
  else h.answer 0x0603 hdr .unreachable (unitsBody lost)

def opCounterSnapshotRead (hdr : Hdr) (sb : ScopeBlock) (h : Hub) : Hub :=
  h.icp 0x0603 hdr fun h =>
    match scopeFault sb 0 with
    | some o => h.badArg 0x0603 hdr o
    | none =>
      let sc := scopeOf sb (h.session hdr.session)
      if h.isObserver hdr then
        h.withAgents 0x0603 hdr ((h.presentIn sc.1 []).filter fun u => unitCore u) (.counterSnapshotRead hdr sb) fun h =>
          h.observerSnapshots hdr sc.1
      else
        let l := (h.scopeUnits sc.1 sc.2).filter fun u => unitCore u
        h.ok 0x0603 hdr (zeros 8 ++ l.flatMap fun u => (h.bankEntry u).bytes u)

/-- COUNTER_CLEAR on the agents that answer. -/
def Hub.runCounterClear (h : Hub) (hdr : Hdr) (sc : Scope) (us : List UnitId) : Hub :=
  let l := h.presentIn sc us
  let reached := l.filter fun u => h.answers u
  let h := reached.foldl (fun h u => h.modAgent u fun a => a.clearQueues u h.pt) h
  h.ok 0x0604 hdr (le 4 reached.length ++ le 4 (l.length - reached.length))

def opCounterClear (hdr : Hdr) (sb : ScopeBlock) (h : Hub) : Hub :=
  h.icp 0x0604 hdr fun h =>
    match scopeFault sb 0 with
    | some o => h.badArg 0x0604 hdr o
    | none =>
      let sc := scopeOf sb (h.session hdr.session)
      h.withAgents 0x0604 hdr (h.presentIn sc.1 sc.2) (.counterClear hdr sb) fun h => h.runCounterClear hdr sc.1 sc.2

/-! ### Meanings -/

def execCounterRead (h : Hdr) (which : Byte) (sb : ScopeBlock) (st : State) : Host.Outcome State Fault Refusal :=
  .next { st with hub := opCounterRead h which sb st.hub }
def execCounterAggregate (h : Hdr) (quantity : W16) (sb : ScopeBlock) (st : State) :
    Host.Outcome State Fault Refusal :=
  .next { st with hub := opCounterAggregate h quantity sb st.hub }
def execCounterFreeze (h : Hdr) (f : W64) (mode : Byte) (sb : ScopeBlock) (st : State) :
    Host.Outcome State Fault Refusal :=
  .next { st with hub := opCounterFreeze h f mode sb st.hub }
def execCounterSnapshotRead (h : Hdr) (sb : ScopeBlock) (st : State) : Host.Outcome State Fault Refusal :=
  .next { st with hub := opCounterSnapshotRead h sb st.hub }
def execCounterClear (h : Hdr) (sb : ScopeBlock) (st : State) : Host.Outcome State Fault Refusal :=
  .next { st with hub := opCounterClear h sb st.hub }
def execCounterPush (unit : UnitId) (st : State) : Host.Outcome State Fault Refusal :=
  .next { st with hub := opCounterPush unit st.hub }
def execFreezeInstant (unit : UnitId) (st : State) : Host.Outcome State Fault Refusal :=
  .next { st with hub := opFreezeInstant unit st.hub }
def execArrayProvisional (half : Half) (st : State) : Host.Outcome State Fault Refusal :=
  .next { st with hub := opArrayProvisional half st.hub }
def execTaggedPush (unit : UnitId) (st : State) : Host.Outcome State Fault Refusal :=
  .next { st with hub := opTaggedPush unit st.hub }
def execArrayFinalize (half : Half) (st : State) : Host.Outcome State Fault Refusal :=
  .next { st with hub := opArrayFinalize half st.hub }

end Sys2Proof.Machine
end

