-- ==== Sys2Proof/Machine/Sampling.lean ====
section
/-! DEFINITION. What an agent contributes to a COLLECT (R108, R139, R259, R280): the agent quantities, the
counter quantities, and the words of a sounding's posting with the posting edge (R281). -/

namespace Sys2Proof.Machine

/-! ### Posting words (Table 11-7) -/

/-- Operator of posting word `w`. -/
def wordOp (w : Nat) : Nat :=
  if w ≤ 9 then 3 else if w = 10 then 2 else if w = 11 then 7 else if w = 12 then 6 else if w = 13 then 4
  else if w = 14 then 5 else 4

/-- Five 64-bit lanes, lane 0 lowest. -/
def lanes (l : List Nat) : BitVec 320 := BitVec.ofNat 320 (l.foldr (fun x r => x % 2 ^ 64 + 2 ^ 64 * r) 0)

/-- Word `w` of a slot's accumulators; `openCmds` has been brought up to the posting edge. -/
def Accum.word (a : Accum) (w : Nat) : BitVec 320 :=
  let e (i : Nat) : Nat := mapGet 0 a.expBins i
  let s (i : Nat) : Nat := mapGet 0 a.scaleBins i
  match w with
  | 0 => lanes [a.elements, a.commands, a.openCmds, a.sumElements, a.discards]
  | 1 => lanes [a.nan, a.posInf, a.negInf, a.zero, a.subnormal]
  | 2 => lanes [a.saturation, a.sumExcluded, a.nanBlocks, e 0, e 1]
  | 3 => lanes [e 2, e 3, e 4, e 5, e 6]
  | 4 => lanes [e 7, e 8, e 9, e 10, e 11]
  | 5 => lanes [e 12, e 13, e 14, e 15, s 0]
  | 6 => lanes [s 1, s 2, s 3, s 4, s 5]
  | 7 => lanes [s 6, s 7, s 8, s 9, s 10]
  | 8 => lanes [s 11, s 12, s 13, s 14, s 15]
  | 9 => a.sum
  | 10 => widen a.digest
  | 11 => widen a.minKey
  | 12 => widen a.maxKey
  | 13 => widen a.maxAbs
  | 14 => widen a.tagMin
  | _ => widen a.tagMax

/-- The posting edge in one slot (R281): accumulators move to the posting buffer and start from zero; the
open command counts in OPEN, and its tag among those of the interval. A buffer of this posting stays. -/
def TapSlot.postEdge (t : TapSlot) (instant : Nat) : TapSlot :=
  match t.buffer with
  | some (p, _) => if instant ≤ p then t else t.move instant
  | none => t.move instant

/-- The posting edge of sounding `s` in an agent. -/
def Agent.postEdge (a : Agent) (s instant : Nat) : Agent :=
  { a with taps := a.taps.map fun (t : Nat × TapSlot) => if t.2.sounding = s then (t.1, t.2.postEdge instant) else t }

/-- Word `w` of sounding `s` from the posting buffers of an agent's slots; none where it has no slot. -/
def Agent.soundingWord (a : Agent) (s w : Nat) : Option (BitVec 320) :=
  let l := (a.taps.filter fun t => t.2.sounding == s).filterMap fun t => t.2.buffer
  if l.isEmpty then none
  else some (l.foldl (fun r (b : Nat × Accum) => (reduce (wordOp w) r (b.2.word w)).1) (opIdentity (wordOp w)))

/-! ### Quantities -/

/-- Agent quantities (Table 5-16). -/
def Agent.ownQuantity (a : Agent) (pt q : Nat) : Option Nat :=
  match q with
  | 0 => some 1
  | 1 => some (2 ^ (16 * agStateCode a.state))
  | 2 => some (b2n a.shadowValid)
  | 3 => some (a.replica pt)
  | 4 => some a.nextSeq.toNat
  | 5 => some a.noticesLost
  | 6 => some (b2n a.gated)
  | _ => none

/-- Light quantities (Table 10-10). -/
def Cnt.lightQuantity (c : Cnt) (q : Nat) : Option Nat :=
  let i := q % 16
  if 3 < i then none
  else if q / 16 = 0x10 then some (c.light.get i)
  else if q / 16 = 0x11 then some (c.light.get i - c.base.get i)
  else if q / 16 = 0x12 then some (c.snap.get i)
  else if q / 16 = 0x13 ∧ c.snapFresh = true then some (c.snap.get i - c.base.get i)
  else none

/-- Queue quantities (Table 10-10): bins, and the high-water mark at index 8. -/
def Agent.queueQuantity (a : Agent) (u : UnitId) (pt q : Nat) : Option Nat :=
  let n := q % 256 / 16
  let i := q % 16
  if queueCount u ≤ n ∨ 8 < i then none
  else if q / 256 = 2 then
    let x := a.queue u pt n
    some (if i = 8 then x.hwm else x.bins.getD i 0)
  else
    match mapFind a.queueSnaps n with
    | none => some 0
    | some s =>
      let x := s.inst.upTo u n s.cycle
      some (if i = 8 then x.hwm else x.bins.getD i 0)

/-- The value an agent contributes for a QUANTITY; none where its unit does not implement it (R108). -/
def Agent.sample (a : Agent) (u : UnitId) (pt q : Nat) : Option (BitVec 320) :=
  if 0x1000 ≤ q ∧ q < 0x2000 then a.soundingWord ((q - 0x1000) / 16) (q % 16)
  else
    let v := if q < 0x0100 then a.ownQuantity pt q
      else if q < 0x0200 then (if unitCore u then (a.settle pt).cnt.lightQuantity q else none)
      else if q < 0x0400 then a.queueQuantity u pt q
      else if q = 0x0400 then some (2 ^ (16 * a.cnt.snapState) + 2 ^ 48 * b2n a.cnt.refused)
      else if q = 0x0401 then some (b2n a.cnt.snapLate)
      else none
    v.map fun n => BitVec.ofNat 320 (n % 2 ^ 64)

/-- A queue snapshot from before the unit's latest change of partition is left out of an Observer's aggregate: the unit is
not counted (R263). -/
def Hub.hidesSnapshot (h : Hub) (c : Combine) (u : UnitId) : Bool :=
  c.issuer == .aggregate && decide (0x0300 ≤ c.quantity) && decide (c.quantity < 0x0400) && !(h.agent u).cnt.snapFresh &&
    (h.slot.any fun e => h.isObserver e.hdr)

/-- The agent's contribution to a combine, for a scope and ARM_MASK as they were at receipt (R98, R108). The first word of
a posting moves the accumulators (R281). -/
def Hub.sampleFor (h : Hub) (c : Combine) (u : UnitId) (inSc : Bool) : Hub :=
  let a := h.agent u
  let a := if inSc && decide (0x1000 ≤ c.quantity) then a.postEdge ((c.quantity - 0x1000) / 16) c.instant else a
  let body : Reduced := match (if inSc && !h.hidesSnapshot c u then a.sample u h.pt c.quantity else none) with
    | some v => { value := v, count := 1, units := [u] }
    | none => Reduced.none c.op
  ((h.setAgent u a).setCombine (c.answer u body)).inject (.agent u) (body.pkt c.op c.tag)

/-- COLLECT_RECEIVED: the agent receives the COLLECT, and samples at INSTANT, or at receipt where INSTANT is 0 or has
passed; it answers with its value and COUNT 1, or with the identity and COUNT 0 out of scope or for a quantity it does
not implement (R108, R109). -/
def opCollectReceived (unit : UnitId) (tag : Byte) (h : Hub) : Hub :=
  match h.combineOrEnded tag with
  | none => h
  | some c =>
    let a := h.agent unit
    if !a.powered || h.retired unit || !h.pathUp unit || c.answered.contains unit || c.issuer == .multicast ||
       decide (h.pt < c.issuePt) then h else
    let r := if (c.received.any fun x => x.1 == unit) then (h, c)
      else if a.takesSeq 5 c.seq then h.collectReceipt c unit else (h, c)
    match r.2.received.find? fun x => x.1 == unit with
    | none => r.1
    | some x =>
      if decide (c.instant = 0) || (a.replicaLoaded && h.reached c.instant) then r.1.sampleFor r.2 unit x.2 else r.1

/-! ### Meanings -/

def execCollectReceived (unit : UnitId) (tag : Byte) (st : State) : Host.Outcome State Fault Refusal :=
  .next { st with hub := opCollectReceived unit tag st.hub }

end Sys2Proof.Machine
end

