-- ==== Sys2Proof/Machine/Network.lean ====
section
/-! DEFINITION. The debug control network's links and nodes (R85 to R97, R101), routing around dead nodes (R115, R116)
and the nodes' combines (R107 to R110). What stands in a packet takes its effect by a step of its own (log entry 20);
here its flits move. -/

namespace Sys2Proof.Machine

/-! ### Places -/

/-- The node that reports a link (R92). -/
def Hub.reporter (h : Hub) (n : LinkName) : Node :=
  match n with
  | .agent o => .bay (halfOf (unitOf o)) (attachPier (unitOf o)) (attachBay (unitOf o))
  | .bay s p _ => .pier s p
  | .pier s _ => .root s
  | .side s p b => .bay s p b
  | .span => .root h.red.holder

/-- LINK in a LINK notice (Table 5-8). -/
def linkNumber (n : LinkName) : Nat :=
  match n with
  | .agent o => 16 + o % 978 % 16
  | .bay _ _ b => 16 + b
  | .pier _ p => 16 + p
  | .side _ _ _ => 2
  | .span => 3

/-- ARG of a LINK notice (Table 5-8). -/
def Hub.linkArg (h : Hub) (n : LinkName) (up : Bool) : Nat :=
  let place : Nat × Nat × Nat × Nat := match h.reporter n with
    | .root _ => (0, 0, 0, 1)
    | .pier _ p => (p, 0, 0, 0)
    | .bay _ p b => (p, b, 1, 0)
  halfNat (h.linkHalf n) * 2 ^ 25 + place.1 * 2 ^ 21 + place.2.1 * 2 ^ 19 + place.2.2.1 * 2 ^ 18 +
    linkNumber n * 2 ^ 12 + b2n up * 2 ^ 11 + place.2.2.2 * 2 ^ 10

/-- The path from a node to the active root is up. -/
def Hub.nodeUp (h : Hub) (n : Node) : Bool :=
  h.dcnOn (nodeHalf n) && h.dcnOn h.red.holder && (nodeHalf n == h.red.holder || (h.link .span).up) &&
    (match n with
     | .root _ => true
     | .pier s p => (h.link (.pier s p)).up
     | .bay s p b => h.bayUp s p b)

/-- The DCN domain of the link's half is on; of both halves for the Span lanes. -/
def Hub.linkPowered (h : Hub) (n : LinkName) : Bool :=
  if n = .span then h.dcnOn .west && h.dcnOn .east else h.dcnOn (h.linkHalf n)

/-! ### What a node sends next (R90, R95, R101) -/

def LinkSt.dir (l : LinkSt) (d : Dir) : LinkEnd := match d with | .down => l.downward | .up => l.upward
def LinkSt.setDir (l : LinkSt) (d : Dir) (e : LinkEnd) : LinkSt :=
  match d with | .down => { l with downward := e } | .up => { l with upward := e }

def Hub.wayState (h : Hub) (w : Way) : LinkEnd := (h.link w.1).dir w.2
def Hub.setWay (h : Hub) (w : Way) (e : LinkEnd) : Hub := h.setLink w.1 ((h.link w.1).setDir w.2 e)

/-- The half of a node or an agent. -/
def childHalf (c : Child) : Half := match c with | .agent u => halfOf u | .node n => nodeHalf n

/-- The flits that wait at an input of a node or agent, in a lane. -/
def Hub.inputCells (h : Hub) (at_ : Child) (i : Input) (lane : Nat) : List Cell :=
  match i with
  | none => (((h.dcn.sources.find? fun s => s.1 == at_).map (·.2)).getD []).filter fun c => flitLane c.flit == lane
  | some w => if lane = 2 then (h.wayState w).ctl else (h.wayState w).bulk

/-- A multicast BULK_WR (R117). -/
def headMcast (w : W64) : Bool := headType w == 6 && (headArg w).getLsbD 25

/-- A multicast addresses the unit, as its nodes know (R117). -/
def Hub.headAddresses (h : Hub) (w : W64) (u : UnitId) : Bool :=
  match bits (headArg w).toNat 24 23 with
  | 0 => true
  | 1 => halfOf u == halfOf (headUnit w)
  | 2 => h.memberOf u (BitVec.ofNat 6 (bits (headArg w).toNat 22 17))
  | _ => false

/-- A way down leads to the unit's agent. -/
def Hub.leadsTo (h : Hub) (n : Node) (w : Way) (u : UnitId) : Bool :=
  (match n with
   | .root s => s == halfOf u || s == h.red.holder
   | .pier s p => s == halfOf u && ((h.adoptedBy s (attachPier u) (attachBay u)).getD (attachPier u) == p)
   | .bay s p b => s == halfOf u && b == attachBay u &&
       (p == attachPier u || h.adoptedBy s (attachPier u) b == some p)) && h.wayTo n u == some w

/-- The ways a packet leaves a node by; none where the node or agent is where it goes. A COMBINE goes to the next
node only (R107). -/
def Hub.routes (h : Hub) (at_ : Child) (i : Input) (hd : W64) : List Way :=
  match at_ with
  | .agent u => if i.isSome then [] else [(.agent (ordinalOf u), .up)]
  | .node n =>
    match headType hd with
    | 1 => if i.isSome then [] else (h.wayUp n).toList
    | 4 | 5 | 8 => (h.wayUp n).toList
    | 0 => []
    | _ =>
      if headMcast hd then
        (h.waysDown n).filter fun w => h.poweredUnits.any fun u => h.headAddresses hd u && h.leadsTo n w u
      else (h.wayTo n (headUnit hd)).toList

/-- The inputs of a node or agent: what it sends itself, then its links in order. -/
def Hub.inputs (h : Hub) (at_ : Child) : List Input :=
  match at_ with
  | .agent _ => [none]
  | .node n =>
    let down := (h.waysDown n).map fun w => some (w.1, oppositeDir w.2)
    let up : List Input := match n with
      | .root s => if s = h.red.holder then [] else [some (spanOut (otherHalf s))]
      | _ => ((h.wayUp n).map fun w => (w.1, oppositeDir w.2)).toList.map some
    none :: up ++ down

/-- A list from after an element on, and round again. -/
def afterInput (i : Option Input) (l : List Input) : List Input :=
  match i with
  | none => l
  | some x => (l.dropWhile (· != x)).drop 1 ++ l.takeWhile (· != x) ++ l.filter (· == x)

/-- The first flit of an input's lane leaves by a way: by it alone, or as one copy of a multicast flit, which needs a
credit on every way it has still to go (R117). -/
def Hub.frontFor (h : Hub) (at_ : Child) (w : Way) (lane : Nat) (i : Input) : Option Cell :=
  match h.inputCells at_ i lane with
  | [] => none
  | c :: _ =>
    let ws := h.routes at_ i c.head
    let gone := match i with | some x => if lane = 3 then (h.wayState x).gone else [] | none => []
    let left := ws.filter fun x => !gone.contains x
    if left.contains w && left.all fun x => decide (0 < (h.wayState x).bulkCredit) || lane == 2 then some c else none

/-- The input a lane serves next: the one whose packet or segment goes on, else the next one round that has a flit for
the way. A new packet starts only at a head (R95). -/
def Hub.nextInput (h : Hub) (at_ : Child) (w : Way) (lane : Nat) (from_ : Option (Input × Bool)) : Option (Input × Cell) :=
  match from_ with
  | some (i, true) => (h.frontFor at_ w lane i).map fun c => (i, c)
  | _ => (afterInput (from_.map (·.1)) (h.inputs at_)).findSome? fun i => (h.frontFor at_ w lane i).map fun c => (i, c)

/-- What a link sends next in a direction. -/
inductive Next where
  | again (c : Cell)
  | bcast (l : Latch) (k : Nat) (c : Cell)
  | lane (n : Nat) (i : Input) (c : Cell)
  deriving DecidableEq, Repr

/-- The latch of a class at the end of a way can take a broadcast, whatever way it comes over: it is empty, and no other
way brings one (R101). -/
def Hub.latchReady (h : Hub) (w : Way) (cls : Nat) : Bool :=
  match wayEnd w with
  | .agent _ => true
  | .node n => !h.latched n cls && !(h.dcn.links.any fun l => [Dir.down, Dir.up].any fun d =>
      (l.1, d) != w && wayEnd (l.1, d) == .node n && (l.2.dir d).bcast.any fun c => headOp c.head % 8 == cls)

/-- The broadcast a way carries next: the one whose flits are going, else the oldest latch that may leave by now and whose
class the receiver's latch is free for (R90, R101, R102). -/
def Hub.nextBcast (h : Hub) (w : Way) : Option Next :=
  let mine := h.dcn.latches.filterMap fun l => (l.left.find? fun x => x.1 == w).map fun x => (l, x.2)
  let pick := (mine.find? fun x => decide (0 < x.2)).orElse fun _ =>
    mine.find? fun x => (h.wayState w).latchFree.getLsbD (x.1.cls % 8) && decide (x.1.startPt ≤ h.pt) && h.latchReady w x.1.cls
  pick.bind fun x => (x.1.flits[x.2]?).map fun c => .bcast x.1 x.2 c

/-- The next flit of a way: one to be sent again, then by the priority of R95. -/
def Hub.nextFlit (h : Hub) (w : Way) : Option Next :=
  let e := h.wayState w
  if 0 < e.resend then (e.replay[e.replay.length - e.resend]?).map Next.again
  else if 32 ≤ e.replay.length then none
  else (h.nextBcast w).orElse fun _ =>
    (if e.ctlCredit = 0 then none else (h.nextInput (wayBegin w) w 2 e.ctlFrom).map fun x => Next.lane 2 x.1 x.2).orElse fun _ =>
      if e.bulkCredit = 0 then none else (h.nextInput (wayBegin w) w 3 e.bulkFrom).map fun x => Next.lane 3 x.1 x.2

def Next.cell (n : Next) : Cell := match n with | .again c => c | .bcast _ _ c => c | .lane _ _ c => c

/-! ### A flit leaves (R88, R90, R95) -/

/-- A source's first flit of a lane has gone. -/
def Hub.popSource (h : Hub) (at_ : Child) (c : Cell) : Hub :=
  { h with dcn.sources := (h.dcn.sources.map fun s => if s.1 = at_ then (s.1, s.2.erase c) else s).filter fun s => !s.2.isEmpty }

/-- A slot of a receiver is free again. -/
def LinkEnd.free (e : LinkEnd) (lane : Nat) : LinkEnd :=
  if lane = 2 then { e with freedCtl := e.freedCtl + 1 } else { e with freedBulk := e.freedBulk + 1 }

/-- The first flit of an input leaves by a way; it frees its slot once it has left by every way it goes. -/
def Hub.popInput (h : Hub) (at_ : Child) (w : Way) (lane : Nat) (i : Input) (c : Cell) : Hub :=
  match i with
  | none => h.popSource at_ c
  | some x =>
    let e := h.wayState x
    if lane = 2 then h.setWay x ({ e with ctl := e.ctl.drop 1 }.free 2)
    else
      let gone := e.gone ++ [w]
      if (h.routes at_ i c.head).all fun r => gone.contains r then h.setWay x ({ e with bulk := e.bulk.drop 1, gone := [] }.free 3)
      else h.setWay x { e with gone := gone }

/-- A latch whose broadcast has left by every way is empty, and the next broadcast of the class that waits at the node
goes into it (R101). -/
def Hub.emptied (h : Hub) (n : Node) (cls : Nat) : Hub := emptiedFuel n cls h.dcn.bcastWait.length h

/-- One flit more of a latch's broadcast has left by a way. -/
def Hub.popLatch (h : Hub) (w : Way) (l : Latch) (k : Nat) : Hub :=
  let done := decide (l.flits.length ≤ k + 1)
  let step (x : Latch) : Latch :=
    if x.node = l.node ∧ x.cls = l.cls then
      { x with left := if done then x.left.filter fun y => y.1 != w else x.left.map fun y => if y.1 = w then (w, k + 1) else y }
    else x
  let h := { h with dcn.latches := (h.dcn.latches.map step).filter fun x => !x.left.isEmpty }
  let e := h.wayState w
  let h := if done then h.setWay w { e with latchFree := e.latchFree &&& ~~~ BitVec.twoPow 8 (l.cls % 8) } else h
  if h.latched l.node l.cls then h else h.emptied l.node l.cls

/-- A new flit takes the next sequence number and stays for replay (R88), against its lane's credit (R90). -/
def LinkEnd.sendNew (e : LinkEnd) (c : Cell) (lane : Nat) : LinkEnd :=
  { e with txSeq := e.txSeq + 1, replay := e.replay ++ [c],
           ctlCredit := if lane = 2 then e.ctlCredit - 1 else e.ctlCredit,
           bulkCredit := if lane = 3 then e.bulkCredit - 1 else e.bulkCredit }

/-- The lane goes on with this input: to the packet's end in the control lane, and in the bulk lane to the end of the
segment of 4 flits, which counts the head (R95). -/
def LinkEnd.serve (e : LinkEnd) (lane : Nat) (i : Input) (c : Cell) : LinkEnd :=
  if lane = 2 then { e with ctlFrom := some (i, !c.last) }
  else
    let n := e.segment + 1
    let on := !c.last && decide (n < 4)
    { e with bulkFrom := some (i, on), segment := if on then n else 0 }

/-- A flit leaves by a way. -/
def Hub.sends (h : Hub) (w : Way) (x : Next) : Hub :=
  match x with
  | .again _ => h.setWay w { h.wayState w with resend := (h.wayState w).resend - 1 }
  | .bcast l k c => (h.setWay w ((h.wayState w).sendNew c 1)).popLatch w l k
  | .lane n i c => (h.setWay w (((h.wayState w).sendNew c n).serve n i c)).popInput (wayBegin w) w n i c

/-- The sequence number of the flit a way sends next. -/
def LinkEnd.nextSeq (e : LinkEnd) : BitVec 6 := e.txSeq + 1 - BitVec.ofNat 6 e.resend

/-! ### A flit arrives (R88, R91, R94) -/

/-- A CRC failure is counted, and is an event of the half's link CRC source (R92). -/
def Hub.crcFailure (h : Hub) (n : LinkName) : Hub :=
  let s := h.linkHalf n
  let x := h.dcn.half s
  let l := h.link n
  ({ h with dcn := h.dcn.setHalf s { x with crc := sat32 (x.crc + 1) } }.setLink n { l with crcSince := l.crcSince + 1 }).raise
    (0xFC2 + halfNat s) 0 (h.linkArg n l.up)

/-- A DCN protocol error is counted, and is an event of the half's source (R94). -/
def Hub.protocolError (h : Hub) (s : Half) (data : Nat) : Hub :=
  let x := h.dcn.half s
  { h with dcn := h.dcn.setHalf s { x with proto := sat32 (x.proto + 1) } }.raise (0xFC6 + halfNat s) 0 data

/-- A broadcast flit at the end of a way: an agent takes it at once, a node puts the whole broadcast into its latch
(R101). -/
def Hub.takeBcast (h : Hub) (w : Way) (c : Cell) : Hub :=
  match wayEnd w with
  | .agent _ => h
  | .node n =>
    let e := h.wayState w
    let l := if c.index = 0 then [c] else e.bcast ++ [c]
    if c.last then (h.setWay w { e with bcast := [] }).latch { node := n, cls := headOp c.head % 8, flits := l, left := [] } else h.setWay w { e with bcast := l }

/-- A control or bulk flit at the end of a way: it takes a slot, or is at its goal and frees it at once. -/
def Hub.takeLane (h : Hub) (w : Way) (lane : Nat) (c : Cell) : Hub :=
  let e := h.wayState w
  if (h.routes (wayEnd w) (some w) c.head).isEmpty then h.setWay w (e.free lane)
  else h.setWay w (if lane = 2 then { e with ctl := e.ctl ++ [c] } else { e with bulk := e.bulk ++ [c] })

/-- A good flit in order. Every flit of a packet with a bad head is discarded, and its head is one protocol error
(R94). -/
def Hub.takeFlit (h : Hub) (w : Way) (c : Cell) : Hub :=
  let lane := flitLane c.flit
  if headGood lane c.head then (if lane = 1 then h.takeBcast w c else h.takeLane w lane c)
  else
    let h := if lane = 1 then h else h.setWay w ((h.wayState w).free lane)
    if c.index = 0 then h.protocolError (h.linkHalf w.1) (c.head.toNat / 2 ^ 32) else h

/-- The head of the packet a flit belongs to, as it has arrived in this direction. -/
def LinkEnd.headOf (e : LinkEnd) (sent : Cell) (got : Flit) : W64 :=
  if sent.index = 0 then got.data else ((e.heads.find? fun x => x.1 == sent.head).map (·.2)).getD sent.head

/-- A head that has arrived as another one stands for its packet until the packet's last flit (R94). -/
def LinkEnd.noteHead (e : LinkEnd) (sent : Cell) (got : Flit) : LinkEnd :=
  let rest := e.heads.filter fun x => x.1 != sent.head
  if sent.last then { e with heads := rest }
  else if sent.index = 0 then { e with heads := if got.data = sent.head then rest else rest ++ [(sent.head, got.data)] }
  else e

/-- A flit as it arrives: taken where it is the next in order and its CRC is good; one that fails its CRC makes a NAK
due (R91). -/
def Hub.arrives (h : Hub) (w : Way) (seq : BitVec 6) (sent : Cell) (got : Flit) : Hub :=
  let e := h.wayState w
  let expected := seq == e.rxSeq + 1
  if !flitGood got then
    (h.setWay w { e with nakDue := e.nakDue || expected, crcRun := if expected then e.crcRun + 1 else e.crcRun }).crcFailure w.1
  else if !expected then h
  else
    let c : Cell := { flit := got, head := e.headOf sent got, index := sent.index }
    (h.setWay w ({ e with rxSeq := seq, crcRun := 0 }.noteHead sent got)).takeFlit w c

/-- Flits move on a link: it exists, is up and powered; a side link only while it carries an adopted bay (R85). -/
def Hub.linkRuns (h : Hub) (n : LinkName) : Bool := linkExists n && (h.link n).up && h.linkPowered n && h.sideUsed n

/-- FLIT_RECEIVED: the next flit of a way leaves its transmitter and arrives as `flit`; a NAK that is due goes
first (R88 to R91, R95). -/
def opFlitReceived (link : LinkName) (dir : Dir) (flit : Flit) (h : Hub) : Hub :=
  let w : Way := (link, dir)
  if !h.linkRuns link || flitLane flit == 0 || ((h.link link).dir (oppositeDir dir)).nakDue then h else
  match h.nextFlit w with
  | none => h
  | some x => (h.sends w x).arrives w (h.wayState w).nextSeq x.cell flit

/-! ### Link-control flits (R89, R91, Table 4-2) -/

/-- LATCH_FREE of the receiver at the end of a way. -/
def Hub.latchesFree (h : Hub) (w : Way) : Nat :=
  match wayEnd w with
  | .agent _ => 0xFF
  | .node n => ((List.range 8).map fun c => b2n (!h.latched n c) * 2 ^ c).foldl (· + ·) 0

/-- The link-control flit that a receiver sends back: it tells of the opposite direction. -/
def Hub.controlFlit (h : Hub) (link : LinkName) (dir : Dir) : Flit :=
  let w : Way := (link, oppositeDir dir)
  let e := h.wayState w
  mkFlit 0 true (BitVec.ofNat 64 (e.rxSeq.toNat * 2 ^ 58 + b2n e.nakDue * 2 ^ 57 + min 15 e.freedCtl * 2 ^ 53 +
    min 63 e.freedBulk * 2 ^ 47 + h.latchesFree w * 2 ^ 39))

/-- Classes of the broadcasts among a transmitter's unacknowledged flits: their latch is not free yet. -/
def LinkEnd.pendingClasses (e : LinkEnd) : Byte :=
  (e.replay.filter fun c => flitLane c.flit == 1).foldl (fun m c => m ||| BitVec.twoPow 8 (headOp c.head % 8)) 0

/-- What a link-control flit tells a transmitter: acknowledged flits leave the replay buffer, a NAK has the rest sent
again, credits come back. -/
def LinkEnd.told (e : LinkEnd) (v : Nat) : LinkEnd :=
  let left := (e.txSeq.toNat + 64 - bits v 63 58) % 64
  let replay := if left ≤ e.replay.length then e.replay.drop (e.replay.length - left) else e.replay
  let e := { e with replay := replay, resend := if bit v 57 then replay.length else min e.resend replay.length,
                    ctlCredit := min 8 (e.ctlCredit + bits v 56 53), bulkCredit := min 16 (e.bulkCredit + bits v 52 47) }
  { e with latchFree := BitVec.ofNat 8 (bits v 46 39) &&& ~~~ e.pendingClasses }

/-- What the receiver has told, once its link-control flit has arrived. -/
def LinkEnd.tells (e : LinkEnd) (v : Nat) : LinkEnd :=
  { e with nakDue := e.nakDue && !bit v 57, freedCtl := e.freedCtl - bits v 56 53, freedBulk := e.freedBulk - bits v 52 47 }

/-- LINK_CONTROL_FLIT: a receiver sends `controlFlit` back, and it arrives as `flit`; one that fails its CRC is discarded
without a NAK, and the next one tells the same (R89, R91). -/
def opLinkControlFlit (link : LinkName) (dir : Dir) (flit : Flit) (h : Hub) : Hub :=
  let l := h.link link
  if !linkExists link || !l.up || !h.linkPowered link || (flitLane flit) != 0 then h
  else if !(flitGood flit) then h.crcFailure link
  else
    let l := l.setDir dir { l.dir dir with ctlPt := h.pt }
    h.setLink link (l.setDir (oppositeDir dir)
      (((l.dir (oppositeDir dir)).told flit.data.toNat).tells (h.controlFlit link dir).data.toNat))

/-! ### Links that go down and up (R92, R115, R116) -/

def Hub.nodeQueue (h : Hub) (n : Node) : NodeQueue := ((h.dcn.nodes.find? fun q => q.1 == n).map (·.2)).getD {}
def Hub.setNodeQueue (h : Hub) (n : Node) (q : NodeQueue) : Hub :=
  { h with dcn.nodes := (h.dcn.nodes.filter fun x => x.1 != n) ++ (if q = {} then [] else [(n, q)]) }

/-- A LINK notice is queued at its node, with the CRC failures on the link since the one before; a full queue drops it
and counts it (R92, R128, R129). -/
def Hub.queueLink (h : Hub) (n : LinkName) (up : Bool) : Hub :=
  let r := h.reporter n
  let q := h.nodeQueue r
  let l := h.link n
  if 8 ≤ q.notices.length then h.setNodeQueue r { q with lost := q.lost + 1 }
  else
    let x : Notice := { kind := 3, unit := 0, arg := BitVec.ofNat 26 (h.linkArg n up), body := BitVec.ofNat 64 l.crcSince }
    (h.setLink n { l with crcSince := 0 }).setNodeQueue r { q with notices := q.notices ++ [{ link := some (n, up), notice := x }] }

/-- The notice of a node's queue that leaves next leaves it; after drops an OVERFLOW is queued before any newer notice
(R129). -/
def NodeQueue.pop (q : NodeQueue) : NodeQueue :=
  let rest := q.notices.drop 1
  if q.lost = 0 then { q with notices := rest }
  else { notices := rest ++ [{ link := none, notice := { kind := 8, unit := 0, arg := 0, body := BitVec.ofNat 64 q.lost } }], lost := 0 }

/-- A receiver has seen no good link-control flit for 1 us; before the first one since its domain powered on, 10 us are
left to the training of the link (R92, R119, log entry 143). -/
def LinkEnd.silent (e : LinkEnd) (onPt pt : Nat) : Bool :=
  if e.ctlPt ≤ onPt then decide (onPt + 11000 ≤ pt) else decide (e.ctlPt + 1000 ≤ pt)

/-- The cause of a link-down holds in one of its directions. -/
def LinkSt.fails (l : LinkSt) (c : DownCause) (onPt pt : Nat) : Bool :=
  match c with
  | .crcThrice => decide (3 ≤ l.downward.crcRun) || decide (3 ≤ l.upward.crcRun)
  | .silent => l.downward.silent onPt pt || l.upward.silent onPt pt

/-- PT at which a link's domain powered on; the later one for the Span lanes. -/
def Hub.linkOnPt (h : Hub) (n : LinkName) : Nat :=
  if n = .span then max h.dcn.west.onPt h.dcn.east.onPt else (h.dcn.half (h.linkHalf n)).onPt

/-- LINK_DOWN: both directions go down, one node reports it, and it is one event (R92). A latch that has still to send on
the link keeps it among its ways, and empties once the link is up again or its domain has been off (log entry 144). -/
def opLinkDown (link : LinkName) (cause : DownCause) (h : Hub) : Hub :=
  let l := h.link link
  if !linkExists link || !l.up || !h.linkPowered link || !l.fails cause (h.linkOnPt link) h.pt then h else
  let s := h.linkHalf link
  let h := h.setLink link { up := false, downPt := h.pt, crcSince := l.crcSince }
  (h.queueLink link false).raise (0xFC4 + halfNat s) 0 (h.linkArg link false)

/-- LINK_RETRAIN: every 100 us; a success is reported as up (R92). -/
def opLinkRetrain (link : LinkName) (succeeded : Bool) (h : Hub) : Hub :=
  let l := h.link link
  if l.up || !h.linkPowered link || decide (h.pt < l.downPt + 100000) then h
  else if succeeded then
    let e (d : Dir) : LinkEnd := { ctlPt := h.pt, latchFree := BitVec.ofNat 8 (h.latchesFree (link, d)) }
    (h.setLink link { downward := e .down, upward := e .up, crcSince := l.crcSince }).queueLink link true
  else h.setLink link { l with downPt := h.pt }

/-- A bay's own path to the root of its half. -/
def Hub.ownPath (h : Hub) (s : Half) (p b : Nat) : Bool := (h.link (.bay s p b)).up && (h.link (.pier s p)).up

/-- The bay that adopts a cut-off bay: pier p - 1 before pier p + 1 (Table 4-11). -/
def Hub.adopter (h : Hub) (s : Half) (p b : Nat) : Option Nat :=
  let down := (p + 15) % 16
  let up := (p + 1) % 16
  if bayExists down b && (h.link (.side s down b)).up && h.ownPath s down b then some down
  else if bayExists up b && (h.link (.side s p b)).up && h.ownPath s up b then some up
  else none

/-- All bays that are present. -/
def allBays : List (Half × Nat × Nat) :=
  [Half.west, Half.east].flatMap fun s => (List.range 62).map fun i => (s, i / 4, i % 4)

/-- Compute the routes (R115): every bay whose own path is down is adopted where an adopter exists. -/
def Hub.reroute (h : Hub) : Hub :=
  { h with dcn.adopted := allBays.filterMap fun x =>
      if h.ownPath x.1 x.2.1 x.2.2 then none else (h.adopter x.1 x.2.1 x.2.2).map fun q => (x, q) }

/-- A route change makes every agent it cuts off Unreachable (R121). -/
def Hub.cutOff (h : Hub) : Hub :=
  { h with agents := h.agents.map fun (p : Nat × Agent) =>
      if p.2.powered && !h.linksUp (unitOf p.1) then (p.1, { p.2 with unreachable := true }) else p }

/-- The root of a half is dead as the hub sees it: none of its links to piers is up (Table 4-11, log entry 97). -/
def Hub.rootDead (h : Hub) (s : Half) : Bool := (List.range 16).all fun p => !(h.link (.pier s p)).up

/-- A root that a link-down shows to be dead is an event of its half's DCN root source (Table 4-11). -/
def Hub.noteRoot (h : Hub) (n : LinkName) : Hub :=
  match n with
  | .pier s _ => if h.rootDead s then h.raise (0xFC8 + halfNat s) 0 0 else h
  | _ => h

/-- Reissue the broadcasts of the 10 us before a link-down report in their order, with their SEQ (R116), each at the
next instant at which one may start (R102). A copy is no issue of its own, and is not reissued again (log entry 145). -/
def Hub.reissueRecent (h : Hub) (report : Nat) : Hub :=
  (h.dcn.issued.filter fun b => !b.copy && decide (report ≤ b.issuePt + 10000)).foldl
    (fun h b => h.atStage (rootStage h.red.holder) fun h => h.start { b with issuePt := h.issueAt b.cls, copy := true }) h

/-- A LINK notice at the hub; after a link-down the routes are computed and recent broadcasts reissued (R115, R116). -/
def Hub.linkReported (h : Hub) (link : LinkName) (up : Bool) : Hub :=
  if up then h else (h.reroute.cutOff.noteRoot link).reissueRecent h.pt

/-- A node's oldest notice leaves. -/
def Hub.sendNodeNotice (h : Hub) (n : Node) (x : NodeNotice) : Hub :=
  (h.setNodeQueue n (h.nodeQueue n).pop).inject (.node n) x.notice.pkt

/-- The OVERFLOW notices at the front of a node's queue leave, by fuel (R129). -/
def sendOverflows (n : Node) : Nat → Hub → Hub
  | 0, h => h
  | f + 1, h =>
    match (h.nodeQueue n).notices with
    | x :: _ => if x.link = none then sendOverflows n f (h.sendNodeNotice n x) else h
    | [] => h

/-- LINK_NOTICE: the link's node sends its oldest notice, behind an OVERFLOW that stands before it; the notice waits
while the node's path is down (R92). -/
def opLinkNotice (link : LinkName) (h : Hub) : Hub :=
  let n := h.reporter link
  if !h.nodeUp n then h else
  let h := sendOverflows n (h.nodeQueue n).notices.length h
  match (h.nodeQueue n).notices with
  | [] => h
  | x :: _ =>
    match x.link with
    | some (l, up) => if l = link then (h.sendNodeNotice n x).linkReported link up else h
    | none => h

/-- ROUTE_RESTORE: with the link up again the bays it had cut off return to their own path; nothing is
reissued (R116). -/
def opRouteRestore (link : LinkName) (h : Hub) : Hub :=
  if !(h.link link).up then h else
  { h with dcn.adopted := h.dcn.adopted.filter fun a => !h.ownPath a.1.1 a.1.2.1 a.1.2.2 }

/-! ### Combines at the nodes (R107, R110) -/

/-- The link a COMBINE takes to reach a node is up. -/
def Hub.childUp (h : Hub) (c : Child) : Bool :=
  match c with
  | .agent u => (h.link (.agent (ordinalOf u))).up
  | .node (.bay s p b) => h.bayUp s p b
  | .node (.pier s p) => (h.link (.pier s p)).up
  | .node (.root _) => (h.link .span).up

/-- A contribution after the node has sent its COMBINE is discarded and counted as late. -/
def Hub.lateCombine (h : Hub) (s : Half) : Hub :=
  let x := h.dcn.half s
  { h with dcn := h.dcn.setHalf s { x with late := sat32 (x.late + 1) } }

/-- A child's contribution at a node: the other root's is kept for last (R110). -/
def NodeSlot.contribute (s : NodeSlot) (op : Nat) (child : Child) (body : Reduced) : NodeSlot :=
  let s := { s with expected := s.expected.filter fun e => e.1 != child }
  match child with
  | .node (.root _) => { s with last := some body }
  | _ => { s with acc := s.acc.join op body }

/-- COMBINE_RECEIVED: a node reduces a child's COMBINE, and sends its own when all are in; after it has sent its own,
the contribution is late. -/
def opCombineReceived (node : Node) (child : Child) (tag : Byte) (h : Hub) : Hub :=
  match h.combineOrEnded tag with
  | none => h
  | some c =>
    match takeFirst (fun (m : UpMsg) => m.node == node && m.child == child) c.ups with
    | none => h
    | some (m, rest) =>
      if !h.childUp child then h else
      let c := { c with ups := rest }
      match c.slots.find? fun s => s.node == node with
      | none => (h.setCombine c).lateCombine (nodeHalf node)
      | some s =>
        let s := s.contribute c.op child m.body
        if s.expected.isEmpty then h.sendUp c s (s.total c.op)
        else h.setCombine { c with slots := c.slots.map fun x => if x.node = node then s else x }

/-- COMBINE_TIMEOUT: the node sends its COMBINE without what is missing, and counts in MISSING the expected
agents under each child that has not reported. -/
def opCombineTimeout (node : Node) (tag : Byte) (h : Hub) : Hub :=
  match h.combine tag with
  | none => h
  | some c =>
    match c.slots.find? fun s => s.node == node with
    | none => h
    | some s =>
      if h.pt < max c.issuePt c.instant + 1000 * c.timeoutUs then h else
      let r := s.total c.op
      h.sendUp c s { r with missing := r.missing + (s.expected.map fun e => e.2).foldl (· + ·) 0 }

/-! ### Enumeration (R121, R122) -/

/-- Another Unit ID than the expected one in the answer to an ENUM (R122): the event's DATA is bits [63:32] of the
REG_RSP's head. -/
def Hub.wrongEnum (h : Hub) (unit answer : UnitId) (tag : Byte) : Hub :=
  h.protocolError (halfOf unit) (4 * 2 ^ 28 + answer.toNat * 2 ^ 8 + tag.toNat)

/-- 100 us have passed since the latest ENUM to a unit (R122). -/
def Hub.enumDue (h : Hub) (u : UnitId) : Bool :=
  match mapGet none h.dcn.enums (ordinalOf u) with
  | some p => decide (p + 100000 ≤ h.pt)
  | none => true

/-- ENUM_PROBE: the hub sends ENUM to an Unreachable agent, every 100 us. With the expected answer it reads AGENT_STATE,
and takes its STATE; another Unit ID is a protocol fault (R121, R122). -/
def opEnumProbe (unit : UnitId) (answer : Option UnitId) (h : Hub) : Hub :=
  if h.presence unit ≠ 3 ∨ h.pathUp unit = false ∨ h.enumDue unit = false then h else
  let tag := h.dcn.freeTag h.pt
  let h := { h with dcn.enums := mapSet none h.dcn.enums (ordinalOf unit) (some h.pt),
                    dcn.nextTag := tag + 1 }.injectDown (enumPkt unit tag)
  match answer with
  | none => h
  | some u =>
    let h := h.inject (.agent unit) (rspPkt u tag 0 (u.setWidth 32))
    if u = unit then
      let read := h.dcn.freeTag h.pt
      let a := h.agent unit
      (({ h with dcn.nextTag := read + 1 }.injectDown (regPkt unit read false 1 0)).setAgent unit
        { a with unreachable := false }).learnState unit a.state
    else h.wrongEnum unit u tag

/-! ### Meanings -/

def execFlitReceived (link : LinkName) (dir : Dir) (flit : Flit) (st : State) : Host.Outcome State Fault Refusal :=
  .next { st with hub := opFlitReceived link dir flit st.hub }
def execLinkControlFlit (link : LinkName) (dir : Dir) (flit : Flit) (st : State) :
    Host.Outcome State Fault Refusal :=
  .next { st with hub := opLinkControlFlit link dir flit st.hub }
def execLinkDown (link : LinkName) (cause : DownCause) (st : State) : Host.Outcome State Fault Refusal :=
  .next { st with hub := opLinkDown link cause st.hub }
def execLinkRetrain (link : LinkName) (succeeded : Bool) (st : State) : Host.Outcome State Fault Refusal :=
  .next { st with hub := opLinkRetrain link succeeded st.hub }
def execLinkNotice (link : LinkName) (st : State) : Host.Outcome State Fault Refusal :=
  .next { st with hub := opLinkNotice link st.hub }
def execRouteRestore (link : LinkName) (st : State) : Host.Outcome State Fault Refusal :=
  .next { st with hub := opRouteRestore link st.hub }
def execCombineReceived (node : Node) (child : Child) (tag : Byte) (st : State) :
    Host.Outcome State Fault Refusal :=
  .next { st with hub := opCombineReceived node child tag st.hub }
def execCombineTimeout (node : Node) (tag : Byte) (st : State) : Host.Outcome State Fault Refusal :=
  .next { st with hub := opCombineTimeout node tag st.hub }
def execEnumProbe (unit : UnitId) (answer : Option UnitId) (st : State) : Host.Outcome State Fault Refusal :=
  .next { st with hub := opEnumProbe unit answer st.hub }

end Sys2Proof.Machine
end

