-- ==== Sys2Proof/Machine/Flags.lean ====
section
/-! DEFINITION. What the hub derives from its state: the level of its balls (R35, R36, R51), HUB_STATE and
TIME_STATE (Table 19-3), FC_STATE and FAULT_SUMMARY (Tables 13-9, 2-4), the Keystone registers (Table 15-8),
the island's registers (Table 17-10) and the I3C image (Table 2-4). -/

namespace Sys2Proof.Machine

/-! ### Keystone (R354, Table 15-8) -/

/-- Alive: a valid word in each of the latest 3 counted periods, none with WITHDRAW (R354). -/
def KsSide.alive (k : KsSide) : Bool := k.history == [true, true, true] && !k.withdraw

/-- STANDBY_SYNC: the standby is alive with ROLE 2 (R365). -/
def Red.standbySync (r : Red) : Bool :=
  let k := r.ks (otherHalf r.holder)
  r.granted && k.alive && k.role == 2

def Red.ksState (r : Red) : Nat :=
  halfNat r.holder + 2 * b2n r.granted + 4 * b2n r.headless + 8 * b2n r.ksWest.alive + 16 * b2n r.ksEast.alive +
    r.ksWest.role.toNat * 0x100 + r.ksEast.role.toNat * 0x1000

def Red.ksMissed (r : Red) : Nat := sat8 r.ksWest.missed + sat8 r.ksEast.missed * 0x100

/-- The 32 octets of Table 15-8. -/
def Red.registers (r : Red) : List Byte :=
  le 4 r.claim.toNat ++ le 4 r.ksState ++ le 4 r.ksMissed ++ le 4 (sat32 r.grants) ++ le 8 r.grantPt ++
    le 4 r.cause ++ le 4 (sat32 r.rejects)

/-! ### Hub state -/

def Hub.hubState (h : Hub) : Nat :=
  b2n (h.asleep && h.power.startUp == .ready) + 2 * b2n h.fc.safe + 4 * b2n (h.red.granted && h.red.holder == .west) +
    8 * b2n (h.red.granted && h.red.holder == .east) + 16 * b2n h.red.standbySync + 32 * b2n h.unsighted +
    64 * b2n (!h.island.sessions.isEmpty) + 128 * b2n h.ident.assigned + 256 * h.lcNat

def modeCode (m : TimeMode) : Nat := match m with | .interpolated => 0 | .deadReckoned => 1 | .holdover => 2
def sightCode (s : SightState) : Nat :=
  match s with
  | .idle => 0
  | .measuring => 1
  | .committed => 2
  | .behind => 3
  | .failed => 4

def Hub.timeState (h : Hub) : Nat :=
  modeCode h.time.mode + 4 * b2n h.unsighted + 8 * b2n h.time.pllLocked + 16 * sightCode h.sight.state +
    256 * h.sight.depth + 65536 * b2n h.sight.deep

/-! ### Fault collector -/

def Fc.state (f : Fc) : Nat :=
  8 * f.highest + 64 * b2n f.safe + 128 * b2n f.historyValid + 0x10000 * sat16 f.unread.length

/-- FAULT_SUMMARY (Table 2-4, R315). -/
def Fc.summary (f : Fc) : Nat :=
  sat16 f.unread.length + f.highest * 0x10000 + (((f.unread.head?).map (·.source)).getD 0) * 2 ^ 32

/-- A fault record's 64 octets (Table 13-3). -/
def FaultRec.bytes (r : FaultRec) : List Byte :=
  let row := (sourceRow r.source).getD {}
  let b := le 4 r.seq.toNat ++ le 2 (r.source + 0x1000 * b2n row.dataPath + 0x2000 * b2n row.fixed) ++
    le 2 r.unit.toNat ++ le 1 (r.configured + 8 * r.performed) ++
    le 1 (b2n r.read + 2 * b2n r.cleared + 4 * b2n r.handling + 8 * b2n r.done + 16 * b2n r.pendingRet +
      32 * b2n r.taintSent + 64 * b2n r.history) ++
    [BitVec.ofNat 8 r.n, BitVec.ofNat 8 r.wexp] ++ le 4 r.data.toNat ++ le 8 r.firstPt ++ le 8 r.severePt ++
    le 8 r.originPt ++ le 8 r.donePt ++ le 2 (sat16 r.repeats) ++ le 2 (sat16 r.merged) ++ le 2 (sat16 r.conseq) ++
    le 2 (sat16 r.discarded) ++ le 4 r.epoch.toNat
  b ++ le 4 (crc32c b).toNat

/-- The record in a slot, zero where none is held (Table 13-9). -/
def Fc.slotBytes (f : Fc) (slot : Nat) : List Byte :=
  match f.all.find? fun r => r.slot == slot with
  | some r => r.bytes
  | none => zeros 64

def FaultLogEntry.bytes (e : FaultLogEntry) : List Byte :=
  le 8 e.pt ++ le 2 (e.source + 0x1000 * e.disposition) ++ le 2 e.unit.toNat ++ le 4 e.data.toNat

/-- The history, 272 octets; zero before the first capture (R317). -/
def Fc.historyBytes (f : Fc) : List Byte :=
  match f.history with
  | none => zeros 272
  | some x => fit 272 (le 4 x.recordSeq.toNat ++ zeros 4 ++ le 8 x.capturePt ++ x.entries.flatMap FaultLogEntry.bytes)

/-! ### Balls -/

/-- FAULT_SAFE_N is pulled low: until the first grant of start-up, and in the safe state (R35). -/
def Hub.faultSafeLow (h : Hub) : Bool := !h.red.granted || h.fc.safe

/-- HUB_ALERT_N is pulled low: an unread record of notify or higher, or the safe state (R36, R315), before Ready
too, where Table 2-1 has it released (log entry 167). -/
def Hub.alertLow (h : Hub) : Bool := !h.fc.unread.isEmpty || h.fc.safe

/-- SAFE_E is high, toward the East output stages (R53). -/
def Hub.safeEHigh (h : Hub) : Bool := h.fc.safe

/-- POD_TRIG_OUT is high (R51). -/
def Hub.trigOutHigh (h : Hub) : Bool := decide (h.pt < h.trig.outUntil)

/-! ### I3C image (Table 2-4) -/

/-- Bytes 0x00 to 0x27 as an image taken now. -/
def Hub.imageBytes (h : Hub) : List Byte :=
  [0x01, 0x09] ++ le 2 h.ident.chipId.toNat ++ le 4 h.hubState ++ le 4 h.red.claim.toNat ++
    le 4 (h.red.ksMissed % 0x10000) ++ le 8 h.fc.summary ++ le 8 h.pt ++ le 4 h.power.domains.toNat ++
    le 4 (sat16 h.i3c.excursions + h.i3c.lowest % 1024 * 0x10000)

/-! ### Island (Table 17-10) -/

/-- A key field holds a valid key: sealed, and not every bit set (R394). -/
def KeyField.valid (k : KeyField) : Bool := k.sealed && k.hash != List.replicate 48 0xFF

/-- The identity key in force: the scalar of the sealed slot; none before it exists, after the wipe, or where
both slots failed (R392, R401). -/
def Otp.identityScalar (o : Otp) : Option Nat :=
  if o.wiped then none else
  match o.identity0 with
  | some (d, true) => some d
  | _ => match o.identity1 with
    | some (d, true) => some d
    | _ => none

/-- SI_KEYS.IDENTITY. -/
def Otp.identityCode (o : Otp) : Nat :=
  if o.wiped then 0 else
  match o.identity0, o.identity1 with
  | some (_, true), _ => 1
  | _, some (_, true) => 2
  | some (_, false), some (_, false) => 3
  | _, _ => 0

def Hub.siLc (h : Hub) : Nat :=
  let o := h.island.otp
  h.lcNat + 0x100 * b2n h.island.entropyFail + 0x200 * b2n (o.sidePending && !o.sideDone) +
    0x400 * b2n (o.wipePending && !o.wipeDone) + 0x800 * b2n h.island.testGate

/-- The certificate installed: its block in the package flash, where the block's CRC-32C is good (R402). -/
def Island.certificate (i : Island) : Option (List Byte) :=
  i.cert.bind fun b => if b.drop 272 == le 4 (crc32c (b.take 272)).toNat then some (b.take 272) else none

def Hub.siKeys (h : Hub) : Nat :=
  let o := h.island.otp
  2 * b2n o.observer.valid + 4 * b2n o.operator.valid + 8 * b2n o.vendor.valid + 16 * b2n h.island.certificate.isSome +
    32 * b2n (o.patternKey.isSome && !o.wiped) + 64 * o.identityCode

/-- A free value of 32 bits from the entropy source (R45, log entry 8). -/
def entropyWord (n : Nat) : W32 :=
  BitVec.ofNat 32 (leNat ((List.range 4).map fun i => Config.entropyByte (0x10000000 + 4 * n + i)))

/-- The 48-bit provisioned ID (R45). -/
def Hub.provisionedId (h : Hub) : Nat :=
  0x2E5B * 2 ^ 33 + 2 ^ 32 + (entropyWord h.i3c.idDraws).toNat

/-- Running, Evaluating or Waiting. -/
def ProbeSt.active (s : ProbeSt) : Bool := s == .running || s == .evaluating || s == .waiting

/-- Domains a program's loads need (R297): an aggregate load the DCN, a sounding load the combiners too. -/
def programDomains (ws : List W32) : List Nat :=
  let opIs (n : Nat) (w : W32) : Bool := bits w.toNat 31 26 == n
  (if ws.any fun w => opIs 33 w && bits w.toNat 13 2 == 2 then [4, 5] else []) ++
    (if ws.any fun w => opIs 34 w then [4, 5, 12, 13] else [])

/-- A domain that the probe engine needs: 14 for short periods, and each domain from 20 us before an instant until its
evaluation has ended (R297). -/
def Hub.probeNeeds (h : Hub) (d : Nat) : Bool :=
  h.probe.slots.any fun s =>
    let near := s.2.state.active && (s.2.state != .running || decide (s.2.next ≤ h.pt + 20000))
    (decide (d = 14) && s.2.state.active && decide (s.2.periodUs < 100)) || (near && (programDomains s.2.program ++ [14]).contains d)

/-- A sighting step carries PT from `old` to `pt`: an active slot skips and counts the instants passed, and its next instant is
the first at or after `pt` (R296). Of a Running slot an instant that was due before the step still waits for the engine
(R294); a slot that is Evaluating or Waiting skips that one too. -/
def ProbeSlot.stepped (s : ProbeSlot) (old pt : Nat) : ProbeSlot :=
  let p := 1000 * s.periodUs
  let waits := s.state == .running && decide (s.next ≤ old)
  let first := if waits then s.after.getD (s.next + p) else s.next
  if !s.state.active || decide (pt ≤ first) || decide (p = 0) then s
  else
    let k := (pt - first + p - 1) / p
    let s := { s with skippedN := s.skippedN + k }
    if waits then { s with after := some (first + k * p) } else { s with next := first + k * p }

def Hub.probeSteppedPast (h : Hub) (old pt : Nat) : Hub :=
  { h with probe.slots := h.probe.slots.map fun (s : Nat × ProbeSlot) => (s.1, s.2.stepped old pt) }

end Sys2Proof.Machine
end

