-- ==== Sys2Proof/Machine/Collect.lean ====
section
/-! DEFINITION. The trace collectors (R217 to R236): what enters a stream, how lines fill and are written under
the region's mode, drops and gaps, Marks and Closed records; and what a source's engine does (R141, R214, R231,
R245). -/

namespace Sys2Proof.Machine

/-! ### Records (R218) -/

/-- A record as a 128-bit number (Table 9-3). -/
def Rec.value (r : Rec) : Nat :=
  r.typ.toNat * 2 ^ 124 + r.source.toNat * 2 ^ 104 + r.pt % 2 ^ 32 * 2 ^ 72 + r.tag.toNat * 2 ^ 40 + r.payload.toNat

/-- A Fix: full PT, REASON and the LINE_SEQ of the line that holds it (R81, Table 9-3). -/
def fixRec (c : Nat) (reason : BitVec 4) (pt lineSeq : Nat) : Rec :=
  { typ := 5, source := collectorSource c, pt := pt, tag := BitVec.ofNat 32 (pt / 2 ^ 32),
    payload := BitVec.ofNat 40 (reason.toNat * 2 ^ 36 + lineSeq % 2 ^ 32) }

/-! ### Region (R223, R224) -/

/-- Lines of a sub-region. -/
def Trace.lines (t : Trace) : Nat := t.size / 2048

/-- The byte address of a line of collector `c`. -/
def Trace.lineAddr (t : Trace) (c lineSeq : Nat) : Nat :=
  t.base + c * (t.size / 32) + lineSeq % t.lines * 64

/-! ### Lines (R220, R221) -/

/-- The Fix that must precede a record: the one that is due, the one of a block boundary, or the periodic one
(R81, R221). -/
def Collector.fixBefore (c : Collector) (r : Rec) : Option (BitVec 4) :=
  match c.fixDue with
  | some x => some x
  | none =>
    if c.line.isEmpty && c.lineSeq % 1024 == 0 then some 3
    else if r.typ ≠ 5 ∧ c.lastFixPt + 1000000000 ≤ r.pt then some 2
    else none

/-- A record enters the line; the trigger Mark notes its line (R226). -/
def Collector.place (c : Collector) (now : Nat) (r : Rec) : Collector :=
  let c := { c with line := c.line ++ [r], lineSincePt := if c.line.isEmpty then now else c.lineSincePt,
                    lastFixPt := if r.typ = 5 then r.pt else c.lastFixPt, wroteSince := decide (r.typ ≠ 5) }
  if r.typ = 7 ∧ r.payload.getLsbD 35 = true then { c with triggered := true, triggerSeq := c.lineSeq } else c

/-- Fill the line from the stream, by fuel: at most four slots. -/
def Collector.fillFuel (c : Collector) (i now : Nat) : Nat → Collector
  | 0 => c
  | f + 1 =>
    if 4 ≤ c.line.length then c else
    match c.intake with
    | [] => c
    | r :: rest =>
      match c.fixBefore r with
      | some x => (({ c with fixDue := none } : Collector).place now (fixRec i x r.pt c.lineSeq)).fillFuel i now f
      | none =>
        let r := if r.typ = 5 then fixRec i (BitVec.ofNat 4 (bits r.payload.toNat 39 36)) r.pt c.lineSeq else r
        (({ c with intake := rest } : Collector).place now r).fillFuel i now f

/-- The collector works: a region is set, and it is neither frozen nor halted. -/
def Hub.collecting1 (h : Hub) (i : Nat) : Bool :=
  h.trace.isSet && !(h.collector i).frozen && !(h.collector i).safeHalt

def Hub.fillLine (h : Hub) (i : Nat) : Hub :=
  if h.collecting1 i then h.setCollector i ((h.collector i).fillFuel i h.pt 4) else h

/-! ### Drops (R235, R236) -/

/-- Records the intake holds. -/
def Collector.held (c : Collector) : Nat := (c.intake.filter Rec.ofSource).length

/-- Count a drop of a source. -/
def Collector.countDrop (c : Collector) (s : SourceId) : Collector :=
  { c with dropped := sat32 (c.dropped + 1),
           mirrors := mapMod {} c.mirrors s.toNat fun m => { m with drops := sat32 (m.drops + 1) } }

/-- A record offered to a frozen collector (R225). -/
def Collector.frozenDrop (c : Collector) (s : SourceId) : Collector :=
  { c.countDrop s with frozenDrops := sat32 (c.frozenDrops + 1) }

/-- Freeze: what has not entered a line is dropped, and no Gap is written (R225). -/
def Collector.freeze (c : Collector) (isFull : Bool) : Collector :=
  let d := (c.intake.filter Rec.ofSource).foldl (fun (c : Collector) r => c.frozenDrop r.source) c.unwrite
  { d with frozen := true, full := isFull, intake := [], line := [], marks := [], gap := none }

/-- The gap closes once the intake has room (R235). -/
def Collector.closeGap (c : Collector) (i : Nat) : Collector := if 512 ≤ c.held then c else c.endGap i

/-- A drop opens the gap, or extends it. -/
def Collector.gapDrop (c : Collector) (r : Rec) (cause : BitVec 2) : Collector :=
  let g : Gap := match c.gap with
    | some g => { g with dropped := g.dropped + 1, lastPt := r.pt }
    | none => { dropped := 1, firstPt := r.pt, lastPt := r.pt, cause := cause }
  { c.countDrop r.source with gap := some g }

/-- A record is kept, to be written. -/
def Collector.accept (c : Collector) (r : Rec) : Collector :=
  let c := { c with intake := c.intake ++ [r], accepted := sat64 (c.accepted + 1),
                    mirrors := mapMod {} c.mirrors r.source.toNat fun m => { m with written := m.written + 1 } }
  { c with hwm := max c.hwm c.held }

/-- A record reaches a collector's intake: kept, or dropped and counted. The port's timing is not in the model,
so CAUSE is a free value. -/
def Hub.offer (h : Hub) (i : Nat) (r : Rec) : Hub :=
  let c := h.collector i
  if c.safeHalt then h
  else if c.frozen then h.setCollector i (c.frozenDrop r.source)
  else if 512 ≤ c.held then
    let cause : BitVec 2 := if Config.portWaiting h.free then 1 else 0
    (h.setCollector i (c.gapDrop r cause)).drawFree
  else (h.setCollector i ((c.closeGap i).accept r)).fillLine i

/-- The collector's own record takes its place in the stream. -/
def Hub.ownRecord (h : Hub) (i : Nat) (r : Rec) : Hub :=
  let c := h.collector i
  if c.frozen || c.safeHalt then h else (h.setCollector i { c with intake := c.intake ++ [r] }).fillLine i

/-! ### Line writes (R220, R225, R227) -/

/-- The full PT of a Fix in memory. -/
def fixAt (m : SMap Byte) (a : Nat) : Nat :=
  let v := leNat (memRead m a 16)
  bits v 71 40 * 2 ^ 32 + bits v 103 72

/-- The octets of a line: unfilled slots zero. -/
def lineBytes (l : List Rec) : List Byte := fit 64 (l.flatMap fun r => le 16 r.value)

/-- After line LINE_SEQ has been written: the region's mode (Table 9-4). -/
def Collector.written (c : Collector) (t : Trace) (anchor : Nat) : Collector :=
  let s := c.lineSeq
  let after := if c.triggered && decide (c.triggerSeq < s) then c.afterTrigger + 1 else c.afterTrigger
  let d := { c with lineSeq := s + 1, line := [], anchorPt := anchor, afterTrigger := after }
  if t.mode = 1 ∧ s + 1 = t.lines then d.freeze true
  else if t.mode = 2 ∧ c.triggered = true ∧ after = t.k then d.freeze false
  else d

/-- Write the line as it stands. -/
def Hub.writeLine (i : Nat) (m : SMap Byte) (h : Hub) : Hub × SMap Byte :=
  let t := h.trace
  let c := h.collector i
  let a := t.lineAddr i c.lineSeq
  let anchor := if t.lines ≤ c.lineSeq ∧ c.lineSeq % 1024 = 0 then fixAt m a else c.anchorPt
  (h.setCollector i (c.written t anchor), memWrite m a (lineBytes c.line))

/-- LINE_WRITE: a full line, or one whose first record entered it 10 us ago. -/
def opLineWrite (collector : Nat) (m : SMap Byte) (h : Hub) : Hub × SMap Byte :=
  if decide (32 ≤ collector) || !h.collecting1 collector then (h, m) else
  let h := h.fillLine collector
  let c := h.collector collector
  if c.line.length = 4 ∨ (c.line ≠ [] ∧ c.lineSincePt + 10000 ≤ h.pt) then
    let r := h.writeLine collector m
    (r.1.fillLine collector, r.2)
  else (h, m)

/-- Write out everything a collector holds, by fuel (R239). -/
def flushFuel (i : Nat) : Nat → Hub × SMap Byte → Hub × SMap Byte
  | 0, s => s
  | f + 1, s =>
    if !s.1.collecting1 i then s else
    let h := s.1.fillLine i
    if (h.collector i).line.isEmpty then (h, s.2) else flushFuel i f (h.writeLine i s.2)

def Hub.flushLine (s : Hub × SMap Byte) (i : Nat) : Hub × SMap Byte :=
  flushFuel i ((s.1.collector i).intake.length + 2) s

/-! ### Collector events -/

/-- GAP_CLOSE (R235). -/
def opGapClose (collector : Nat) (h : Hub) : Hub :=
  let c := h.collector collector
  if c.frozen || c.safeHalt then h else (h.setCollector collector (c.closeGap collector)).fillLine collector

/-- PERIODIC_FIX: where the collector has written a record since the latest Fix, or is about to (R81). -/
def opPeriodicFix (collector : Nat) (h : Hub) : Hub :=
  let c := h.collector collector
  if !c.wroteSince && c.line.isEmpty && c.intake.isEmpty then h else h.ownRecord collector (fixDueRec 2 h.pt)

/-- Place the Marks of one kind whose instant has come (R222, R226). -/
def Hub.placeMarks (h : Hub) (i : Nat) (trigger : Bool) : Hub :=
  let due (m : MarkReq) : Bool := m.trigger == trigger && decide (m.instant ≤ h.pt)
  let c := h.collector i
  (c.marks.filter due).foldl (fun (h : Hub) m => h.ownRecord i (m.record h.red.holder))
    (h.setCollector i { c with marks := c.marks.filter fun m => !due m })

def opTriggerInstant (collector : Nat) (h : Hub) : Hub := if 32 ≤ collector then h else h.placeMarks collector true
def opMarkInstant (collector : Nat) (h : Hub) : Hub := if 32 ≤ collector then h else h.placeMarks collector false

/-- COLLECTOR_WAKE: WAKE_LEVEL reached, or frozen (R243). -/
def opCollectorWake (collector : Nat) (h : Hub) : Hub :=
  let c := h.collector collector
  if c.frozen || (c.wakeLevel != 0 && decide (c.wakeLevel.toNat ≤ c.held)) then h.wakeWork else h

/-- SOURCE_CLOSED: a Closed for a source that was disabled, or whose unit has gone (R232, R233). -/
def opSourceClosed (source : SourceId) (h : Hub) : Hub :=
  let i := collectorOf (sourceUnit source)
  let c := h.collector i
  let m := mapGet {} c.mirrors source.toNat
  match m.closing with
  | none => h
  | some (reason, pt) =>
    if h.pt < pt then h else
    let h := h.setCollector i { c with mirrors := mapSet {} c.mirrors source.toNat { m with closing := none } }
    h.ownRecord i (m.closedRec source reason pt)

/-! ### Sources (R214, R215, R231) -/

/-- The record types a source's kind emits (Table 9-1): commands, Switch, Barrier. -/
def emits (u : UnitId) (e : Nat) : Bool × Bool × Bool :=
  match unitClass u, e with
  | 0, 0 => (true, true, true)
  | 0, 1 => (false, false, false)
  | 0, _ => (true, false, true)
  | 1, 0 => (true, true, true)
  | 1, 1 => (true, true, true)
  | 1, _ => (true, false, true)
  | 2, 0 => (true, true, true)
  | 2, _ => (true, false, true)
  | 7, _ => (true, false, true)
  | _, _ => (true, false, false)

/-- PARTITION, SAMPLED and MEMBER of a record's payload (Table 9-3, R219). -/
def Agent.recHead (a : Agent) (sampled : Bool) : Nat :=
  a.partition.toNat * 2 ^ 34 + b2n sampled * 2 ^ 33 + b2n a.member * 2 ^ 32

/-- Emit a record at the agent's replica; a source whose replica has not loaded emits nothing (R215). -/
def Hub.emitRec (h : Hub) (u : UnitId) (e : Nat) (typ : BitVec 4) (tag : W32) (payload : Nat) : Hub :=
  if !(h.agent u).replicaLoaded then h else
  h.offer (collectorOf u)
    { typ := typ, source := sourceOf u e, pt := h.pt, tag := tag, payload := BitVec.ofNat 40 payload }

/-- A command begins or ends under a slot (Table 11-3 COMMANDS and OPEN). -/
def TapSlot.begin (t : TapSlot) (tag : W32) : TapSlot :=
  if t.selectsTag tag then { t with openTag := some tag, acc := t.acc.noteTag tag } else t
def TapSlot.finish (t : TapSlot) (tag : W32) : TapSlot :=
  if t.ctrl.getLsbD 0 && t.openTag == some tag then { t with openTag := none, acc := { t.acc.noteTag tag with commands := t.acc.commands + 1 } }
  else t

/-- Change the tap slots of an engine. -/
def Agent.modTaps (a : Agent) (e : Nat) (f : TapSlot → TapSlot) : Agent :=
  { a with taps := a.taps.map fun (t : Nat × TapSlot) => if t.1 / 4 = e then (t.1, f t.2) else t }

/-- A command begins: EXPIRED clears, the watchdog's origin (R141), the tag of a command step, the taps and the sampling count. -/
def Agent.beginCmd (a : Agent) (e pt : Nat) (tag : W32) : Agent :=
  let a := a.settle pt
  let g := a.engine e
  let enabled := g.trace.getLsbD 0
  let pick := g.begun % (g.kM1.toNat + 1) == 0
  let r : RunningCmd := { tag := tag, beginPt := pt, traced := enabled && pick, sampled := enabled && pick && g.kM1 != 0 }
  let g := { g with running := some r, expired := false, origin := a.ungated pt, beats := 0, beatTag := some tag }
  let a := a.setEngine e { g with begun := if enabled then g.begun + 1 else g.begun }
  let a := a.modTaps e fun t => t.begin tag
  match a.stepRun with
  | some s => if s.command ∧ s.engine.toNat = e then { a with step := { a.step with tag := tag } } else a
  | none => a

/-- A command ends: CMDS, EXPIRED, the watchdog's origin and the taps. -/
def Agent.endCmd (a : Agent) (u : UnitId) (e pt : Nat) (tag : W32) : Agent :=
  let a := a.settle pt
  let a := a.setEngine e { a.engine e with running := none, expired := false, origin := a.ungated pt }
  let a := a.modTaps e fun t => t.finish tag
  if unitCore u then { a with cnt := a.cnt.count { cmds := 1 } } else a

/-- The engine's settings ask for a record kind: ENABLE, and bit `b` of TRACE_ACTIVE (Table 9-6). -/
def Engine.wants (g : Engine) (b : Nat) : Bool := g.trace.getLsbD 0 && g.trace.getLsbD b

/-- Begin (R231). -/
def Hub.sourceBegin (h : Hub) (u : UnitId) (e : Nat) (tag : W32) (cls : W16) : Hub :=
  if ((h.agent u).engine e).running.isSome then h else
  let h := h.modAgent u fun a => a.beginCmd e h.pt tag
  let a := h.agent u
  let g := a.engine e
  match g.running with
  | some r => if g.wants 1 && r.traced && (emits u e).1 then h.emitRec u e 1 tag (a.recHead r.sampled + cls.toNat) else h
  | none => h

/-- The running command ends, with its End record: DURATION in ns, saturating (Table 9-3). Under sampling only a command
counted since Tc is traced. -/
def Hub.finishCmd (h : Hub) (u : UnitId) (e : Nat) (r : RunningCmd) (err : Bool) : Hub :=
  let a := h.agent u
  let g := a.engine e
  let h := h.setAgent u (a.endCmd u e h.pt r.tag)
  if g.wants 2 && (decide (g.kM1 = 0) || r.traced) && (emits u e).1 then
    h.emitRec u e 2 r.tag (a.recHead r.sampled + b2n err * 2 ^ 31 + min (2 ^ 31 - 1) (h.pt - r.beginPt))
  else h

/-- End, which also ends a command step of the engine (R179). -/
def Hub.sourceEnd (h : Hub) (u : UnitId) (e : Nat) (tag : W32) (err : Bool) : Hub :=
  match ((h.agent u).engine e).running with
  | none => h
  | some r => if r.tag ≠ tag then h else (h.finishCmd u e r err).modAgent u fun a => a.endCommandStep u h.pt e 2

/-- TRACE_RECORD: what a source's engine does, and the record it offers. A gated engine does nothing, and an
engine Table 1-2 does not list does not exist. -/
def opTraceRecord (source : SourceId) (ev : EngineEvent) (h : Hub) : Hub :=
  let u := sourceUnit source
  let e := sourceEngine source
  let a := h.agent u
  if !unitHasAgent u || decide (engineCount u ≤ e) || !a.powered || a.engineGated e then h else
  match ev with
  | .begin tag cls => h.sourceBegin u e tag cls
  | .finish tag err => h.sourceEnd u e tag err
  | .modelSwitch new prev =>
    if (a.engine e).wants 3 && (emits u e).2.1 then h.emitRec u e 3 new (a.recHead false + prev.toNat) else h
  | .barrier tag gen ident =>
    if (a.engine e).wants 4 && (emits u e).2.2 then
      h.emitRec u e 4 tag (a.recHead false + gen.toNat * 0x10000 + ident.toNat)
    else h

/-! ### Meanings -/

def execTraceRecord (source : SourceId) (e : EngineEvent) (st : State) : Host.Outcome State Fault Refusal :=
  .next { st with hub := opTraceRecord source e st.hub }
def execGapClose (collector : Nat) (st : State) : Host.Outcome State Fault Refusal :=
  .next { st with hub := opGapClose collector st.hub }
def execLineWrite (collector : Nat) (st : State) : Host.Outcome State Fault Refusal :=
  let r := opLineWrite collector st.mem st.hub
  .next { st with hub := r.1, mem := r.2 }
def execPeriodicFix (collector : Nat) (st : State) : Host.Outcome State Fault Refusal :=
  .next { st with hub := opPeriodicFix collector st.hub }
def execTriggerInstant (collector : Nat) (st : State) : Host.Outcome State Fault Refusal :=
  .next { st with hub := opTriggerInstant collector st.hub }
def execCollectorWake (collector : Nat) (st : State) : Host.Outcome State Fault Refusal :=
  .next { st with hub := opCollectorWake collector st.hub }
def execSourceClosed (source : SourceId) (st : State) : Host.Outcome State Fault Refusal :=
  .next { st with hub := opSourceClosed source st.hub }
def execMarkInstant (collector : Nat) (st : State) : Host.Outcome State Fault Refusal :=
  .next { st with hub := opMarkInstant collector st.hub }

end Sys2Proof.Machine
end

