-- ==== Sys2Proof/Machine/Stepping.lean ====
section
/-! DEFINITION. Stepping, inspection and resume (R166 to R184): the opcodes, and the instants at which an agent
steps, ends a step, resumes or applies a COMMIT. -/

namespace Sys2Proof.Machine

/-! ### Cycle step (R171 to R177) -/

/-- Units the hub holds Unreachable. -/
def Hub.unreachUnits (h : Hub) : List UnitId := h.poweredUnits.filter fun u => h.presence u == 3

/-- The STEP class argument (Table 7-2). -/
def stepArg (command : Bool) (engine duration : Nat) : W32 :=
  BitVec.ofNat 32 (duration % 0x10000 + 0x10000 * b2n command + engine % 16 * 0x100000)

/-- STEP_CYCLES checks its arguments, and collects the states of the agents (R171). -/
def opStepCycles (hdr : Hdr) (ts : W64) (d : W16) (flags : Byte) (h : Hub) : Hub :=
  h.icp 0x0305 hdr fun h =>
    if d = 0 then h.badArg 0x0305 hdr 8
    else if 1 < flags.toNat then h.badArg 0x0305 hdr 10
    else if h.measuring || h.fe.dumpMode then h.badState 0x0305 hdr
    else (h.collect 2 0x0001 .chip 0 h.dcn.timeoutUs .standing).occupy 0x0305 hdr (.stepCheck ts.toNat d.toNat (flags == 1))

/-- Units that are not Absent and have not answered a COLLECT, with those the hub holds Unreachable. -/
def Hub.unanswered (h : Hub) (c : Combine) : List UnitId :=
  h.notAbsent.filter fun u => h.presence u == 3 || !c.answered.contains u

/-- The states are in: an agent that is not Stopped refuses the step, and so does one that does not answer, unless the
command allows it; else the STEP goes out (R171, R172). -/
def Hub.stepJudged (h : Hub) (c : Combine) (r : Reduced) : Hub :=
  match h.slot with
  | some e =>
    match e.prog with
    | .stepCheck ts d allow =>
      let v := r.value.toNat
      if bits v 31 0 ≠ 0 ∨ bits v 63 48 ≠ 0 then h.conclude .badState []
      else if !(h.unanswered c).isEmpty && !allow then h.conclude .unreachable (unitsBody (h.unanswered c))
      else
        match leadInstant (h.issueAt 2) 200 30000 ts with
        | none => h.conclude .badArg (badArgBody 0 0)
        | some t =>
          let h := h.issue 2 .chip t (stepArg false 0 d)
          let h := { h with stops.newest := h.stops.newest.map fun (n : StopInfo) => { n with stepEnd := some (t + d) } }
          h.setProg (.cycles t d)
    | _ => h
  | none => h

/-- At D + 1.9 us after Ts the hub issues the confirming COLLECTs, as for a stop (R177). -/
def Hub.confirmCycles (h : Hub) : Hub :=
  match h.slot with
  | some e =>
    match e.prog with
    | .cycles t d =>
      if e.collected || decide (h.pt < t + d + 1900) then h else
      let h := { h with slot := some { e with collected := true } }
      (h.collect 0 0x0006 .chip (t + d + 2100) 1 .gated).collect 2 0x0002 .chip (t + d + 2100) 1 .shadows
    | _ => h
  | none => h

/-- The reply of STEP_CYCLES (Table 16-5). -/
def Hub.cyclesBody (h : Hub) (e : Exec) (t d : Nat) : List Byte :=
  let count := (e.valid.map fun (r : Reduced) => r.count).getD 0
  [] |> put 8 t |> put 2 d |> put 2 (count - e.lateCount) |> put 2 e.lateCount |> put 2 (h.unreachIn .chip []) |>
    put 2 (resultValue e.valid) |> put 4 e.openLinks |> put 4 e.violating

/-- At D + 4 us after Ts the step is complete (Table 7-3). -/
def Hub.completeCycles (h : Hub) : Hub :=
  match h.slot with
  | some e =>
    match e.prog with
    | .cycles t d => if h.pt < t + d + 4000 then h else h.conclude .ok (h.cyclesBody e t d)
    | _ => h
  | none => h

/-! ### Command step (R178 to R180) -/

/-- STEP_COMMAND on an agent that answers. -/
def Hub.startCommandStep (h : Hub) (hdr : Hdr) (ts : W64) (u : UnitId) (engine limit : Nat) : Hub :=
  if (h.agent u).state ≠ .stopped then h.badState 0x0306 hdr else
  match leadInstant (h.issueAt 2) 200 30000 ts.toNat with
  | none => h.badArg 0x0306 hdr 0
  | some t =>
    let h := (h.writeMasks 2 [u]).issue 2 .mask t (stepArg true engine limit)
    h.occupy 0x0306 hdr (.cmdStep u limit)

def opStepCommand (hdr : Hdr) (ts : W64) (unit : UnitId) (engine : Byte) (limit : W16) (h : Hub) : Hub :=
  h.icp 0x0306 hdr fun h =>
    if !unitHasAgent unit || !unitCore unit then h.badArg 0x0306 hdr 8
    else if engineCount unit ≤ engine.toNat then h.badArg 0x0306 hdr 10
    else if limit = 0 then h.badArg 0x0306 hdr 12
    else if h.measuring || h.fe.dumpMode then h.badState 0x0306 hdr
    else h.withAgent 0x0306 hdr unit (.stepCommand hdr ts unit engine limit) fun h =>
      h.startCommandStep hdr ts unit engine.toNat limit.toNat

/-- STEP_RESULT, STEP_ELAPSED and STEP_TAG as they stand. -/
def Hub.stepBody (h : Hub) (u : UnitId) : List Byte :=
  let r := (h.agent u).step
  le 4 r.result ++ le 4 (sat32 r.elapsed) ++ le 4 r.tag.toNat

/-- STEP_COMMAND ends once its agent has recorded the outcome of its step. -/
def Hub.completeCommandStep (h : Hub) : Hub :=
  match h.slot with
  | some e =>
    match e.prog with
    | .cmdStep u _ =>
      let r := (h.agent u).step
      if r.outcome ≠ 0 ∧ r.seq = mapGet 0 h.dcn.seqs 2 then h.conclude .ok (h.stepBody u) else h
    | _ => h
  | none => h

/-! ### RESUME (R181 to R183) -/

/-- RESUME in a scope is refused (R181). -/
def Hub.resumeRefused (h : Hub) (sc : Scope) (us : List UnitId) : Bool :=
  h.fe.dumpMode || h.measuring || ((h.stops.newest.map fun (n : StopInfo) => n.discarded).getD false) ||
    h.poweredUnits.any fun u => h.inScope sc us u && h.presence u == 0 &&
      ((h.agent u).state == .stopping || (h.agent u).state == .stepping)

/-- The stops a RESUME in a scope ends: all, or the most recent one. -/
def Stops.resumed (s : Stops) (sc : Scope) (us : List UnitId) : List (Nat × Scope × List UnitId) :=
  if sc = .chip then [] else s.standing.filter fun x => x.2 != (sc, us)

/-- Issue RESUME in a scope. -/
def Hub.startResume (h : Hub) (hdr : Hdr) (tr : W64) (sc : Scope) (us : List UnitId) : Hub :=
  if h.resumeRefused sc us then h.badState 0x0307 hdr else
  match leadInstant (h.issueAt 3) 200 30000 tr.toNat with
  | none => h.badArg 0x0307 hdr 0
  | some t =>
    let h := (h.maskFor 3 sc us).issue 3 sc t 0
    { h with stops.standing := h.stops.resumed sc us }.occupy 0x0307 hdr (.resume t)

def opResume (hdr : Hdr) (tr : W64) (scope : Byte) (h : Hub) : Hub :=
  h.icp 0x0307 hdr fun h =>
    match scope.toNat with
    | 0 => h.startResume hdr tr .chip []
    | 1 =>
      match h.stops.newest with
      | some n => h.startResume hdr tr n.scope n.units
      | none => h.badState 0x0307 hdr
    | _ => h.badArg 0x0307 hdr 8

/-- The scope of the broadcast of a class issued last, for the COLLECT that confirms it. -/
def Hub.lastScope (h : Hub) (cls : Nat) : Scope :=
  (((h.dcn.issued.filter fun b => b.cls == cls).getLast?).map fun b => b.scope).getD .chip

/-- At Tr the hub issues the confirming COLLECT of RESUME (R181). -/
def Hub.confirmResume (h : Hub) : Hub :=
  match h.slot with
  | some e =>
    match e.prog with
    | .resume t =>
      if e.collected || decide (h.pt < t) then h else
      { h with slot := some { e with collected := true } }.collect 2 0x0001 (h.lastScope 3) 0 h.dcn.timeoutUs .resumed
    | _ => h
  | none => h

/-! ### Instants at the agents -/

/-- RESUME at an agent: a power-down deferred for the capture goes on (Table 5-17). -/
def Hub.agentResume (h : Hub) (u : UnitId) : Hub := (h.modAgent u fun a => a.resumeAct u h.pt).releasePower u

def opStepInstant (unit : UnitId) (h : Hub) : Hub :=
  match h.dueAt unit 2 with
  | none => h
  | some x => h.modAgent unit fun a => a.stepAct unit h.pt x

def opResumeInstant (unit : UnitId) (h : Hub) : Hub :=
  match h.dueAt unit 3 with
  | none => h
  | some _ => h.agentResume unit

def opCommitInstant (unit : UnitId) (h : Hub) : Hub :=
  match h.dueAt unit 4 with
  | none => h
  | some x => h.agentCommit unit x.arg x.instant

/-- CYCLE_STEP_END: at Ts + D the unit gates again (R174). -/
def opCycleStepEnd (unit : UnitId) (h : Hub) : Hub :=
  let a := h.agent unit
  match a.stepRun with
  | none => h
  | some r =>
    if r.command || decide (h.pt < r.endPt) then h
    else (h.setAgent unit (a.endStep unit h.pt r 1 false)).sendMarkers unit
      { instant := r.endPt, arg := 0, claim := r.claim, seq := r.seq } false true

/-- OUTCOME of a command step (Table 7-4). -/
def stepEndCode (r : StepEnd) : Nat := match r with | .commandEnded => 2 | .limit => 3 | .queueEmpty => 4 | .dropped => 7

/-- A command discarded by DROP_INFLIGHT has no End record: it no longer runs (R179). -/
def Agent.dropRunning (a : Agent) (e : Nat) : Agent := a.setEngine e { a.engine e with running := none }

/-- What ends a command step has happened: its command runs, waits for nothing at the fence and ends, its limit is reached, its engine has nothing to
run, or a DROP_INFLIGHT that is outstanding names the unit (R179). -/
def Hub.stepEnds (h : Hub) (u : UnitId) (r : StepRun) (reason : StepEnd) : Bool :=
  let runs := ((h.agent u).engine r.engine.toNat).running.isSome
  match reason with
  | .commandEnded => runs && !(h.agent u).engineGated r.engine.toNat
  | .limit => decide (r.endPt ≤ h.pt)
  | .queueEmpty => !runs
  | .dropped => runs && h.fe.requests.any fun q => q.req == .dropInflight && (q.units.isEmpty || q.units.contains u)

/-- The stepped engine's command ends with its End record, or is dropped without one. -/
def Hub.stepLast (h : Hub) (u : UnitId) (e : Nat) (reason : StepEnd) : Hub :=
  match reason, ((h.agent u).engine e).running with
  | .commandEnded, some c => h.finishCmd u e c false
  | .dropped, _ => h.modAgent u fun a => a.dropRunning e
  | _, _ => h

/-- COMMAND_STEP_END (R179). -/
def opCommandStepEnd (unit : UnitId) (reason : StepEnd) (fenceStall : Bool) (h : Hub) : Hub :=
  match (h.agent unit).stepRun with
  | none => h
  | some r =>
    if !r.command || !h.stepEnds unit r reason then h else
    let h := h.stepLast unit r.engine.toNat reason
    h.modAgent unit fun a => a.endStep unit h.pt r (stepEndCode reason) fenceStall

/-! ### Inspection (R166 to R170) -/

/-- One access of an inspection: its status, what it read, and the hub after it. -/
structure Inspect where
  status : Access
  data : List Byte
  hub : Hub

/-- Cut a range into pieces of at most 256 octets, the most a BULK_RD or BULK_WR carries, by fuel. -/
def piecesFuel : Nat → Nat → Nat → List (Nat × Nat)
  | 0, _, _ => []
  | f + 1, off, n =>
    if n = 0 then [] else
    let k := min n (256 - off % 256)
    (off, k) :: piecesFuel f (off + k) (n - k)

def pieces (off n : Nat) : List (Nat × Nat) := piecesFuel (n / 256 + 2) off n

/-- Run accesses one after another, up to the first that is not performed (R426). -/
def inspectAll (f : Hub → Nat → Nat → Inspect) : List (Nat × Nat) → Inspect → Inspect
  | [], r => r
  | (o, n) :: ps, r =>
    if r.status = .fenced ∨ r.status = .powering then r else
    let x := f r.hub o n
    inspectAll f ps { x with data := r.data ++ x.data }

/-- The agent's bulk address of an offset of the extended bulk space, and its SRAM page (R167). -/
def bulkAddr (off : Nat) : Nat := if off < 0x100000 then off else off - 0x80000
def bulkPage (off : Nat) : Bool := decide (0x100000 ≤ off)

/-- Access SRAM through its page and restore SRAM_PAGE.PAGE afterwards (R167). -/
def Hub.onPage {α : Type} (h : Hub) (u : UnitId) (off : Nat) (f : Hub → α × Hub) : α × Hub :=
  if off < 0x80000 then f h else
  let keep := (h.agent u).sramPage
  let r := f (h.modAgent u fun a => { a with sramPage := bulkPage off })
  (r.1, r.2.modAgent u fun a => { a with sramPage := keep })

def Hub.inspectBulk (u : UnitId) (h : Hub) (off n : Nat) : Inspect :=
  let r := h.onPage u off fun h => let x := h.bulkRead u (bulkAddr off) n; ((x.1, x.2.1), x.2.2)
  { status := r.1.1, data := r.1.2, hub := r.2 }

/-- One word of the window. -/
def Hub.inspectWord (u : UnitId) (h : Hub) (off _n : Nat) : Inspect :=
  let r := (h.agent u).readReg u h.pt off
  { status := r.1, data := le 4 r.2.1.toNat, hub := h.setAgent u r.2.2 }

/-- The words of a range of the window. -/
def wordsOf (off n : Nat) : List (Nat × Nat) := (List.range (n / 4)).map fun i => (off + 4 * i, 4)

/-- The first field of an inspection that is at fault (R167, R425). -/
def inspectFault (unit : UnitId) (space : Byte) (off n : Nat) (lenOffset : Nat) : Option Nat :=
  let step := if space = 0 then 4 else 8
  let top := if space = 0 then 0x1000 else 0x180000
  if !unitHasAgent unit then some 0
  else if 1 < space.toNat then some 2
  else if off % step ≠ 0 ∨ top < off + n then some 4
  else if n % step ≠ 0 then some lenOffset
  else none

/-- A range that only an Operator, or a session in Blank or Test, may read (R166, R168). -/
def inspectRestricted (space : Byte) (off n : Nat) : Bool :=
  if space = 0 then decide (0x800 < off + n) else !(decide (0x10000 ≤ off) && decide (off + n ≤ 0x10400))

/-- A range with the absolute light totals, LIGHT, LIGHT_SNAP and LIGHT_BASE, which an Observer reads only as relative
values (R263). -/
def absoluteTotals (space : Byte) (off n : Nat) : Bool := space == 0 && decide (off < 0x470) && decide (0x410 < off + n)

/-- A range with queue snapshots, which an Observer does not read from before the unit's latest change of partition
(R263). -/
def Agent.staleQueues (a : Agent) (space : Byte) (off n : Nat) : Bool :=
  space == 0 && decide (off < 0x700) && decide (0x500 < off + n) && !a.cnt.snapFresh

/-- The session may read the range of the unit (R166, R168, R263). -/
def Hub.mayInspect (h : Hub) (s : Session) (unit : UnitId) (space : Byte) (off n : Nat) : Bool :=
  match s.role with
  | .observer => h.memberOf unit s.partition && !inspectRestricted space off n && !absoluteTotals space off n &&
      !(h.agent unit).staleQueues space off n
  | .operator => true
  | .vendor => h.inBlankOrTest || !inspectRestricted space off n

/-- A read of a range of a unit that the session may make now (R26, R166, R168); DENIED otherwise. -/
def Hub.checkedRead (h : Hub) (code : Nat) (hdr : Hdr) (unit : UnitId) (space : Byte) (off n : Nat) (run : Hub → Hub) : Hub :=
  match h.session hdr.session with
  | none => h.denied code hdr
  | some s => if h.mayInspect s unit space off n then run h else h.denied code hdr

/-- INSPECT_READ on an agent that answers. -/
def Hub.runInspectRead (h : Hub) (hdr : Hdr) (unit : UnitId) (space : Byte) (off n : Nat) : Hub :=
  let r := if space = 0 then inspectAll (Hub.inspectWord unit) (wordsOf off n) ⟨.done, [], h⟩
           else inspectAll (Hub.inspectBulk unit) (pieces off n) ⟨.done, [], h⟩
  if r.status = .fenced then r.hub.badState 0x0308 hdr else r.hub.ok 0x0308 hdr r.data

def opInspectRead (hdr : Hdr) (unit : UnitId) (space : Byte) (offset length : W32) (h : Hub) : Hub :=
  h.icp 0x0308 hdr fun h =>
    let off := offset.toNat
    let n := length.toNat
    match inspectFault unit space off n 8 with
    | some o => h.badArg 0x0308 hdr o
    | none =>
      if 0x100000 < n then h.badArg 0x0308 hdr 8 else
      h.checkedRead 0x0308 hdr unit space off n fun h =>
        h.withAgent 0x0308 hdr unit (.inspectRead hdr unit space offset length) fun h =>
          h.runInspectRead hdr unit space off n

/-- An inspect write that the agent performed: WRITTEN for the current stop (R170). -/
def Hub.noteWritten (h : Hub) (u : UnitId) : Hub :=
  { h with stops.newest := h.stops.newest.map fun (n : StopInfo) => { n with written := true } }.modAgent u fun a =>
    { a with written := true }

def Hub.inspectPoke (data : List Byte) (base : Nat) (u : UnitId) (space : Byte) (h : Hub) (off n : Nat) : Inspect :=
  let b := (data.drop (off - base)).take n
  let r := if space = 0 then h.writeReg u off (BitVec.ofNat 32 (leNat b))
           else h.onPage u off fun h => h.bulkWrite u (bulkAddr off) b
  { status := r.1, data := [], hub := if r.1 = .done then r.2.noteWritten u else r.2 }

/-- INSPECT_WRITE on an agent that answers: FENCED is reported as BAD_STATE (R169). -/
def Hub.runInspectWrite (h : Hub) (hdr : Hdr) (unit : UnitId) (space : Byte) (off : Nat) (data : List Byte) : Hub :=
  let n := data.length
  let ps := if space = 0 then wordsOf off n else pieces off n
  let r := inspectAll (Hub.inspectPoke data off unit space) ps ⟨.done, [], h⟩
  if r.status = .fenced then r.hub.badState 0x0309 hdr else r.hub.ok 0x0309 hdr []

def opInspectWrite (hdr : Hdr) (unit : UnitId) (space : Byte) (offset : W32) (data : List Byte) (h : Hub) : Hub :=
  h.icp 0x0309 hdr fun h =>
    let off := offset.toNat
    match inspectFault unit space off data.length 8 with
    | some o => h.badArg 0x0309 hdr o
    | none =>
      if 4088 < data.length then h.badArg 0x0309 hdr 8
      else if (space = 0 ∧ off < 0x800) ∨ (space ≠ 0 ∧ off < 0x80000) then h.badArg 0x0309 hdr 4
      else h.withAgent 0x0309 hdr unit (.inspectWrite hdr unit space offset data) fun h =>
        h.runInspectWrite hdr unit space off data

/-! ### Meanings -/

def execStepCycles (h : Hdr) (ts : W64) (d : W16) (flags : Byte) (st : State) : Host.Outcome State Fault Refusal :=
  .next { st with hub := opStepCycles h ts d flags st.hub }
def execStepCommand (h : Hdr) (ts : W64) (unit : UnitId) (engine : Byte) (limit : W16) (st : State) :
    Host.Outcome State Fault Refusal :=
  .next { st with hub := opStepCommand h ts unit engine limit st.hub }
def execResume (h : Hdr) (tr : W64) (scope : Byte) (st : State) : Host.Outcome State Fault Refusal :=
  .next { st with hub := opResume h tr scope st.hub }
def execStepInstant (unit : UnitId) (st : State) : Host.Outcome State Fault Refusal :=
  .next { st with hub := opStepInstant unit st.hub }
def execCycleStepEnd (unit : UnitId) (st : State) : Host.Outcome State Fault Refusal :=
  .next { st with hub := opCycleStepEnd unit st.hub }
def execCommandStepEnd (unit : UnitId) (reason : StepEnd) (fenceStall : Bool) (st : State) :
    Host.Outcome State Fault Refusal :=
  .next { st with hub := opCommandStepEnd unit reason fenceStall st.hub }
def execResumeInstant (unit : UnitId) (st : State) : Host.Outcome State Fault Refusal :=
  .next { st with hub := opResumeInstant unit st.hub }
def execCommitInstant (unit : UnitId) (st : State) : Host.Outcome State Fault Refusal :=
  .next { st with hub := opCommitInstant unit st.hub }
def execInspectRead (h : Hdr) (unit : UnitId) (space : Byte) (offset length : W32) (st : State) :
    Host.Outcome State Fault Refusal :=
  .next { st with hub := opInspectRead h unit space offset length st.hub }
def execInspectWrite (h : Hdr) (unit : UnitId) (space : Byte) (offset : W32) (data : List Byte) (st : State) :
    Host.Outcome State Fault Refusal :=
  .next { st with hub := opInspectWrite h unit space offset data st.hub }

end Sys2Proof.Machine
end

