-- ==== Sys2Proof/Machine/Faults.lean ====
section
/-! DEFINITION. The group faults (0x09xx), the fault collector's own events (R307 to R330) and supply
excursions (R327, R412). -/

namespace Sys2Proof.Machine

/-! ### Configuration (R310) -/

/-- The first faulty field of an entry, by its offset in the entry. -/
def entryFault (e : FaultEntry) : Option Nat :=
  match sourceRow e.source.toNat with
  | none => some 0
  | some r =>
    if r.fixed then
      (if e.reaction.toNat ≠ 4 then some 4 else if 1 < e.taint.toNat then some 5 else none)
    else if 15 < e.nM1.toNat then some 2
    else if e.wexp.toNat < 10 ∨ 42 < e.wexp.toNat then some 3
    else if !r.allowed.contains e.reaction.toNat then some 4
    else if 1 < e.taint.toNat then some 5
    else none

/-- The first faulty field of a list of entries, by its payload offset. -/
def entriesFault : Nat → List FaultEntry → Option Nat
  | _, [] => none
  | o, e :: es =>
    match entryFault e with
    | some x => some (o + x)
    | none => entriesFault (o + 6) es

/-- Set a source's configuration and empty its event times. -/
def Fc.configure (f : Fc) (e : FaultEntry) : Fc :=
  let s := e.source.toNat
  f.setSource s { f.source s with cfg := some (cfgWord e.nM1.toNat e.wexp.toNat e.reaction.toNat (e.taint == 1)), times := [] }

def opFaultConfig (hdr : Hdr) (entries : List FaultEntry) (h : Hub) : Hub :=
  h.icp 0x0900 hdr fun h =>
    if 511 < entries.length then h.badArg 0x0900 hdr 0 else
    match entriesFault 2 entries with
    | some o => h.badArg 0x0900 hdr o
    | none => { h with fc := entries.foldl Fc.configure h.fc }.ok 0x0900 hdr []

/-- FC_CFG_WRITE: a direct write; of a fixed source only TAINT changes, and a reserved number takes nothing
(Table 13-9). -/
def Fc.writeCfg (f : Fc) (s : Nat) (v : W32) : Fc :=
  match sourceRow s with
  | none => f
  | some _ => f.setSource s { f.source s with cfg := some (v &&& 0x3FFF) }

def opFcCfgWrite (source : Nat) (value : W32) (h : Hub) : Hub := { h with fc := h.fc.writeCfg source value }

/-! ### Records (R313 to R317) -/

def opFaultRead (hdr : Hdr) (fromSeq : W32) (max : Byte) (h : Hub) : Hub :=
  h.icp 0x0901 hdr fun h =>
    let l := h.fc.all.filter fun r => decide (fromSeq.toNat ≤ r.seq.toNat)
    let l := if max = 0 then l else l.take max.toNat
    h.ok 0x0901 hdr (l.flatMap FaultRec.bytes)

/-- Mark a record read: a notify record leaves Handling (R315, Table 13-4). -/
def Fc.ack (f : Fc) (pt : Nat) (seq : W32) : Fc :=
  match f.all.find? fun r => r.seq == seq && !r.read with
  | none => f
  | some r =>
    let f := f.modRec seq fun r => { r with read := true }
    if r.performed = 1 then f.endHandling pt seq else f

/-- The history re-arms when no unread record is left (R317). -/
def Fc.rearm (f : Fc) : Fc := if f.unread.isEmpty then { f with historyValid := false } else f

def opFaultAck (hdr : Hdr) (seqs : List W32) (h : Hub) : Hub :=
  h.icp 0x0902 hdr fun h =>
    let f := (seqs.foldl (fun (f : Fc) q => f.ack h.pt q) h.fc).rearm
    { h with fc := f }.noteIbi.ok 0x0902 hdr (le 2 (sat16 f.unread.length))

def opFaultHistoryRead (hdr : Hdr) (h : Hub) : Hub :=
  h.icp 0x0903 hdr fun h => h.ok 0x0903 hdr h.fc.historyBytes

/-- FAULT_INJECT: an ordinary event; a reaction that discards the work in flight ends this command too
(R317, R319). -/
def opFaultInject (hdr : Hdr) (source : W16) (unit : UnitId) (data : W32) (h : Hub) : Hub :=
  h.icp 0x0904 hdr fun h =>
    if (sourceRow source.toNat).isNone then h.badArg 0x0904 hdr 0
    else if unit ≠ 0 ∧ unitValid unit = false then h.badArg 0x0904 hdr 2
    else
      let h := (h.occupy 0x0904 hdr .inject).takeEvent source.toNat unit data none true
      match h.slot with
      | some e => if e.prog = .inject then h.conclude .ok [] else h
      | none => h

/-- FAULT_EVENT: an event of any source reaches the collector; a fixed source's condition is present until
FAULT_CLEARED says that it has gone (R308, R323). An uncorrectable error in Keystone state freezes the claim (row 1 of
Table 15-5). -/
def opFaultEvent (source : Nat) (unit : UnitId) (data : W32) (originPt : Option Nat) (h : Hub) : Hub :=
  let isFixed := ((sourceRow source).map fun r => r.fixed).getD false
  let h := if isFixed then { h with fc.fixedPresent := insertNat source h.fc.fixedPresent } else h
  let h := if source = 0xFBD ∧ data = 2 then { h with red.frozen := true } else h
  h.takeEvent source unit data originPt false

/-- NOTIFY_TIMEOUT: 1 ms after a notify record opened (Table 13-4). -/
def opNotifyTimeout (recordSeq : W32) (h : Hub) : Hub :=
  match h.fc.all.find? fun r => r.seq == recordSeq with
  | none => h
  | some r =>
    if r.performed = 1 ∧ r.handling = true ∧ r.severePt + 1000000 ≤ h.pt then
      { h with fc := h.fc.endHandling h.pt recordSeq }
    else h

/-- REACTION_WINDOW_CLOSE (R321). -/
def opReactionWindowClose (h : Hub) : Hub :=
  { h with fc.windows := h.fc.windows.filter fun w => decide (h.pt < w.openPt + w.lengthNs) }

/-- Sources that are monitor lines (R58, Table 13-1). -/
def lineSource (s : Nat) : Bool := decide (0xFA4 ≤ s) && decide (s ≤ 0xFBC)

/-- Records of a source read as cleared. -/
def Fc.clearRecs (f : Fc) (p : FaultRec → Bool) : Fc :=
  { f with records := f.records.map fun (r : FaultRec) => if p r then { r with cleared := true } else r,
           safeRecord := f.safeRecord.map fun (r : FaultRec) => if p r then { r with cleared := true } else r }

/-- FAULT_CLEARED (R316): of a monitor line, its line has deasserted; of 0xFBD and 0xFBE, the condition has
gone, which a hub reset makes visible; of any other source, W has passed without an event. -/
def opFaultCleared (source : Nat) (h : Hub) : Hub :=
  if source = 0xFA5 then
    { h with fc := { h.fc.clearRecs fun r => r.source == source with
        fixedPresent := h.fc.fixedPresent.filter fun s => s != source,
        linesHigh := h.fc.linesHigh.filter fun s => s != source } }
  else if source = 0xFBD ∨ source = 0xFBE then
    { h with fc.fixedPresent := h.fc.fixedPresent.filter fun s => s != source }
  else if lineSource source then
    (if h.fc.linesHigh.contains source then h else { h with fc := h.fc.clearRecs fun r => r.source == source })
  else
    let last := (h.fc.source source).lastPt
    { h with fc := h.fc.clearRecs fun r => r.source == source && decide (max r.severePt last + 2 ^ r.wexp ≤ h.pt) }

/-! ### Supply monitors (R327, R412) -/

/-- The excursion word. -/
def excursionWord (lowest : BitVec 10) (ongoing : Bool) (ns : Nat) : Nat :=
  lowest.toNat + 0x400 * b2n ongoing + 0x800 * min (2 ^ 21 - 1) (ns / 40)

/-- What the next I3C image shows of VDD_AO (Table 2-4). -/
def I3c.excursion (c : I3c) (lowest : BitVec 10) (counted : Bool) : I3c :=
  { c with excursions := if counted then sat16 (c.excursions + 1) else c.excursions, lowest := min c.lowest lowest.toNat }

/-- SUPPLY_EXCURSION: a warning line deasserts, or has been asserted for 1 ms, which is then the duration (`ongoing`).
The end of an excursion already reported as ONGOING raises no further event. -/
def opSupplyExcursion (domain : Nat) (lowestCode : BitVec 10) (durationNs : Nat) (ongoing : Bool) (h : Hub) : Hub :=
  if domain = 0 ∨ 20 < domain ∨ h.domainOn domain = false ∨ 705 ≤ lowestCode.toNat then h else
  let ns := if ongoing then 1000000 else durationNs
  let s := if domain = 1 then 0xFA4 else 0xFA6 + domain - 2
  let was := (mapGet {} h.power.excursions domain).ongoing
  let h := if domain = 1 then { h with i3c := h.i3c.excursion lowestCode (!was) } else h
  let h := { h with power.excursions := mapSet {} h.power.excursions domain { ongoing := ongoing },
                    fc.linesHigh := if ongoing then insertNat s h.fc.linesHigh else h.fc.linesHigh.filter fun x => x != s }
  if was then h else h.raiseLine s (excursionWord lowestCode ongoing ns) (h.pt - ns)

/-- VDD_AO_RESET_LEVEL: below the reset level for 10 ns (R327). -/
def opVddAoResetLevel (lowestCode : BitVec 10) (h : Hub) : Hub :=
  if 675 ≤ lowestCode.toNat then h else
  { h with i3c := h.i3c.excursion lowestCode false, fc.linesHigh := insertNat 0xFA5 h.fc.linesHigh,
           fc.fixedPresent := insertNat 0xFA5 h.fc.fixedPresent }.raiseLine 0xFA5 lowestCode.toNat h.pt

/-! ### Port confinement (R56) -/

/-- An access of `n` bytes lies wholly inside a region that is set. -/
def MemRegion.holds (r : MemRegion) (a n : Nat) : Bool := r.isSet && decide (r.base ≤ a) && decide (a + n ≤ r.base + r.size)

/-- An access of `n` bytes, issued at a PT, lies wholly inside the trace region or the dump region configured then
(R56). -/
def Hub.inRegions (h : Hub) (a n issued : Nat) : Bool :=
  (regionAt h.trace.past h.trace.region issued).holds a n || (regionAt h.dump.past h.dump.region issued).holds a n

/-- PORT_CONFINEMENT: an access that does not lie wholly inside a region configured when it was issued is blocked and
counted, and raises its source. -/
def opPortConfinement (half : Half) (address : W64) (length issued : Nat) (h : Hub) : Hub :=
  if h.inRegions address.toNat length issued then h else
  let c := h.ctl
  let c := match half with
    | .west => { c with confineWest := sat32 (c.confineWest + 1) }
    | .east => { c with confineEast := sat32 (c.confineEast + 1) }
  { h with ctl := c }.raise (0xFBF + halfNat half) 0 (address.toNat / 64)

/-! ### Taint notices (R328 to R330) -/

/-- The TAINT payload (Table 13-8). -/
def Hub.taintBytes (h : Hub) (t : Taint) (seq : W32) : List Byte :=
  le 2 h.ident.chipId.toNat ++ [t.origin] ++ le 1 (b2n t.epochStale + 2 * b2n t.merged + 4 * b2n t.held) ++
    le 4 t.epoch.toNat ++ le 8 t.earliest ++ le 8 h.pt ++ le 2 t.source ++ le 2 t.unit.toNat ++ le 4 seq.toNat

/-- Send a notice once to every destination; the source's records read TAINT_SENT. -/
def Hub.sendTaint (h : Hub) (t : Taint) : Hub :=
  let seq := h.fc.noticeSeq + 1
  let mark (r : FaultRec) : FaultRec := if r.source = t.source then { r with taintSent := true } else r
  let h := { h with fc := { h.fc with noticeSeq := seq, lastNotice := mapSet none h.fc.lastNotice t.source (some h.pt),
                                      records := h.fc.records.map mark, safeRecord := h.fc.safeRecord.map mark } }
  let b := h.taintBytes t seq
  h.fc.dests.foldl (fun h d => h.emit (.taint d b)) h

/-- Held notices go at once and in order, without the spacing of a source, where sending has become
possible (R23, R330). -/
def Hub.releaseHeld (h : Hub) : Hub :=
  if !h.taintFree then h else
  h.fc.heldTaints.foldl Hub.sendTaint { h with fc.heldTaints := [] }

/-- 10 us have passed since the previous notice of the source. -/
def Hub.taintDue (h : Hub) (t : Taint) : Bool :=
  match mapGet none h.fc.lastNotice t.source with
  | none => true
  | some p => decide (p + 10000 ≤ h.pt)

/-- TAINT_SEND: every pending notice that is due is sent; with no destination they are held. -/
def opTaintSend (h : Hub) : Hub :=
  let l := h.fc.taints
  if !h.taintFree then { h with fc := l.foldl (fun (f : Fc) t => f.hold t) { h.fc with taints := [] } }
  else
    (l.filter fun t => h.taintDue t).foldl Hub.sendTaint { h with fc.taints := l.filter fun t => !h.taintDue t }

/-- The first element that equals none before it. -/
def dedup (l : List W16) : List W16 := l.foldl (fun m x => if m.contains x then m else m ++ [x]) []

def opTaintDestSet (hdr : Hdr) (chips : List W16) (h : Hub) : Hub :=
  h.icp 0x0905 hdr fun h =>
    if 4 < chips.length then h.badArg 0x0905 hdr 0 else
    match (List.range chips.length).find? fun i => h.ident.assigned && chips.getD i 0 == h.ident.chipId with
    | some i => h.badArg 0x0905 hdr (2 + 2 * i)
    | none => { h with fc.dests := dedup chips }.releaseHeld.ok 0x0905 hdr []

def opTaintEpochSet (hdr : Hdr) (epoch : W32) (h : Hub) : Hub :=
  h.icp 0x0906 hdr fun h =>
    let f := h.fc
    let f := { f with epochPrev := f.epoch, epochPrevPt := f.epochPt, hasPrev := true, epoch := epoch, epochPt := h.pt }
    { h with fc := f }.ok 0x0906 hdr (le 8 h.pt)

/-! ### UNIT_RETIRE (R320) -/

def opUnitRetire (hdr : Hdr) (unit : UnitId) (h : Hub) : Hub :=
  h.icp 0x0907 hdr fun h =>
    if !unitHasAgent unit || !unitCore unit then h.badArg 0x0907 hdr 0 else
    let absent := decide (h.presence unit = 1 ∨ h.presence unit = 2)
    let h := { h with fc := h.fc.openWindow h.pt none unit false }.retire unit none
    if absent then h.ok 0x0907 hdr (h.retireBody false)
    else if h.fc.pendingRetire.contains unit then h.ok 0x0907 hdr (h.retireBody true)
    else h.occupy 0x0907 hdr (.retire unit)

/-! ### Meanings -/

def execFaultConfig (h : Hdr) (entries : List FaultEntry) (st : State) : Host.Outcome State Fault Refusal :=
  .next { st with hub := opFaultConfig h entries st.hub }
def execFcCfgWrite (source : Nat) (value : W32) (st : State) : Host.Outcome State Fault Refusal :=
  .next { st with hub := opFcCfgWrite source value st.hub }
def execFaultRead (h : Hdr) (fromSeq : W32) (max : Byte) (st : State) : Host.Outcome State Fault Refusal :=
  .next { st with hub := opFaultRead h fromSeq max st.hub }
def execFaultAck (h : Hdr) (seqs : List W32) (st : State) : Host.Outcome State Fault Refusal :=
  .next { st with hub := opFaultAck h seqs st.hub }
def execFaultHistoryRead (h : Hdr) (st : State) : Host.Outcome State Fault Refusal :=
  .next { st with hub := opFaultHistoryRead h st.hub }
def execFaultInject (h : Hdr) (source : W16) (unit : UnitId) (data : W32) (st : State) :
    Host.Outcome State Fault Refusal :=
  .next { st with hub := opFaultInject h source unit data st.hub }
def execFaultEvent (source : Nat) (unit : UnitId) (data : W32) (originPt : Option Nat) (st : State) :
    Host.Outcome State Fault Refusal :=
  .next { st with hub := opFaultEvent source unit data originPt st.hub }
def execNotifyTimeout (recordSeq : W32) (st : State) : Host.Outcome State Fault Refusal :=
  .next { st with hub := opNotifyTimeout recordSeq st.hub }
def execReactionWindowClose (st : State) : Host.Outcome State Fault Refusal :=
  .next { st with hub := opReactionWindowClose st.hub }
def execFaultCleared (source : Nat) (st : State) : Host.Outcome State Fault Refusal :=
  .next { st with hub := opFaultCleared source st.hub }
def execSupplyExcursion (domain : Nat) (lowestCode : BitVec 10) (durationNs : Nat) (ongoing : Bool) (st : State) :
    Host.Outcome State Fault Refusal :=
  .next { st with hub := opSupplyExcursion domain lowestCode durationNs ongoing st.hub }
def execVddAoResetLevel (lowestCode : BitVec 10) (st : State) : Host.Outcome State Fault Refusal :=
  .next { st with hub := opVddAoResetLevel lowestCode st.hub }
def execPortConfinement (half : Half) (access : PortAccess) (st : State) : Host.Outcome State Fault Refusal :=
  .next { st with hub := opPortConfinement half access.address access.length access.issued st.hub }
def execTaintSend (st : State) : Host.Outcome State Fault Refusal :=
  .next { st with hub := opTaintSend st.hub }
def execTaintDestSet (h : Hdr) (chips : List W16) (st : State) : Host.Outcome State Fault Refusal :=
  .next { st with hub := opTaintDestSet h chips st.hub }
def execTaintEpochSet (h : Hdr) (epoch : W32) (st : State) : Host.Outcome State Fault Refusal :=
  .next { st with hub := opTaintEpochSet h epoch st.hub }
def execUnitRetire (h : Hdr) (unit : UnitId) (st : State) : Host.Outcome State Fault Refusal :=
  .next { st with hub := opUnitRetire h unit st.hub }

end Sys2Proof.Machine
end

