-- ==== Sys2Proof/Machine/HubInfo.lean ====
section
/-! DEFINITION. The group status (0x01xx): the state of the hub and its units, the Chip ID, the retired-unit
map and the record of the safe state. -/

namespace Sys2Proof.Machine

/-- The latest I3C image, then FC_STATE, KS_STATE and the opcode executing (Table 16-5). -/
def opHubStatus (hdr : Hdr) (h : Hub) : Hub :=
  h.icp 0x0100 hdr fun h =>
    h.ok 0x0100 hdr (fit 40 h.i3c.image ++ le 4 h.fc.state ++ le 4 h.red.ksState ++ le 2 0x0100)

/-- One unit's entry: PRESENCE as Table 8-4 codes it, and STATE, 0xFF where it is unknown. -/
def Hub.unitEntry (h : Hub) (u : UnitId) : List Byte :=
  let p := h.presence u
  le 2 u.toNat ++ le 1 p ++ le 1 (if p = 0 then agStateCode (h.agent u).state else 0xFF)

def opUnitStatus (hdr : Hdr) (sb : ScopeBlock) (h : Hub) : Hub :=
  h.icp 0x0101 hdr fun h =>
    match scopeFault sb 0 with
    | some o => h.badArg 0x0101 hdr o
    | none =>
      let sc := scopeOf sb (h.session hdr.session)
      h.ok 0x0101 hdr ((h.scopeUnits sc.1 sc.2).flatMap h.unitEntry)

/-- CHIP_ID_SET (R22): the held taint notices follow, and an own destination is removed (R23, R330). -/
def opChipIdSet (hdr : Hdr) (chip : W16) (h : Hub) : Hub :=
  h.icp 0x0102 hdr fun h =>
    if h.ident.assigned then
      (if h.ident.chipId = chip then h.ok 0x0102 hdr [] else h.badState 0x0102 hdr)
    else
      let h := { h with ident := { h.ident with chipId := chip, assigned := true },
                        fc.dests := h.fc.dests.filter fun d => d != chip }
      h.releaseHeld.ok 0x0102 hdr []

/-- The retired-unit map, 256 octets (R28). -/
def Ident.mapBytes (i : Ident) : List Byte :=
  (List.range 256).map fun k => BitVec.ofNat 8 (((List.range 8).map fun b => b2n (i.retired.contains (8 * k + b)) * 2 ^ b).foldl (· + ·) 0)

def opRetiredMapGet (hdr : Hdr) (h : Hub) : Hub :=
  h.icp 0x0103 hdr fun h => h.ok 0x0103 hdr (le 4 h.ident.retiredGen.toNat ++ h.ident.mapBytes)

def opSafeRecordGet (hdr : Hdr) (h : Hub) : Hub :=
  h.icp 0x0104 hdr fun h => h.ok 0x0104 hdr (h.fc.slotBytes 64 ++ h.fc.historyBytes)

/-! ### Meanings -/

def execHubStatus (h : Hdr) (st : State) : Host.Outcome State Fault Refusal :=
  .next { st with hub := opHubStatus h st.hub }
def execUnitStatus (h : Hdr) (sb : ScopeBlock) (st : State) : Host.Outcome State Fault Refusal :=
  .next { st with hub := opUnitStatus h sb st.hub }
def execChipIdSet (h : Hdr) (chip : W16) (st : State) : Host.Outcome State Fault Refusal :=
  .next { st with hub := opChipIdSet h chip st.hub }
def execRetiredMapGet (h : Hdr) (st : State) : Host.Outcome State Fault Refusal :=
  .next { st with hub := opRetiredMapGet h st.hub }
def execSafeRecordGet (h : Hdr) (st : State) : Host.Outcome State Fault Refusal :=
  .next { st with hub := opSafeRecordGet h st.hub }

end Sys2Proof.Machine
end

