-- ==== Sys2Proof/Machine/Crypto.lean ====
section
/-! DEFINITION. The engines of the security island and of the taps (R403, R274): SHA-256 and SHA-384
(FIPS 180-4), HMAC (FIPS 198-1), HMAC_DRBG (SP 800-90A), ECDSA P-384 (FIPS 186-5) and SipHash-2-4. -/

namespace Sys2Proof.Machine

/-! ### Primes and roots behind the SHA constants -/

/-- No number from 2 to `f + 1` divides `n`. -/
def noDivisor (n : Nat) : Nat → Bool
  | 0 => true
  | f + 1 => (n % (f + 2) != 0) && noDivisor n f

/-- The first 80 primes lie below 410. -/
def primes80 : List Nat :=
  (List.range 410).filter fun n => decide (2 ≤ n) && noDivisor n (min (n - 2) 19)

/-- Integer root by bisection: the greatest `x < 2^k` with `x^e ≤ n`, from bit `k` down. -/
def rootBits (e n : Nat) : Nat → Nat → Nat
  | 0, x => x
  | k + 1, x => let y := x + 2 ^ k
    rootBits e n k (if y ^ e ≤ n then y else x)

/-- The first `w` fraction bits of the `e`-th root of a prime. -/
def rootFrac (e w p : Nat) : Nat := rootBits e (p * 2 ^ (e * w)) (w + 5) 0 % 2 ^ w

/-! ### SHA-2 -/

/-- Constants and shape of a SHA-2 function. -/
structure Sha (w : Nat) where
  block : Nat
  k : List (BitVec w)
  iv : List (BitVec w)
  big0 : BitVec w → BitVec w
  big1 : BitVec w → BitVec w
  small0 : BitVec w → BitVec w
  small1 : BitVec w → BitVec w

def rotr {w : Nat} (n : Nat) (x : BitVec w) : BitVec w := x.rotateRight n

/-- SHA-256 (FIPS 180-4, 4.1.2, 4.2.2, 5.3.3). -/
def sha256Params : Sha 32 where
  block := 64
  k := (primes80.take 64).map fun p => BitVec.ofNat 32 (rootFrac 3 32 p)
  iv := (primes80.take 8).map fun p => BitVec.ofNat 32 (rootFrac 2 32 p)
  big0 x := rotr 2 x ^^^ rotr 13 x ^^^ rotr 22 x
  big1 x := rotr 6 x ^^^ rotr 11 x ^^^ rotr 25 x
  small0 x := rotr 7 x ^^^ rotr 18 x ^^^ (x >>> 3)
  small1 x := rotr 17 x ^^^ rotr 19 x ^^^ (x >>> 10)

/-- SHA-384: SHA-512's function with the roots of the ninth to sixteenth primes (FIPS 180-4, 5.3.4). -/
def sha384Params : Sha 64 where
  block := 128
  k := primes80.map fun p => BitVec.ofNat 64 (rootFrac 3 64 p)
  iv := ((primes80.drop 8).take 8).map fun p => BitVec.ofNat 64 (rootFrac 2 64 p)
  big0 x := rotr 28 x ^^^ rotr 34 x ^^^ rotr 39 x
  big1 x := rotr 14 x ^^^ rotr 18 x ^^^ rotr 41 x
  small0 x := rotr 1 x ^^^ rotr 8 x ^^^ (x >>> 7)
  small1 x := rotr 19 x ^^^ rotr 61 x ^^^ (x >>> 6)

/-- The message schedule: `W` newest first, extended word by word. -/
def shaSchedule {w : Nat} (p : Sha w) : Nat → List (BitVec w) → List (BitVec w)
  | 0, l => l
  | n + 1, l =>
    let x := p.small1 (l.getD 1 0) + l.getD 6 0 + p.small0 (l.getD 14 0) + l.getD 15 0
    shaSchedule p n (x :: l)

/-- One round over the eight working words. -/
def shaRound {w : Nat} (p : Sha w) (s : List (BitVec w)) (kw : BitVec w × BitVec w) : List (BitVec w) :=
  match s with
  | [a, b, c, d, e, f, g, h] =>
    let t1 := h + p.big1 e + ((e &&& f) ^^^ (~~~e &&& g)) + kw.1 + kw.2
    let t2 := p.big0 a + ((a &&& b) ^^^ (a &&& c) ^^^ (b &&& c))
    [t1 + t2, a, b, c, d + t1, e, f, g]
  | _ => s

/-- One block into the hash value. -/
def shaBlock {w : Nat} (p : Sha w) (hv : List (BitVec w)) (blk : List Byte) : List (BitVec w) :=
  let m := (chunks (w / 8) blk).map fun c => BitVec.ofNat w (beNat c)
  let ws := (shaSchedule p (p.k.length - 16) m.reverse).reverse
  (hv.zip ((p.k.zip ws).foldl (shaRound p) hv)).map fun q => q.1 + q.2

/-- Pad a message (FIPS 180-4, 5.1): 0x80, zeros, and its length in bits. -/
def shaPad (block : Nat) (m : List Byte) : List Byte :=
  let l := m.length + 1 + block / 8
  m ++ [0x80] ++ zeros ((block - l % block) % block) ++ be (block / 8) (8 * m.length)

def sha {w : Nat} (p : Sha w) (m : List Byte) : List Byte :=
  ((chunks p.block (shaPad p.block m)).foldl (shaBlock p) p.iv).flatMap fun x => be (w / 8) x.toNat

def sha256 (m : List Byte) : List Byte := sha sha256Params m
def sha384 (m : List Byte) : List Byte := (sha sha384Params m).take 48

/-- HMAC with SHA-384 (FIPS 198-1); keys are at most 128 octets here. -/
def hmac384 (key m : List Byte) : List Byte :=
  let k := fit 128 (if key.length > 128 then sha384 key else key)
  sha384 ((k.map fun b => b ^^^ 0x5C) ++ sha384 ((k.map fun b => b ^^^ 0x36) ++ m))

/-! ### HMAC_DRBG with SHA-384 (SP 800-90A, 10.1.2) -/

/-- The update function over K and V. -/
def drbgUpdate (kv : List Byte × List Byte) (data : List Byte) : List Byte × List Byte :=
  let k := hmac384 kv.1 (kv.2 ++ [0x00] ++ data)
  let v := hmac384 k kv.2
  if data.isEmpty then (k, v)
  else
    let k := hmac384 k (v ++ [0x01] ++ data)
    (k, hmac384 k v)

/-- Instantiation from seed material. -/
def drbgSeed (seed : List Byte) : List Byte × List Byte :=
  drbgUpdate (zeros 48, List.replicate 48 0x01) seed

/-- `n` blocks of 48 octets. -/
def drbgBlocks (k : List Byte) : Nat → List Byte → List Byte × List Byte
  | 0, v => ([], v)
  | n + 1, v =>
    let v := hmac384 k v
    let r := drbgBlocks k n v
    (v ++ r.1, r.2)

/-- `n` octets of output, and K and V after it. -/
def drbgDraw (kv : List Byte × List Byte) (n : Nat) : List Byte × (List Byte × List Byte) :=
  let r := drbgBlocks kv.1 ((n + 47) / 48) kv.2
  (r.1.take n, drbgUpdate (kv.1, r.2) [])

/-! ### P-384 -/

def p384P : Nat := 2 ^ 384 - 2 ^ 128 - 2 ^ 96 + 2 ^ 32 - 1
def p384N : Nat :=
  0xFFFFFFFFFFFFFFFFFFFFFFFFFFFFFFFFFFFFFFFFFFFFFFFFC7634D81F4372DDF581A0DB248B0A77AECEC196ACCC52973
def p384B : Nat :=
  0xB3312FA7E23EE7E4988E056BE3F82D19181D9C6EFE8141120314088F5013875AC656398D8A2ED19D2A85C8EDD3EC2AEF
def p384Gx : Nat :=
  0xAA87CA22BE8B05378EB1C71EF320AD746E1D3B628BA79B9859F741E082542A385502F25DBF55296C3A545E3872760AB7
def p384Gy : Nat :=
  0x3617DE4A96262C6F5D9E98BF9292DC29F8F41DBD289A147CE9DA3113B5F0B8C00A60B1CE1D7E819D7A431D7C90EA0E5F

/-- Modular power, from bit `k − 1` of the exponent down. -/
def powMod (m b e : Nat) : Nat → Nat → Nat
  | 0, acc => acc
  | k + 1, acc =>
    let a := acc * acc % m
    powMod m b e k (if bit e k then a * b % m else a)

/-- Inverse modulo a 384-bit prime (Fermat). -/
def invMod (m a : Nat) : Nat := powMod m a (m - 2) 384 1

/-- A point in Jacobian coordinates; Z = 0 is the point at infinity. -/
structure JPoint where
  x : Nat
  y : Nat
  z : Nat
  deriving DecidableEq, Repr

def subP (a b : Nat) : Nat := (a + p384P - b % p384P) % p384P
def mulP (a b : Nat) : Nat := a * b % p384P

/-- Doubling on a curve with a = −3. -/
def jDouble (p : JPoint) : JPoint :=
  if p.z = 0 ∨ p.y = 0 then ⟨1, 1, 0⟩
  else
    let d := mulP p.z p.z
    let g := mulP p.y p.y
    let b := mulP p.x g
    let a := mulP 3 (mulP (subP p.x d) (p.x + d))
    let x := subP (mulP a a) (8 * b)
    let z := subP (subP (mulP (p.y + p.z) (p.y + p.z)) g) d
    ⟨x, subP (mulP a (subP (4 * b) x)) (8 * mulP g g), z⟩

/-- Addition. -/
def jAdd (p q : JPoint) : JPoint :=
  if p.z = 0 then q
  else if q.z = 0 then p
  else
    let z1 := mulP p.z p.z
    let z2 := mulP q.z q.z
    let u1 := mulP p.x z2
    let u2 := mulP q.x z1
    let s1 := mulP p.y (mulP q.z z2)
    let s2 := mulP q.y (mulP p.z z1)
    if u1 = u2 then (if s1 = s2 then jDouble p else ⟨1, 1, 0⟩)
    else
      let h := subP u2 u1
      let r := subP s2 s1
      let h2 := mulP h h
      let h3 := mulP h h2
      let v := mulP u1 h2
      let x := subP (subP (mulP r r) h3) (2 * v)
      ⟨x, subP (mulP r (subP v x)) (mulP s1 h3), mulP h (mulP p.z q.z)⟩

/-- Scalar multiplication from bit `k − 1` down. -/
def jMul (p : JPoint) (n : Nat) : Nat → JPoint → JPoint
  | 0, acc => acc
  | k + 1, acc =>
    let d := jDouble acc
    jMul p n k (if bit n k then jAdd d p else d)

def pointMul (n : Nat) (p : JPoint) : JPoint := jMul p n 384 ⟨1, 1, 0⟩
def p384G : JPoint := ⟨p384Gx, p384Gy, 1⟩

/-- Affine coordinates; none at infinity. -/
def affine (p : JPoint) : Option (Nat × Nat) :=
  if p.z = 0 then none
  else
    let i := invMod p384P p.z
    let i2 := mulP i i
    some (mulP p.x i2, mulP p.y (mulP i i2))

/-- A 97-octet uncompressed public key as a point on the curve. -/
def parseKey (key : List Byte) : Option JPoint :=
  let x := beNat ((key.drop 1).take 48)
  let y := beNat ((key.drop 49).take 48)
  if key.length = 97 ∧ key.head? = some 0x04 ∧ x < p384P ∧ y < p384P ∧
      mulP y y = (mulP x (mulP x x) + (p384P - mulP 3 x) + p384B) % p384P then some ⟨x, y, 1⟩ else none

/-- The 97-octet public key of a scalar; empty where the scalar is no valid key. -/
def publicKey (d : Nat) : List Byte :=
  if d = 0 ∨ p384N ≤ d then [] else
  match affine (pointMul d p384G) with
  | some (x, y) => [0x04] ++ be 48 x ++ be 48 y
  | none => []

/-- ECDSA verification under SHA-384; the signature is r then s, 48 octets each. -/
def ecdsaVerify (key msg sig : List Byte) : Bool :=
  match parseKey key with
  | none => false
  | some q =>
    let r := beNat (sig.take 48)
    let s := beNat ((sig.drop 48).take 48)
    if sig.length = 96 ∧ 0 < r ∧ r < p384N ∧ 0 < s ∧ s < p384N then
      let w := invMod p384N s
      let u1 := beNat (sha384 msg) * w % p384N
      let u2 := r * w % p384N
      match affine (jAdd (pointMul u1 p384G) (pointMul u2 q)) with
      | some (x, _) => x % p384N == r
      | none => false
    else false

/-- ECDSA signature of a message with a nonce: 96 octets. -/
def ecdsaSign (d nonce : Nat) (msg : List Byte) : List Byte :=
  let k := nonce % (p384N - 1) + 1
  match affine (pointMul k p384G) with
  | some (x, _) =>
    let r := x % p384N
    let s := invMod p384N k * (beNat (sha384 msg) + r * d) % p384N
    be 48 r ++ be 48 s
  | none => zeros 96

/-! ### SipHash-2-4 -/

/-- One SipRound. -/
def sipRound (v : W64 × W64 × W64 × W64) : W64 × W64 × W64 × W64 :=
  let (a, b, c, d) := v
  let a := a + b
  let b := b.rotateLeft 13 ^^^ a
  let a := a.rotateLeft 32
  let c := c + d
  let d := d.rotateLeft 16 ^^^ c
  let a := a + d
  let d := d.rotateLeft 21 ^^^ a
  let c := c + b
  let b := b.rotateLeft 17 ^^^ c
  (a, b, c.rotateLeft 32, d)

/-- One message word. -/
def sipWord (v : W64 × W64 × W64 × W64) (m : W64) : W64 × W64 × W64 × W64 :=
  let (a, b, c, d) := v
  let (a, b, c, d) := sipRound (sipRound (a, b, c, d ^^^ m))
  (a ^^^ m, b, c, d)

/-- SipHash-2-4 of octets under a 16-octet key. -/
def sipHash (key msg : List Byte) : W64 :=
  let k0 := BitVec.ofNat 64 (leNat (key.take 8))
  let k1 := BitVec.ofNat 64 (leNat ((key.drop 8).take 8))
  let v := (k0 ^^^ 0x736F6D6570736575, k1 ^^^ 0x646F72616E646F6D,
    k0 ^^^ 0x6C7967656E657261, k1 ^^^ 0x7465646279746573)
  let full := msg.length / 8 * 8
  let ws := (chunks 8 (msg.take full)).map fun c => BitVec.ofNat 64 (leNat c)
  let last := BitVec.ofNat 64 (leNat (msg.drop full) + msg.length % 256 * 2 ^ 56)
  let (a, b, c, d) := (ws ++ [last]).foldl sipWord v
  let (a, b, c, d) := sipRound (sipRound (sipRound (sipRound (a, b, c ^^^ 0xFF, d))))
  a ^^^ b ^^^ c ^^^ d

/-! ### xxHash-32 and the LZ4 frame (R198) -/

def xxP1 : W32 := 2654435761
def xxP2 : W32 := 2246822519
def xxP3 : W32 := 3266489917
def xxP4 : W32 := 668265263
def xxP5 : W32 := 374761393

def xxRound (acc w : W32) : W32 := (acc + w * xxP2).rotateLeft 13 * xxP1

/-- The stripes of 16 octets, by fuel; the octets left over. -/
def xxStripes : Nat → W32 × W32 × W32 × W32 → List Byte → (W32 × W32 × W32 × W32) × List Byte
  | 0, v, bs => (v, bs)
  | f + 1, v, bs =>
    if bs.length < 16 then (v, bs) else
    let w (i : Nat) : W32 := BitVec.ofNat 32 (leNat ((bs.drop (4 * i)).take 4))
    xxStripes f (xxRound v.1 (w 0), xxRound v.2.1 (w 1), xxRound v.2.2.1 (w 2), xxRound v.2.2.2 (w 3)) (bs.drop 16)

/-- The words and octets after the stripes, by fuel. -/
def xxTail : Nat → W32 → List Byte → W32
  | 0, h, _ => h
  | f + 1, h, bs =>
    if 4 ≤ bs.length then xxTail f ((h + BitVec.ofNat 32 (leNat (bs.take 4)) * xxP3).rotateLeft 17 * xxP4) (bs.drop 4)
    else match bs with
      | [] => h
      | b :: r => xxTail f ((h + b.setWidth 32 * xxP5).rotateLeft 11 * xxP1) r

/-- xxHash-32 with seed 0, the checksum of the LZ4 Frame Format. -/
def xxh32 (bs : List Byte) : W32 :=
  let start : W32 × List Byte :=
    if bs.length < 16 then (xxP5, bs)
    else
      let r := xxStripes (bs.length / 16) (xxP1 + xxP2, xxP2, 0, 0 - xxP1) bs
      let v := r.1
      (v.1.rotateLeft 1 + v.2.1.rotateLeft 7 + v.2.2.1.rotateLeft 12 + v.2.2.2.rotateLeft 18, r.2)
  let h := xxTail bs.length (start.1 + BitVec.ofNat 32 bs.length) start.2
  let h := (h ^^^ (h >>> 15)) * xxP2
  let h := (h ^^^ (h >>> 13)) * xxP3
  h ^^^ (h >>> 16)

/-- One block of an LZ4 frame: compressed where that is smaller, else raw with the size's high bit. -/
def lz4BlockOf (b : List Byte) : List Byte :=
  let c := Config.lz4Block b
  if c.length < b.length then le 4 c.length ++ c else le 4 (2 ^ 31 + b.length) ++ b

/-- One frame with the options of R198. -/
def lz4Frame (b : List Byte) : List Byte :=
  let d : List Byte := [0x6C, 0x70] ++ le 8 b.length
  le 4 0x184D2204 ++ d ++ [(xxh32 d >>> 8).setWidth 8] ++ (chunks 0x400000 b).flatMap lz4BlockOf ++ zeros 4 ++
    le 4 (xxh32 b).toNat

end Sys2Proof.Machine
end

