-- ==== Sys2Proof/Machine/Trace.lean ====
section
/-! DEFINITION. The group trace (0x05xx): region, settings, triggers and Marks, TRACE_QUERY and TRACE_STATUS
(R223 to R242). -/

namespace Sys2Proof.Machine

/-! ### Region and restart -/

/-- A source is enabled somewhere, as the collectors mirror it. -/
def Hub.tracing (h : Hub) : Bool :=
  h.trace.collectors.any fun c => c.2.mirrors.any fun m => m.2.trace.getLsbD 0

/-- Two ranges of bytes overlap. -/
def overlap (b1 n1 b2 n2 : Nat) : Bool := decide (b1 < b2 + n2) && decide (b2 < b1 + n1)

/-- A range lies wholly in one of the memories of a list. -/
def inMemory (l : List (Nat × Nat)) (b n : Nat) : Bool := l.any fun r => decide (r.1 ≤ b) && decide (b + n ≤ r.1 + r.2)

/-- The trace region does not lie where it may (R223); with a size of 1, its base alone is at fault. -/
def Hub.traceBaseBad (h : Hub) (b n : Nat) : Bool :=
  decide (b % 0x200000 ≠ 0) || !inMemory h.chip.tier2 b n || (h.dump.isSet && overlap b n h.dump.base h.dump.size)

/-- The size of the trace region is at fault (R223). -/
def traceSizeBad (n : Nat) : Bool := decide (n % 0x40000000 ≠ 0) || decide (n = 0) || decide (0x1000000000 < n)

def opTraceRegionSet (hdr : Hdr) (base size : W64) (mode flags : Byte) (k : W64) (h : Hub) : Hub :=
  h.icp 0x0500 hdr fun h =>
    if h.tracing then h.badState 0x0500 hdr
    else if h.traceBaseBad base.toNat 1 then h.badArg 0x0500 hdr 0
    else if traceSizeBad size.toNat then h.badArg 0x0500 hdr 8
    else if h.traceBaseBad base.toNat size.toNat then h.badArg 0x0500 hdr 0
    else if 2 < mode.toNat then h.badArg 0x0500 hdr 16
    else if 1 < flags.toNat then h.badArg 0x0500 hdr 17
    else if size.toNat / 2048 ≤ k.toNat then h.badArg 0x0500 hdr 24
    else
      let t := { h.trace with isSet := true, base := base.toNat, size := size.toNat, mode := mode.toNat,
                              onHang := flags.getLsbD 0, k := k.toNat,
                              past := h.trace.past ++ [(h.pt, h.trace.region)] }
      { h with trace := t }.restartByCommand.ok 0x0500 hdr []

def opTraceRestart (hdr : Hdr) (h : Hub) : Hub := h.icp 0x0502 hdr fun h => h.restartByCommand.ok 0x0502 hdr []

/-! ### TRACE_CONFIG (R229) -/

/-- The TRACE_SET a source takes: that of the last entry that covers it. -/
def entryFor (es : List TraceEntry) (s : SourceId) : Option W64 :=
  ((es.filter fun e => (s.setWidth 32 &&& e.mask) == (e.source &&& e.mask)).getLast?).map fun e => e.set

/-- The staging writes for one unit's sources (Table 9-5). -/
def traceWrites (es : List TraceEntry) (u : UnitId) : List (Nat × List Byte) :=
  (List.range (engineCount u)).filterMap fun e => (entryFor es (sourceOf u e)).map fun v => (traceEntryAddr e, le 8 v.toNat)

/-- Units with a source that some entry covers. -/
def coveredUnits (es : List TraceEntry) : List UnitId :=
  allUnits.filter fun u => (List.range (engineCount u)).any fun e => (entryFor es (sourceOf u e)).isSome

/-- Tc or Td: from the completion of the staging writes to the agents plus 200 ns to receipt plus 30 us; 0 the earliest. -/
def Hub.commitInstant (h : Hub) (us : List UnitId) (t : Nat) : Option Nat :=
  if t = 0 then some (h.commitAt us) else if h.commitAt us ≤ t ∧ t ≤ h.pt + 30000 then some t else none

/-- Units of a TRACE_CONFIG that are neither retired nor powered off. -/
def Hub.traceUnits (h : Hub) (es : List TraceEntry) : List UnitId :=
  (coveredUnits es).filter fun u => h.presence u == 0 || h.presence u == 3

/-- TRACE_CONFIG once every agent has answered or timed out: stage, and commit (R229). An entry whose SOURCE under its MASK
names no source of any unit covers nothing and is no fault (log entry 156). -/
def Hub.runTraceConfig (h : Hub) (hdr : Hdr) (tc : W64) (entries : List TraceEntry) : Hub :=
  let l := h.traceUnits entries
  let on := l.filter fun u => h.answers u
  match h.commitInstant on tc.toNat with
  | none => h.badArg 0x0501 hdr 0
  | some t =>
    let h := ((h.stageAll on (traceWrites entries)).powerDomains [18, 19, 20, 6, 7]).commit .chip t 1
    h.ok 0x0501 hdr ([] |> put 8 t |> put 4 on.length |> put 4 (l.length - on.length))

def opTraceConfig (hdr : Hdr) (tc : W64) (entries : List TraceEntry) (h : Hub) : Hub :=
  h.icp 0x0501 hdr fun h =>
    if 254 < entries.length then h.badArg 0x0501 hdr 8
    else if h.measuring then h.badState 0x0501 hdr
    else
      let l := h.traceUnits entries
      if (h.commitInstant (l.filter fun u => h.answers u) tc.toNat).isNone then h.badArg 0x0501 hdr 0
      else h.withAgents 0x0501 hdr l (.traceConfig hdr tc entries) fun h => h.runTraceConfig hdr tc entries

/-! ### Triggers and Marks (R226, R244) -/

/-- An instant from receipt + 1 us to receipt + 30 us; 0 means the earliest. -/
def Hub.markAt (h : Hub) (t : Nat) : Option Nat :=
  if t = 0 then some (h.pt + 1000) else if h.pt + 1000 ≤ t ∧ t ≤ h.pt + 30000 then some t else none

def opTraceTrigger (hdr : Hdr) (tt : W64) (value : W32) (h : Hub) : Hub :=
  h.icp 0x0503 hdr fun h =>
    if h.measuring then h.badState 0x0503 hdr else
    match h.markAt tt.toNat with
    | none => h.badArg 0x0503 hdr 0
    | some t => (h.trigger t value 4 0).ok 0x0503 hdr (le 8 t)

def opTraceMark (hdr : Hdr) (instant : W64) (value : W32) (h : Hub) : Hub :=
  h.icp 0x0504 hdr fun h =>
    if h.measuring then h.badState 0x0504 hdr else
    match h.markAt instant.toNat with
    | none => h.badArg 0x0504 hdr 0
    | some t =>
      let h := h.mark t value 0 0 false
      h.ok 0x0504 hdr (le 8 t ++ le 4 h.trace.markId.toNat)

/-! ### Collector registers (Table 9-10) -/

/-- The sources of a collector in slot order (R216). -/
def collectorSources (c : Nat) : List SourceId :=
  (allUnits.filter fun u => collectorOf u == c).flatMap fun u => (List.range (engineCount u)).map fun e => sourceOf u e

def Collector.stateWord (c : Collector) (mode : Nat) : Nat :=
  mode + 8 * b2n c.gap.isSome + 16 * b2n c.triggered + 32 * b2n c.frozen + 64 * b2n c.full + 128 * b2n c.safeHalt

/-- A collector's block of 1 KiB. -/
def Hub.collectorBytes (h : Hub) (i : Nat) : List Byte :=
  let c := h.collector i
  let l := collectorSources i
  let head := le 4 (c.stateWord h.trace.mode) ++ le 4 (c.wakeLevel.toNat + c.hwm * 0x10000) ++ le 8 c.lineSeq ++
    le 8 c.anchorPt ++ le 8 c.triggerSeq ++ le 4 (sat32 c.afterTrigger) ++ le 4 c.frozenDrops ++ le 8 c.accepted ++
    le 4 c.dropped ++ le 4 l.length
  fit 0x400 (fit 0x100 head ++ l.flatMap fun s => le 4 (mapGet {} c.mirrors s.toNat).drops)

def opTraceStatus (hdr : Hdr) (h : Hub) : Hub :=
  h.icp 0x0506 hdr fun h =>
    let t := h.trace
    h.ok 0x0506 hdr (([] |> put 8 t.base |> put 8 t.size |> put 1 t.mode |> put 8 t.k) ++
      collectorNumbers.flatMap h.collectorBytes)

/-! ### TRACE_QUERY (R237 to R240) -/

/-- The tag and source tests (Table 9-7). -/
def queryPasses (q : QuerySpec) (v : Nat) : Bool :=
  let typ := bits v 127 124
  let source := BitVec.ofNat 32 (bits v 123 104)
  let tag := BitVec.ofNat 32 (bits v 71 40)
  let tagged := typ == 1 || typ == 2 || typ == 3 || typ == 4 || typ == 7
  let always := q.always.getLsbD 0 && (typ == 6 || typ == 8)
  let tagOk := !tagged || (tag &&& q.tagMask) == (q.tag &&& q.tagMask)
  let low (w : W32) : W32 := w &&& 0xFFFFF
  let sourceOk := q.sources.isEmpty || q.sources.any fun s => (source &&& low s.2) == (low s.1 &&& low s.2)
  always || (tagOk && sourceOk)

/-- What an Observer sees of a record: members of its partition, Fixes, and Gaps without their counts (R238). -/
def observerView (p : BitVec 6) (v : Nat) : Option Nat :=
  let typ := bits v 127 124
  if 1 ≤ typ ∧ typ ≤ 4 then (if bit v 32 && bits v 39 34 == p.toNat then some v else none)
  else if typ = 5 then some v
  else if typ = 6 then some (v - bits v 71 40 * 2 ^ 40 - bits v 37 0)
  else none

/-- An item (Table 9-8). -/
def queryItem (pt : Option Nat) (c lineSeq slot v : Nat) : List Byte :=
  le 8 (pt.getD 0) ++ le 6 lineSeq ++ le 1 (c + slot * 32 + 128 * b2n pt.isNone) ++ [0] ++ le 16 v

/-- One slot of a line. Without a preceding Fix a record's PT counts as zero. -/
def Scan.slot (s : Scan) (q : QuerySpec) (view : Nat → Option Nat) (c lineSeq slot v : Nat) (live : Bool) : Scan :=
  let typ := bits v 127 124
  let s := if typ = 5 then { s with anchor := some (bits v 71 40 * 2 ^ 32 + bits v 103 72) } else s
  if !live || decide (typ = 0) || decide (8 < typ) || !q.types.getLsbD typ then s else
  let pt := s.anchor.map fun f => if typ = 5 then f else unwrapPt f (bits v 103 72)
  let at_ := pt.getD 0
  let inTime := decide (q.ptFrom.toNat ≤ at_) && (q.ptTo == 0 || decide (at_ < q.ptTo.toNat))
  if !inTime || !queryPasses q v then s else
  match view v with
  | none => s
  | some w => { s with items := queryItem pt c lineSeq slot w :: s.items, count := s.count + 1 }

/-- One line; those before `start` only give the Fix that precedes it. -/
def Scan.line (s : Scan) (h : Hub) (m : SMap Byte) (q : QuerySpec) (view : Nat → Option Nat) (c start lineSeq : Nat) : Scan :=
  let live := decide (start ≤ lineSeq)
  let a := h.trace.lineAddr c lineSeq
  let s := (List.range 4).foldl (fun (s : Scan) k => s.slot q view c lineSeq k (leNat (memRead m (a + 16 * k) 16)) live) s
  if live then { s with lines := s.lines + 1 } else s

/-- The oldest line a sub-region still holds. -/
def Hub.oldestLine (h : Hub) (c : Nat) : Nat := (h.collector c).lineSeq - h.trace.lines

/-- The Fix that precedes a collector's oldest line: its ANCHOR_PT. -/
def Collector.anchor (c : Collector) : Option Nat := if c.anchorPt = 0 then none else some c.anchorPt

/-- The tail (Table 9-9), with FLAGS MORE and BOUND and the cursor. -/
def Scan.tail (s : Scan) (cursor : Nat × Nat) (more bound : Bool) : List Byte :=
  le 4 s.count ++ zeros 4 ++ le 8 s.lines ++ le 8 s.lapped ++ le 8 cursor.2 ++ le 1 cursor.1 ++
    le 1 (b2n more + 2 * b2n bound + 4 * b2n (decide (0 < s.lapped))) ++ zeros 30

/-- The reply of a query (R240). -/
def Scan.reply (s : Scan) (cursor : Nat × Nat) (more bound : Bool) : List Byte := s.items.reverse.flatten ++ s.tail cursor more bound

/-- The first field of a query that is at fault (Table 9-7). -/
def queryFault (q : QuerySpec) : Option Nat :=
  if 31 < q.startCollector.toNat then some 7
  else if q.maxMatches = 0 ∨ 0x1000000 < q.maxMatches.toNat then some 40
  else if 16 < q.sources.length then some 44
  else none

/-- A query as it begins: the selected collectors in order, from the cursor on, and the ends of their scans (R239). -/
def Hub.startQuery (h : Hub) (hdr : Hdr) (q : QuerySpec) : QueryRun :=
  let l := if !h.trace.isSet then [] else
    collectorNumbers.filter fun c => q.collectors.getLsbD c && decide (q.startCollector.toNat ≤ c)
  let todo := l.map fun c => (c, (h.collector c).lineSeq)
  { spec := q, todo := todo, oldest := l.map fun c => (c, h.oldestLine c), finish := todo.getLast?.getD (q.startCollector.toNat, q.startLineSeq.toNat),
    observer := match h.session hdr.session with
      | some ⟨_, .observer, p, _, _, _⟩ => some p
      | _ => none }

/-- The scan comes to a collector: lines that were to be scanned, from the cursor or from the oldest at receipt, and that the
region no longer holds are lapped, and the scan goes back to a line whose first record is a Fix. -/
def QueryRun.enter (r : QueryRun) (h : Hub) (c : Nat) : QueryRun :=
  let oldest := h.oldestLine c
  let want := if c = r.spec.startCollector.toNat ∧ r.spec.startLineSeq ≠ 0 then r.spec.startLineSeq.toNat else mapGet 0 r.oldest c
  let start := max oldest want
  { r with place := some (start, max oldest (start / 1024 * 1024)),
           scan := { r.scan with lapped := r.scan.lapped + (start - want), anchor := (h.collector c).anchor } }

/-- Lines that were overwritten before the scan reached them are lapped, and it goes on with the oldest line (R239). -/
def QueryRun.lap (r : QueryRun) (h : Hub) (c start next : Nat) : QueryRun :=
  let oldest := h.oldestLine c
  if oldest ≤ next then r
  else { r with place := some (start, oldest),
                scan := { r.scan with lapped := r.scan.lapped + (oldest - max next start), anchor := (h.collector c).anchor } }

/-- The next line to scan, as the tail's cursor names it. -/
def QueryRun.cursor (r : QueryRun) : Nat × Nat :=
  match r.todo with
  | [] => r.finish
  | (c, _) :: _ =>
    match r.place with
    | some (start, next) => (c, max start next)
    | none => (c, if c = r.spec.startCollector.toNat then r.spec.startLineSeq.toNat else 0)

/-- One step of a query: a collector is entered or left, a line is scanned, or the reply is given (R239, R240). -/
def Hub.queryStep (h : Hub) (m : SMap Byte) : Hub :=
  match h.slot with
  | some ⟨_, _, _, _, .query r, _, _, _, _, _, _, _, _⟩ =>
    match r.todo with
    | [] => h.conclude .ok (r.scan.reply r.cursor false false)
    | (c, last) :: rest =>
      match r.place with
      | none => h.setProg (.query (r.enter h c))
      | some (start, next) =>
        let r := r.lap h c start next
        let at_ := (r.place.getD (start, next)).2
        if last ≤ at_ then h.setProg (.query { r with todo := rest, place := none })
        else if start ≤ at_ ∧ r.spec.maxMatches.toNat ≤ r.scan.count then h.conclude .ok (r.scan.reply r.cursor true false)
        else
          let view := match r.observer with | some p => observerView p | none => some
          h.setProg (.query { r with place := some (start, at_ + 1), scan := r.scan.line h m r.spec view c start at_ })
  | _ => h

/-- Whether a command of an opcode would be executed now. -/
def Hub.executes (h : Hub) (code : Nat) (hdr : Hdr) : Bool :=
  match opRow code with
  | none => false
  | some r => h.takesPackets && (((h.touch hdr.session).wake.working).verdict r hdr).isNone

/-- Admit a command that also changes memory. -/
def Hub.icpMem (h : Hub) (m : SMap Byte) (code : Nat) (hdr : Hdr) (run : Hub → Hub × SMap Byte) : Hub × SMap Byte :=
  if h.executes code hdr then run ((h.touch hdr.session).wake.working) else (h.icp code hdr fun h => h, m)

/-- TRACE_QUERY: partly filled lines are written out first (R239); the scan then takes its time (log entry 106). -/
def opTraceQuery (hdr : Hdr) (q : QuerySpec) (m : SMap Byte) (h : Hub) : Hub × SMap Byte :=
  match (if h.executes 0x0505 hdr then queryFault q else none) with
  | some o => (h.icp 0x0505 hdr fun h => h.badArg 0x0505 hdr o, m)
  | none =>
    if h.executes 0x0505 hdr then
      let r := collectorNumbers.foldl Hub.flushLine (h, m)
      (r.1.icp 0x0505 hdr fun h => (h.powerDomains [19, 20]).occupy 0x0505 hdr (.query (h.startQuery hdr q)), r.2)
    else (h.icp 0x0505 hdr id, m)

/-! ### Meanings -/

def execTraceRegionSet (h : Hdr) (base size : W64) (mode flags : Byte) (k : W64) (st : State) :
    Host.Outcome State Fault Refusal :=
  .next { st with hub := opTraceRegionSet h base size mode flags k st.hub }
def execTraceConfig (h : Hdr) (tc : W64) (entries : List TraceEntry) (st : State) :
    Host.Outcome State Fault Refusal :=
  .next { st with hub := opTraceConfig h tc entries st.hub }
def execTraceRestart (h : Hdr) (st : State) : Host.Outcome State Fault Refusal :=
  .next { st with hub := opTraceRestart h st.hub }
def execTraceTrigger (h : Hdr) (tt : W64) (value : W32) (st : State) : Host.Outcome State Fault Refusal :=
  .next { st with hub := opTraceTrigger h tt value st.hub }
def execTraceMark (h : Hdr) (instant : W64) (value : W32) (st : State) : Host.Outcome State Fault Refusal :=
  .next { st with hub := opTraceMark h instant value st.hub }
def execTraceQuery (h : Hdr) (q : QuerySpec) (st : State) : Host.Outcome State Fault Refusal :=
  let r := opTraceQuery h q st.mem st.hub
  .next { st with hub := r.1, mem := r.2 }
def execTraceStatus (h : Hdr) (st : State) : Host.Outcome State Fault Refusal :=
  .next { st with hub := opTraceStatus h st.hub }

end Sys2Proof.Machine
end

