-- ==== Sys2Proof/Machine/Tap.lean ====
section
/-! DEFINITION. The sounding taps (R265 to R274): selection, number formats, every statistic, and the range
digest of R289. -/

namespace Sys2Proof.Machine

/-! ### Chip memory as hub functions address it -/

/-- The slice and the offset in it that an address of slice SRAM stands for. -/
def Hub.sliceAt (h : Hub) (a : Nat) : Option (UnitId × Nat) :=
  if h.chip.slices ≤ a ∧ a < h.chip.slices + 512 * 0x100000 then
    let k := (a - h.chip.slices) / 0x100000
    some (BitVec.ofNat 16 (k / 256 * 0x8000 + 0x3000 + k % 256), (a - h.chip.slices) % 0x100000)
  else none

/-- A byte of external memory or slice SRAM. -/
def Hub.chipByte (h : Hub) (m : SMap Byte) (a : Nat) : Byte :=
  match h.sliceAt a with
  | some (u, o) => (h.agent u).sramByte u o
  | none => memByte m a

def Hub.chipBytes (h : Hub) (m : SMap Byte) (a n : Nat) : List Byte :=
  (List.range n).map fun i => h.chipByte m (a + i)

/-- An engine writes octets to external memory or slice SRAM; other addresses are not in this map. -/
def Hub.chipWrite (m : SMap Byte) (a : Nat) (bs : List Byte) (h : Hub) : Hub × SMap Byte :=
  match h.sliceAt a with
  | some (u, o) =>
    if o + bs.length ≤ 0x100000 then (h.modAgent u fun g => { g with sram := sramWrite g.sram o bs }, m) else (h, m)
  | none =>
    if inMemory h.chip.tier1 a bs.length || inMemory h.chip.tier2 a bs.length then (h, memWrite m a bs) else (h, m)

/-! ### Number formats (Table 11-2) -/

/-- How special codes are laid out. -/
inductive Special where
  | ieee
  | e4m3
  | none
  | int
  deriving DecidableEq, Repr

/-- A format: element width, exponent and mantissa bits, bias, special codes, and whether blocks carry a scale.
An integer's value is its code times 2^(-bias). -/
structure Format where
  w : Nat
  eb : Nat := 0
  mb : Nat := 0
  bias : Nat := 0
  special : Special
  mx : Bool := false
  deriving DecidableEq, Repr

/-- Table 11-2. -/
def formatOf (f : Nat) : Option Format :=
  match f with
  | 0x01 => some { w := 32, eb := 8, mb := 23, bias := 127, special := .ieee }
  | 0x02 => some { w := 16, eb := 5, mb := 10, bias := 15, special := .ieee }
  | 0x03 => some { w := 16, eb := 8, mb := 7, bias := 127, special := .ieee }
  | 0x04 => some { w := 8, eb := 4, mb := 3, bias := 7, special := .e4m3 }
  | 0x05 => some { w := 8, eb := 5, mb := 2, bias := 15, special := .ieee }
  | 0x06 => some { w := 8, eb := 4, mb := 3, bias := 7, special := .e4m3, mx := true }
  | 0x07 => some { w := 8, eb := 5, mb := 2, bias := 15, special := .ieee, mx := true }
  | 0x08 => some { w := 6, eb := 3, mb := 2, bias := 3, special := .none, mx := true }
  | 0x09 => some { w := 6, eb := 2, mb := 3, bias := 1, special := .none, mx := true }
  | 0x0A => some { w := 4, eb := 2, mb := 1, bias := 1, special := .none, mx := true }
  | 0x0B => some { w := 8, bias := 6, special := .int, mx := true }
  | 0x0C => some { w := 8, special := .int }
  | 0x0D => some { w := 4, special := .int }
  | _ => none

/-- An element's value. -/
inductive Val where
  | nan
  | inf (neg : Bool)
  /-- (-1)^neg times mant times 2^exp. -/
  | fin (neg : Bool) (mant : Nat) (exp : Int)
  deriving DecidableEq, Repr

/-- Sign, exponent field and mantissa of a floating-point code. -/
def Format.neg (f : Format) (c : Nat) : Bool := bit c (f.w - 1)
def Format.ex (f : Format) (c : Nat) : Nat := c / 2 ^ f.mb % 2 ^ f.eb
def Format.man (f : Format) (c : Nat) : Nat := c % 2 ^ f.mb

/-- The value of an element's code, without the scale (R268). -/
def Format.value (f : Format) (c : Nat) : Val :=
  let e := f.ex c
  let m := f.man c
  let top := decide (e = 2 ^ f.eb - 1)
  let num : Val := if e = 0 then .fin (f.neg c) m (1 - (f.bias : Int) - f.mb)
    else .fin (f.neg c) (m + 2 ^ f.mb) ((e : Int) - f.bias - f.mb)
  match f.special with
  | .ieee => if top then (if m = 0 then .inf (f.neg c) else .nan) else num
  | .e4m3 => if top && decide (m = 2 ^ f.mb - 1) then .nan else num
  | .none => num
  | .int =>
    if bit c (f.w - 1) then .fin true (2 ^ f.w - c) (-(f.bias : Int)) else .fin false c (-(f.bias : Int))

/-- The element saturates (R268): its magnitude equals max, or its code either end of an integer's range. -/
def Format.saturates (f : Format) (c : Nat) : Bool :=
  let mag := c % 2 ^ (f.w - 1)
  match f.special with
  | .ieee => mag == 2 ^ (f.w - 1) - 1 - 2 ^ f.mb
  | .e4m3 => mag == 2 ^ (f.w - 1) - 2
  | .none => mag == 2 ^ (f.w - 1) - 1
  | .int => c == 2 ^ (f.w - 1) || c == 2 ^ (f.w - 1) - 1

/-- A subnormal: exponent field zero, mantissa non-zero; integers have none. -/
def Format.subnormal (f : Format) (c : Nat) : Bool :=
  f.special != .int && f.ex c == 0 && f.man c != 0

/-- floor(log2 n). -/
def log2 (n : Nat) : Nat := Nat.log2 n

/-- The bin of an exponent (R270). -/
def binOf (e base : Int) (shift : Nat) : Nat :=
  let b := (e - base).fdiv (2 ^ shift) + 1
  (min 15 (max 0 b)).toNat

/-- The binary64 pattern of a value that is not NaN (R271). -/
def binary64 (v : Val) (scale : Int) : Nat :=
  match v with
  | .nan => 0
  | .inf neg => b2n neg * 2 ^ 63 + 0x7FF * 2 ^ 52
  | .fin neg 0 _ => b2n neg * 2 ^ 63
  | .fin neg m x =>
    let k := log2 m
    b2n neg * 2 ^ 63 + ((k : Int) + x + scale + 1023).toNat * 2 ^ 52 + (m * 2 ^ (52 - k) - 2 ^ 52)

/-- The key of a binary64 pattern (R271). -/
def orderKey (b : Nat) : W64 :=
  let w := BitVec.ofNat 64 b
  if w.msb then w ^^^ 0x7FFFFFFFFFFFFFFF else w

/-! ### Digest (R273) -/

/-- SipHash of one element: its index and value word. -/
def elementHash (key : List Byte) (format : Nat) (index code scale : Nat) : W64 :=
  sipHash key (le 8 index ++ le 8 (code + scale * 2 ^ 32 + format * 2 ^ 56))

/-! ### One element (Table 11-3) -/

/-- MIN, MAX and MAXABS (R271). -/
def Accum.extremes (a : Accum) (v : Val) (scale : Int) : Accum :=
  let b := binary64 v scale
  let k := orderKey b
  let mag := BitVec.ofNat 64 (b % 2 ^ 63)
  { a with minKey := if k.toInt < a.minKey.toInt then k else a.minKey,
           maxKey := if a.maxKey.toInt < k.toInt then k else a.maxKey,
           maxAbs := if a.maxAbs.toNat < mag.toNat then mag else a.maxAbs }

/-- SUBNORMAL and SATURATION go by the element's code, in NaN blocks too (Table 11-3, R268). -/
def Accum.codes (a : Accum) (f : Format) (c : Nat) : Accum :=
  { a with subnormal := if f.subnormal c then a.subnormal + 1 else a.subnormal,
           saturation := if f.saturates c then a.saturation + 1 else a.saturation }

/-- Count one value in the classes of special values, the exponent bins and the extremes. -/
def Accum.classify (a : Accum) (t : TapSlot) (v : Val) (scale : Int) : Accum :=
  match v with
  | .nan => { a with nan := a.nan + 1 }
  | .inf neg => Accum.extremes (if neg then { a with negInf := a.negInf + 1 } else { a with posInf := a.posInf + 1 }) v scale
  | .fin _ m x =>
    let a := { a with zero := if m = 0 then a.zero + 1 else a.zero }
    let b := binOf ((log2 m : Nat) + x) t.expBase.toInt (t.shifts.toNat % 16)
    let a := if m = 0 then a else { a with expBins := mapMod 0 a.expBins b (· + 1) }
    a.extremes v scale

/-- SUM takes the exact value of a finite element of magnitude below 2^128; others are excluded (R272). -/
def Accum.addSum (a : Accum) (v : Val) (scale : Int) : Accum :=
  match v with
  | .fin neg m x =>
    let k := x + scale + 149
    let n := if 0 ≤ k then m * 2 ^ k.toNat else m / 2 ^ (-k).toNat
    if 2 ^ 277 ≤ n then { a with sumExcluded := a.sumExcluded + 1 }
    else
      let d := BitVec.ofNat 320 n
      { a with sum := if neg then a.sum - d else a.sum + d, sumElements := a.sumElements + 1 }
  | _ => a

/-- An element of a beat: its number in the beat, its code, its scale byte. -/
structure Elem where
  bitAddr : Nat
  code : Nat
  scale : Nat
  block : Nat

/-- The elements of a beat, lowest bits first. -/
def beatElems (b : Beat) (f : Format) : List Elem :=
  let v := leNat b.data
  (List.range (8 * b.data.length / f.w)).map fun i =>
    { bitAddr := 8 * b.address + i * f.w, code := v / 2 ^ (i * f.w) % 2 ^ f.w,
      scale := if f.mx then (b.scales.getD (i / 32) 0).toNat else 0, block := i / 32 }

/-- Address mode. -/
def TapSlot.addrMode (t : TapSlot) : Bool := t.ctrl.getLsbD 1

/-- The base of an element's index (R267). -/
def TapSlot.base (t : TapSlot) (b : Beat) : Nat := if t.addrMode then t.selA.toNat else b.outBase

/-- The slot selects the element (R266). -/
def TapSlot.selects (t : TapSlot) (b : Beat) (f : Format) (e : Elem) : Bool :=
  if t.addrMode then
    decide (8 * t.selA.toNat ≤ e.bitAddr) && decide (e.bitAddr + f.w ≤ 8 * t.selB.toNat)
  else (b.tag.setWidth 64 &&& t.selB) == (t.selA &&& t.selB)

/-- SUM is selected, and DIGEST. -/
def statSum (s : W16) : Bool := s.getLsbD 4
def statDigest (s : W16) : Bool := s.getLsbD 5

/-- SUM of binary32 runs at half rate: only even beats, unless the slot stalls (R274). -/
def TapSlot.halfRate (t : TapSlot) : Bool := t.format == 1 && statSum t.stats

/-- One selected element. -/
def Accum.element (a : Accum) (t : TapSlot) (f : Format) (b : Beat) (addsSum : Bool) (e : Elem) : Accum :=
  let scale : Int := if f.mx then (e.scale : Int) - 127 else 0
  let v := if f.mx && decide (e.scale = 0xFF) then Val.nan else f.value e.code
  let a := (({ a with elements := a.elements + 1 } : Accum).codes f e.code).classify t v scale
  let a := if addsSum then a.addSum v scale else a
  if statDigest t.stats then
    let i := (e.bitAddr - 8 * t.base b) / f.w
    { a with digest := a.digest + elementHash t.key t.format.toNat i e.code e.scale }
  else a

/-- The MX blocks a beat's selected elements lie in (Table 11-3). -/
def Accum.blocks (a : Accum) (t : TapSlot) (l : List Elem) : Accum :=
  let ids := l.foldl (fun (m : List Elem) e => if m.any fun x => x.block == e.block then m else m ++ [e]) []
  ids.foldl (fun (a : Accum) e =>
    if e.scale = 0xFF then { a with nanBlocks := a.nanBlocks + 1 }
    else
      let k := binOf ((e.scale : Int) - 127) t.scaleBase.toInt (t.shifts.toNat / 16)
      { a with scaleBins := mapMod 0 a.scaleBins k (· + 1) }) a

/-- The number of a beat within its command on the engine (R274). -/
def Engine.beatNumber (g : Engine) (tag : W32) : Nat := if g.beatTag = some tag then g.beats else 0

/-- A slot processes a beat, the `number`-th of its command: the slot after it, and whether the beat was selected. -/
def TapSlot.beat (t : TapSlot) (number : Nat) (b : Beat) : TapSlot × Bool :=
  match formatOf t.format.toNat with
  | none => (t, false)
  | some f =>
    if !t.ctrl.getLsbD 0 then (t, false) else
    let l := (beatElems b f).filter fun e => t.selects b f e
    let n := if t.addrMode then t.beatNo else number
    let stalls := t.ctrl.getLsbD 2
    let addsSum := statSum t.stats && (!t.halfRate || stalls || decide (n % 2 = 0))
    let a := l.foldl (fun (a : Accum) e => a.element t f b addsSum e) t.acc
    let a := if f.mx then a.blocks t l else a
    ({ t with acc := a, beatNo := t.beatNo + 1 }, !l.isEmpty)

/-- A write toward the fence of a command step: to anything but the unit's own SRAM (R178). -/
def Hub.crossesFence (h : Hub) (u : UnitId) (addr : Nat) : Bool :=
  (h.agent u).stepOnly.isSome && (h.sliceAt addr).map (·.1) != some u

/-- The requests that units hold in their outbound buffers are launched once the units run again (R179). -/
def Hub.launchHeld (h : Hub) (m : SMap Byte) : Hub × SMap Byte :=
  (h.agents.filter fun p => p.2.state == .running && !p.2.outbound.isEmpty).foldl (fun x p =>
    p.2.outbound.foldl (fun (y : Hub × SMap Byte) q => Hub.chipWrite y.2 q.2.1 q.2.2 y.1)
      (x.1.modAgent (unitOf p.1) fun a => { a with outbound := [] }, x.2)) (h, m)

/-- WRITEBACK_BEAT: every slot of the engine processes the beat; in stall mode the writeback path is held one
cycle on a selected beat (R265, R274). A gated unit writes nothing; in a command step a write toward the fence is held in
the outbound buffer, and the engine waits (R179). -/
def opWritebackBeat (unit : UnitId) (engine : Nat) (beat : Beat) (m : SMap Byte) (h : Hub) : Hub × SMap Byte :=
  let a := h.agent unit
  if !a.powered || a.engineGated engine || decide (tapEngines unit ≤ engine) || decide (64 < beat.data.length) then (h, m) else
  let mine (t : Nat × TapSlot) : Bool := t.1 / 4 == engine
  let g := a.engine engine
  let n := g.beatNumber beat.tag
  let held := a.taps.any fun t => mine t && t.2.halfRate && t.2.ctrl.getLsbD 2 && (t.2.beat n beat).2
  let a := { a with taps := a.taps.map fun (t : Nat × TapSlot) => if mine t then (t.1, (t.2.beat n beat).1) else t,
                    stall := if held then sat32 (a.stall + 1) else a.stall }
  let a := a.setEngine engine { g with beats := n + 1, beatTag := some beat.tag }
  if h.crossesFence unit beat.address then
    (h.setAgent unit { a with outbound := a.outbound ++ [(engine, beat.address, beat.data)] }, m)
  else (h.setAgent unit a).chipWrite m beat.address beat.data

/-! ### Range digest (R289) -/

/-- The digest of `n` elements of a memory range from element `from`, with indices from the range base. -/
def Hub.rangeDigest (h : Hub) (m : SMap Byte) (key : List Byte) (format base scaleBase first n : Nat) : W64 :=
  match formatOf format with
  | none => 0
  | some f =>
    (List.range n).foldl (fun (d : W64) k =>
      let i := first + k
      let bit0 := i * f.w
      let v := leNat (h.chipBytes m (base + bit0 / 8) ((bit0 % 8 + f.w + 7) / 8))
      let scale := if f.mx then (h.chipByte m (scaleBase + i / 32)).toNat else 0
      d + elementHash key format i (v / 2 ^ (bit0 % 8) % 2 ^ f.w) scale) 0

/-- Octets that `n` elements of a format take. -/
def rangeBytes (format n : Nat) : Nat := match formatOf format with | some f => (n * f.w + 7) / 8 | none => 0

/-! ### Meanings -/

def execWritebackBeat (unit : UnitId) (engine : Nat) (beat : Beat) (st : State) :
    Host.Outcome State Fault Refusal :=
  let r := opWritebackBeat unit engine beat st.mem st.hub
  .next { st with hub := r.1, mem := r.2 }

end Sys2Proof.Machine
end

