-- ==== Sys2Proof/Machine/Sounding.lean ====
section
/-! DEFINITION. The group soundings (0x07xx) but REPLAY, and the combiners' postings (R275 to R284). -/

namespace Sys2Proof.Machine

/-! ### SOUNDING_SET (R275) -/

/-- CTRL of a staged entry: ENABLE and CHANGE, what the host chooses, and PARTITION_SCOPE. -/
def soundCtrl (host : Byte) (observer replay : Bool) : Byte :=
  BitVec.ofNat 8 (0x81 + host.toNat % 8 / 2 * 2 + 8 * b2n replay + 16 * b2n observer)

/-- SEL_A or SEL_B as staged: TAG and MASK have 32 bits (Table 11-5). -/
def selStaged (ctrl : Byte) (v : W64) : Nat := if ctrl.getLsbD 1 then v.toNat else v.toNat % 2 ^ 32

/-- A staged sounding entry (Table 11-5). -/
def soundEntry (p : SoundingSpec) (ctrl : Byte) (key : List Byte) : List Byte :=
  [p.number, p.format, ctrl, 0] ++ le 2 p.stats.toNat ++ [p.expBase, p.shifts, p.scaleBase] ++ zeros 7 ++
    le 8 (selStaged ctrl p.selA) ++ le 8 (selStaged ctrl p.selB) ++ fit 16 key ++ zeros 16

/-- Slot `k` of an agent is free: nothing in it, and nothing staged for it or on its way there. -/
def Agent.slotFree (a : Agent) (k : Nat) : Bool :=
  (mapFind a.taps k).isNone && !(memByte a.staging (0x40 + 64 * k + 2)).getLsbD 7 &&
    !(a.held.any fun w => w.address == 0x18040 + 64 * k)

/-- The lowest free slot number 4e + j of engine `e` (R275). -/
def Agent.freeSlot (a : Agent) (e : Nat) : Option Nat :=
  ((List.range 4).map fun j => 4 * e + j).find? fun k => a.slotFree k

/-- Tap indices of a unit that a TAP_MASK names (Table 11-1). -/
def tapsNamed (u : UnitId) (mask : Byte) : List Nat :=
  (List.range (tapEngines u)).filter fun e => mask.getLsbD (tapBit (unitClass u) e)

/-- The tap slots j that a sounding takes in a unit's engines. -/
def Agent.slotsTaken (a : Agent) (u : UnitId) (mask : Byte) : List Nat :=
  (tapsNamed u mask).filterMap fun e => (a.freeSlot e).map fun k => k % 4

/-- SLOT (Table 19-7). -/
def slotNumber (l : List Nat) : Byte :=
  match l with
  | [] => Config.noSlot ()
  | j :: js => if js.all fun k => k == j then BitVec.ofNat 8 j else 0xFF

/-- The staging writes that arm a sounding on a unit's engines: each entry goes to the lowest free slot. -/
def Agent.soundWrites (a : Agent) (u : UnitId) (mask : Byte) (entry : List Byte) : List (Nat × List Byte) :=
  (tapsNamed u mask).filterMap fun e => (a.freeSlot e).map fun k => (0x40 + 64 * k, entry)

/-- Payload offset of the fields after the scope block, with `n` listed units. -/
def soundPeriodOffset (n : Nat) : Nat := (16 + 2 * n + 3) / 4 * 4
def soundTcOffset (n : Nat) : Nat := (soundPeriodOffset n + 4 + 7) / 8 * 8 + 16

/-- A format with scales. -/
def isMx (format : Nat) : Bool := match formatOf format with | some f => f.mx | none => false

/-- Soundings of one home combiner: 0 to 127 West, 128 to 255 East (R280). -/
def sameHome (a b : Nat) : Bool := decide (a < 128) == decide (b < 128)

/-- DEPTH of all soundings armed on the home combiner of `s`. -/
def Hub.depthUsed (h : Hub) (s : Nat) : Nat :=
  ((h.soundings.filter fun x => sameHome x.1 s && x.2.isArmed h.pt).map fun x => x.2.depth).foldl (· + ·) 0

/-- Units of a sounding's scope that have taps the mask names and whose agents the hub addresses. -/
def Hub.tapUnits (h : Hub) (sc : Scope) (us : List UnitId) (mask : Byte) : List UnitId :=
  (h.presentIn sc us).filter fun u => !(tapsNamed u mask).isEmpty

/-- The first field of SOUNDING_SET that is at fault. -/
def Hub.soundFault (h : Hub) (p : SoundingSpec) (sc : Scope) (us : List UnitId) : Option Nat :=
  let n := p.scope.units.length
  if (formatOf p.format.toNat).isNone then some 2
  else if p.stats.getLsbD 2 && !isMx p.format.toNat then some 4
  else if p.depth = 0 ∨ 64 < p.depth.toNat ∨ 1024 < h.depthUsed p.number.toNat + p.depth.toNat then some 9
  else if 1 < p.persist.toNat then some 10
  else
    match scopeFault p.scope 11 with
    | some o => some o
    | none =>
      if p.periodUs = 0 ∨ 1000000 < p.periodUs.toNat then some (soundPeriodOffset n)
      else if (h.tapUnits sc us p.tapMask).any fun u => (tapsNamed u p.tapMask).any fun e => ((h.agent u).freeSlot e).isNone then
        some noOffset
      else none

/-- The sounding as armed. -/
def soundingOf (p : SoundingSpec) (ctrl : Byte) (sc : Scope) (us : List UnitId) (s : Session) (tc : Nat) : Sounding :=
  { armed := true, format := p.format, ctrl := ctrl, stats := p.stats, tapMask := p.tapMask, scope := sc, units := us,
    owner := s.tag, observer := if s.role = .observer then some s.partition else none,
    persist := p.persist == 1, key := s.soundKey, depth := p.depth.toNat, periodNs := 1000 * p.periodUs.toNat,
    tc := tc, lastPt := tc }

/-- Stage, commit in the sounding's scope (R148), and record. -/
def Hub.armSounding (h : Hub) (hdr : Hdr) (p : SoundingSpec) (s : Session) (sc : Scope) (us : List UnitId) (tc : Nat) : Hub :=
  let l := (h.tapUnits sc us p.tapMask).filter fun u => h.answers u
  let ctrl := soundCtrl p.ctrl (match sc with | .part _ => true | _ => false) false
  let entry := soundEntry p ctrl s.soundKey
  let slot := slotNumber (l.flatMap fun u => (h.agent u).slotsTaken u p.tapMask)
  let h := h.stageAll l fun u => (h.agent u).soundWrites u p.tapMask entry
  let h := ((h.powerDomains [4, 5, 18, 12, 13]).maskFor 4 sc us).commit sc tc 2
  let slots := (l.map fun u => (tapsNamed u p.tapMask).length).foldl (· + ·) 0
  (h.setSounding p.number.toNat { soundingOf p ctrl sc us s tc with slot := slot }).ok 0x0700 hdr (le 8 tc ++ le 4 slots)

/-- The checks of SOUNDING_SET (R275, R278), and what it does where they pass with Tc chosen. -/
def Hub.checkSounding (h : Hub) (hdr : Hdr) (p : SoundingSpec) (run : Session → Scope → List UnitId → Nat → Hub) : Hub :=
  match h.session hdr.session with
  | none => h.denied 0x0700 hdr
  | some s =>
    if (h.sounding p.number.toNat).isBusy h.pt || h.measuring then h.badState 0x0700 hdr
    else if s.role = .observer ∧ p.persist ≠ 0 then h.denied 0x0700 hdr
    else
      let sc := scopeOf p.scope (some s)
      match h.soundFault p sc.1 sc.2 with
      | some o => h.badArg 0x0700 hdr o
      | none =>
        match h.commitInstant ((h.tapUnits sc.1 sc.2 p.tapMask).filter fun u => h.answers u) p.tc.toNat with
        | none => h.badArg 0x0700 hdr (soundTcOffset p.scope.units.length)
        | some tc => run s sc.1 sc.2 tc

/-- SOUNDING_SET once every agent has answered or timed out. -/
def Hub.runSoundingSet (h : Hub) (hdr : Hdr) (p : SoundingSpec) : Hub :=
  h.checkSounding hdr p fun s sc us tc => h.armSounding hdr p s sc us tc

def opSoundingSet (hdr : Hdr) (p : SoundingSpec) (h : Hub) : Hub :=
  h.icp 0x0700 hdr fun h =>
    h.checkSounding hdr p fun _ sc us _ =>
      h.withAgents 0x0700 hdr (h.tapUnits sc us p.tapMask) (.soundingSet hdr p) fun h => h.runSoundingSet hdr p

/-! ### The other opcodes -/

/-- SOUNDING_CLEAR (R279). -/
def opSoundingClear (hdr : Hdr) (s : Byte) (td : W64) (h : Hub) : Hub :=
  h.icp 0x0701 hdr fun h =>
    let x := h.sounding s.toNat
    if !x.isArmed h.pt || x.td.isSome || h.measuring then h.badState 0x0701 hdr else
    match h.commitInstant (h.holders s.toNat) td.toNat with
    | none => h.badArg 0x0701 hdr 8
    | some t => (h.clearSounding s.toNat t).ok 0x0701 hdr (le 8 t ++ le 4 x.postSeq.toNat)

/-- SOUNDING_KEY (R276). -/
def opSoundingKey (hdr : Hdr) (key : List Byte) (h : Hub) : Hub :=
  h.icp 0x0702 hdr fun h =>
    { h with island.sessions := h.island.sessions.map fun (x : Session) =>
        if x.tag = hdr.session then { x with soundKey := fit 16 key } else x }.ok 0x0702 hdr []

/-- A session may read a sounding's results (R278). -/
def Sounding.readable (x : Sounding) (s : Session) : Bool :=
  match s.role with
  | .observer => x.observer == some s.partition
  | _ => true

/-- POST_SEQ of a result slot. -/
def slotSeq (b : List Byte) : Nat := leNat ((b.drop 4).take 4)

/-- SOUNDING_READ: slots from a POST_SEQ onward, at most MAX (R283). -/
def opSoundingRead (hdr : Hdr) (s max : Byte) (postSeq : W32) (h : Hub) : Hub :=
  h.icp 0x0703 hdr fun h =>
    match h.session hdr.session with
    | none => h.denied 0x0703 hdr
    | some x =>
      let y := h.sounding s.toNat
      if !y.readable x then h.denied 0x0703 hdr
      else h.ok 0x0703 hdr (((y.ring.filter fun b => decide (postSeq.toNat ≤ slotSeq b)).take max.toNat).flatten)

/-- A sounding's entry of SOUNDING_STATUS, which is also its four registers (Table 19-7). -/
def Sounding.statusBytes (x : Sounding) (pt : Nat) : List Byte :=
  le 1 (b2n (x.isArmed pt)) ++ [x.slot] ++ le 1 x.depth ++ [0] ++ le 4 x.postSeq.toNat ++ le 4 (sat32 x.coalesced) ++
    le 4 (sat32 x.overwritten)

/-- SOUNDING_STATUS (Table 16-5). -/
def opSoundingStatus (hdr : Hdr) (h : Hub) : Hub :=
  h.icp 0x0704 hdr fun h =>
    h.ok 0x0704 hdr ((List.range 256).flatMap fun s => (h.sounding s).statusBytes h.pt)

/-! ### Postings (R280 to R283) -/

/-- Words a selection requires (Table 11-7). -/
def wordsFor (stats : W16) : List Nat :=
  let counts := stats.getLsbD 0
  let exp := stats.getLsbD 1
  let scale := stats.getLsbD 2
  let ext := stats.getLsbD 3
  let sum := stats.getLsbD 4
  (List.range 16).filter fun w =>
    match w with
    | 0 => true
    | 1 => counts
    | 2 => counts || exp || sum
    | 3 => exp
    | 4 => exp
    | 5 => exp || scale
    | 6 => scale
    | 7 => scale
    | 8 => scale
    | 9 => sum
    | 10 => stats.getLsbD 5
    | 11 => ext
    | 12 => ext
    | 13 => ext || sum
    | _ => true

/-- Bay-cycles of a posting (R282). -/
def postingCost (stats : W16) : Nat :=
  ((wordsFor stats).map fun w => if wordOp w = 3 then 80 else 16).foldl (· + ·) 0

/-- The due posting whose words may be issued now: the latest posting instant up to 200 ns from now, Td being
the last one, and how many intervals it covers. A replay's run is posted before its sounding is cleared (R286). -/
def Sounding.due (x : Sounding) (pt : Nat) : Option (Nat × Nat × Bool) :=
  if !x.armed || x.posting.isSome then none else
  let reach := pt + 200
  let regular (t : Nat) : Nat := t / x.periodNs
  let usual := regular reach * x.periodNs
  let periodic := if x.lastPt < usual then some (usual, regular usual - regular x.lastPt, false) else none
  match x.postAt with
  | some t => if t ≤ reach then some (t, 1, false) else none
  | none =>
    match x.td with
    | some d => if d ≤ reach then some (d, regular (d - 1) - regular x.lastPt + 1, true) else periodic
    | none => periodic

/-- A combine slot is free for a posting's word. -/
def Hub.postingRoom (h : Hub) : Bool := h.collectRoom (.posting 0 0)

/-- Only agents with a slot of the sounding contribute, so a list scope goes to the chip. -/
def postScope (sc : Scope) : Scope := match sc with | .mask => .chip | s => s

/-- Issue words of a posting while slots are free, by fuel. -/
def Hub.issueWords (s : Nat) : Nat → Hub → Hub
  | 0, h => h
  | f + 1, h =>
    let x := h.sounding s
    match x.posting with
    | none => h
    | some p =>
      match p.todo with
      | [] => h
      | w :: rest =>
        if !h.postingRoom then h else
        let h := h.setSounding s { x with posting := some { p with todo := rest } }
        Hub.issueWords s f (h.collect (wordOp w) (0x1000 + 16 * s + w) (postScope x.scope) p.instant h.dcn.timeoutUs (.posting s w))

/-- Another sounding of the same home combiner has a due posting with an older PT_FROM. -/
def Hub.olderDue (h : Hub) (s : Nat) (x : Sounding) : Bool :=
  h.soundings.any fun y => y.1 != s && sameHome y.1 s && (y.2.due h.pt).isSome && decide (y.2.lastPt < x.lastPt)

/-- POSTING_INSTANT: a due posting is admitted within the budget and the free slots, oldest first; otherwise its
interval joins the next one (R282). -/
def opPostingInstant (sounding : Nat) (h : Hub) : Hub :=
  let x := h.sounding sounding
  match x.due h.pt with
  | none => h
  | some (t, n, isFinal) =>
    if h.fc.safe || !h.accepting || h.olderDue sounding x || !h.postingRoom || decide (11 * h.pt < h.soundBudget) then h else
    let p : Posting := { instant := t, fromPt := x.lastPt, periods := n, final := isFinal, todo := wordsFor x.stats }
    let h := { h with soundBudget := max h.soundBudget (11 * h.pt) + 10 * postingCost x.stats }
    (h.setSounding sounding { x with posting := some p }).issueWords sounding 16

/-- POSTING_EDGE: an in-scope agent moves the accumulators of the sounding's slots (R281). -/
def opPostingEdge (unit : UnitId) (sounding : Nat) (h : Hub) : Hub :=
  let x := h.sounding sounding
  let a := h.agent unit
  match x.posting with
  | none => h
  | some p =>
    if !a.powered || !a.replicaLoaded || decide (h.pt < p.instant) || !a.inScope unit (postScope x.scope) 5 then h
    else h.setAgent unit (a.postEdge sounding p.instant)

/-! ### Result slots (Table 11-8) -/

/-- Lane `i` of a word. -/
def lane (v : BitVec 320) (i : Nat) : Nat := v.toNat / 2 ^ (64 * i) % 2 ^ 64

/-- SUM_RANGE (R272): SUM_ELEMENTS times 2^(E + 1) is at least 2^170. -/
def sumRange (n maxAbs : Nat) : Bool :=
  let k : Int := (maxAbs / 2 ^ 52 % 2048 : Nat) - 1023 + 1
  if n = 0 then false else if 0 ≤ k then decide (2 ^ 170 ≤ n * 2 ^ k.toNat) else decide (2 ^ (170 + (-k).toNat) ≤ n)

/-- FLAGS of a result slot. -/
def Sounding.flags (x : Sounding) (p : Posting) (word : Nat → BitVec 320) (missing : Nat) : Nat :=
  let w0 := word 0
  let isOpen := decide (0 < lane w0 2)
  let half := x.format == 1 && statSum x.stats
  let tag0 := (word 14).toNat % 2 ^ 64
  let tag1 := (word 15).toNat % 2 ^ 64
  b2n (p.final && isOpen) + 2 * b2n isOpen + 4 * b2n (half && !x.ctrl.getLsbD 2) + 8 * b2n (half && x.ctrl.getLsbD 2) +
    16 * b2n (decide (1 < p.periods)) + 32 * b2n (decide (0 < missing)) +
    64 * b2n (tag0 == tag1 && (decide (0 < lane w0 1) || isOpen)) + 128 * b2n (x.ctrl.getLsbD 3) +
    256 * b2n (x.ctrl.getLsbD 4) + 512 * b2n (decide (0 < lane (word 2) 1)) + 1024 * b2n x.unitLost +
    2048 * b2n (decide (0 < lane w0 4)) + 4096 * b2n (statSum x.stats && sumRange (lane w0 3) ((word 13).toNat % 2 ^ 64))

/-- A result slot's 512 octets. -/
def Sounding.slotBytes (x : Sounding) (s : Nat) (p : Posting) : List Byte :=
  let word (w : Nat) : BitVec 320 := ((mapFind p.words w).map fun r => r.value).getD 0
  let missing := maxOf (p.words.map fun r => r.2.missing)
  let agents := ((mapFind p.words 0).map fun r => r.count).getD 0
  let b := le 1 s ++ [x.format] ++ le 2 (x.flags p word missing) ++ le 4 (x.postSeq.toNat + 1) ++ le 8 p.fromPt ++
    le 8 p.instant ++ le 2 x.stats.toNat ++ le 2 (sat16 p.periods) ++ le 2 agents ++ le 2 missing ++
    le 4 (word 14).toNat ++ le 4 (word 15).toNat ++
    ((List.range 9).flatMap fun w => le 40 (word w).toNat) ++ le 40 (word 9).toNat ++
    ((List.range 4).flatMap fun k => le 8 (word (10 + k)).toNat) ++ zeros 36
  b ++ le 4 (crc32c b).toNat

/-- Free the slots of a sounding whose final posting is written, and forget what the collectors mirror of it, also for
units that were off when it was cleared. -/
def Hub.freeSlots (h : Hub) (s : Nat) : Hub :=
  { h with agents := h.agents.map fun (p : Nat × Agent) =>
      (p.1, { p.2 with taps := p.2.taps.filter fun t => t.2.sounding != s || t.2.ctrl.getLsbD 0 }) }.allCollectors
    fun (c : Collector) => { c with taps := c.taps.filter fun t => t.2.sounding != s }

/-- The posting buffers of a posting fully collected are free again (Table 11-6). -/
def Hub.freeBuffers (h : Hub) (s : Nat) : Hub :=
  { h with agents := h.agents.map fun (p : Nat × Agent) =>
      (p.1, { p.2 with taps := p.2.taps.map fun (t : Nat × TapSlot) =>
        if t.2.sounding = s then (t.1, { t.2 with buffer := none }) else t }) }

/-- A posting whose words are all in goes into the next slot of the ring. -/
def Hub.writePosting (h : Hub) (s : Nat) (x : Sounding) (p : Posting) : Hub :=
  let ring := x.ring ++ [x.slotBytes s p]
  let spills := decide (x.depth < ring.length)
  let x := { x with ring := if spills then ring.drop 1 else ring, overwritten := x.overwritten + b2n spills,
                    coalesced := x.coalesced + (p.periods - 1), postSeq := x.postSeq + 1, lastPt := p.instant,
                    unitLost := false, posting := none, postAt := if p.final then x.postAt else x.postAt.filter fun t => t != p.instant,
                    armed := !p.final }
  let h := (h.freeBuffers s).setSounding s x
  if p.final then h.freeSlots s else h

/-! ### Meanings -/

def execSoundingSet (h : Hdr) (p : SoundingSpec) (st : State) : Host.Outcome State Fault Refusal :=
  .next { st with hub := opSoundingSet h p st.hub }
def execSoundingClear (h : Hdr) (s : Byte) (td : W64) (st : State) : Host.Outcome State Fault Refusal :=
  .next { st with hub := opSoundingClear h s td st.hub }
def execSoundingKey (h : Hdr) (key : List Byte) (st : State) : Host.Outcome State Fault Refusal :=
  .next { st with hub := opSoundingKey h key st.hub }
def execSoundingRead (h : Hdr) (s max : Byte) (postSeq : W32) (st : State) : Host.Outcome State Fault Refusal :=
  .next { st with hub := opSoundingRead h s max postSeq st.hub }
def execSoundingStatus (h : Hdr) (st : State) : Host.Outcome State Fault Refusal :=
  .next { st with hub := opSoundingStatus h st.hub }
def execPostingInstant (sounding : Nat) (st : State) : Host.Outcome State Fault Refusal :=
  .next { st with hub := opPostingInstant sounding st.hub }
def execPostingEdge (unit : UnitId) (sounding : Nat) (st : State) : Host.Outcome State Fault Refusal :=
  .next { st with hub := opPostingEdge unit sounding st.hub }

end Sys2Proof.Machine
end

