-- ==== Sys2Proof/Machine/Probe.lean ====
section
/-! DEFINITION. The probe engine (R291 to R306): program checks, evaluation, loads, actions, and the group
0x08xx. -/

namespace Sys2Proof.Machine

/-! ### Slots and registers -/

def Probe.slot (p : Probe) (n : Nat) : ProbeSlot := mapGet {} p.slots n
def Hub.modProbe (h : Hub) (n : Nat) (f : ProbeSlot → ProbeSlot) : Hub :=
  { h with probe.slots := mapMod {} h.probe.slots n f }

def ProbeSlot.reg (s : ProbeSlot) (i : Nat) : W64 := mapGet 0 s.regs (i % 16)
def ProbeSlot.setReg (s : ProbeSlot) (i : Nat) (v : W64) : ProbeSlot := { s with regs := mapSet 0 s.regs (i % 16) v }

/-- STATE codes (Table 12-7). -/
def probeCode (s : ProbeSt) : Nat :=
  match s with
  | .empty => 0
  | .loaded => 1
  | .running => 2
  | .evaluating => 3
  | .waiting => 4
  | .stopped => 5

/-- The 40 octets of Table 12-7. -/
def ProbeSlot.bytes (s : ProbeSlot) : List Byte :=
  le 4 (s.program.length * 2 ^ 23 + s.pc % 256 * 256 + s.error % 16 * 16 + probeCode s.state) ++ le 4 s.periodUs ++
    le 8 s.next ++ le 4 (sat32 s.evals) ++ le 4 (sat32 s.skippedN) ++ le 4 (sat32 s.acts) ++
    le 4 (sat16 s.dropped + sat16 s.denied * 0x10000) ++ le 4 (sat32 s.lag) ++ le 4 (sat32 s.partialLoads)

/-! ### Encoding and checks (R292, R298, R299) -/

def opOf (w : W32) : Nat := bits w.toNat 31 26
def rdOf (w : W32) : Nat := bits w.toNat 25 22
def raOf (w : W32) : Nat := bits w.toNat 21 18
def rbOf (w : W32) : Nat := bits w.toNat 17 14
def imm14 (w : W32) : Nat := bits w.toNat 13 0
/-- IMM14 of format I lies in the R format's field [13:0]; bits [17:14] belong to it and must be zero. -/
def immRest (w : W32) : Nat := bits w.toNat 17 14
def imm22 (w : W32) : Nat := bits w.toNat 21 0
/-- Format B: RA and RB lie one field to the left. -/
def brA (w : W32) : Nat := rdOf w
def brB (w : W32) : Nat := raOf w
def brCond (w : W32) : Nat := rbOf w
def brTarget (w : W32) : Nat := bits w.toNat 7 0
/-- Format A. -/
def actOf (w : W32) : Nat := rdOf w
def actArg (w : W32) : BitVec 14 := w.setWidth 14

/-- ARG of an action is as Table 12-5 allows: MODE below 3 for FREEZE, zero where it is not used. -/
def argGood (w : W32) : Bool :=
  match actOf w with
  | 0 => decide (imm14 w < 3) && raOf w == 0
  | 1 | 2 | 4 => imm14 w == 0
  | 3 | 5 => imm14 w == 0 && raOf w == 0
  | _ => false

/-- One instruction passes R292's checks in a program of `n`. -/
def probeWordGood (n : Nat) (w : W32) : Bool :=
  let op := opOf w
  if op = 0 then w == 0
  else if op = 1 ∨ op = 2 then true
  else if 4 ≤ op ∧ op ≤ 14 then imm14 w == 0
  else if 16 ≤ op ∧ op ≤ 18 then immRest w == 0
  else if op = 19 ∨ op = 20 then immRest w == 0 && decide (imm14 w < 64)
  else if op = 24 then decide (brCond w < 7) && bits w.toNat 13 8 == 0 && decide (brTarget w < n)
  else if op = 25 then rdOf w == 0 && immRest w == 0 && imm14 w == 0
  else if op = 32 then raOf w == 0 && immRest w == 0 && imm14 w == 0
  else if op = 33 then immRest w == 0 && decide (imm14 w < 12)
  else if op = 34 then immRest w == 0 && decide (imm14 w < 64)
  else if op = 35 then immRest w == 0 && imm14 w == 0
  else if op = 36 then raOf w == 0 && immRest w == 0 && decide (imm14 w < 11)
  else if op = 40 then rbOf w == 0 && argGood w
  else false

/-- END or an unconditional branch. -/
def probeWordEnds (w : W32) : Bool := w == 0 || (opOf w == 24 && brCond w == 0)

/-- ACT STOP. -/
def probeWordStops (w : W32) : Bool := opOf w == 40 && actOf w == 5

/-- The first failing index of a program. -/
def programFault (ws : List W32) : Option Nat :=
  match (List.range ws.length).find? fun i => !probeWordGood ws.length (ws.getD i 0) with
  | some i => some i
  | none => if probeWordEnds (ws.getLastD 1) then none else some (ws.length - 1)

/-! ### Loads (R300 to R302) -/

/-- A value in RD, and whether the load counts as not fully performed. -/
def Hub.loaded (h : Hub) (n rd : Nat) (v : W64) (short : Bool) : Hub :=
  h.modProbe n fun s => { s.setReg rd v with partialLoads := s.partialLoads + b2n short }

/-- LDC of an AO array or bank entry. -/
def Hub.loadArray (h : Hub) (ra : W64) (sel : Nat) : Option Nat :=
  let o := bits ra.toNat 11 0
  if 896 ≤ o then none else
  let u := unitOf (bits ra.toNat 12 12 * 978 + o)
  some (if sel / 4 = 0 then (h.arrayTotals u).get (sel % 4) else (h.bankEntry u).totals.get (sel % 4))

/-- LDSN: the slot latched in this evaluation, or the newest one, which it latches. -/
def Hub.loadSounding (h : Hub) (n s k : Nat) : W64 × Hub :=
  let b := match mapFind (h.probe.slot n).latched s with
    | some b => b
    | none => (h.sounding s).ring.getLastD []
  (BitVec.ofNat 64 (leNat ((b.drop (8 * k)).take 8)), h.modProbe n fun x => { x with latched := mapInsert x.latched s b })

/-- LDIN (Table 12-4). -/
def Hub.probeInput (h : Hub) (n sel : Nat) : Nat :=
  match sel with
  | 0 => h.trig.inCount.toNat
  | 1 => h.trig.inPt
  | 2 => b2n h.stops.declared
  | 3 => ((h.stops.log.getLast?).map fun e => e.hangId.toNat).getD 0
  | 4 => sat32 ((h.probe.slot n).evals - 1)
  | 5 => (h.probe.slot n).instant
  | 6 => h.stops.stopId.toNat
  | 7 => h.arrays.freezeId.toNat
  | 8 => b2n h.unsighted
  | 9 => h.lcNat
  | _ => h.ident.retiredGen.toNat

/-! ### Evaluation (R294) -/

/-- ALU operations of format R. -/
def aluR (op : Nat) (a b : W64) : W64 :=
  let k := b.toNat % 64
  match op with
  | 4 => a + b
  | 5 => a - b
  | 6 => a &&& b
  | 7 => a ||| b
  | 8 => a ^^^ b
  | 9 => a <<< k
  | 10 => a >>> k
  | 11 => a.sshiftRight k
  | 12 => a * b
  | 13 => if b.toNat < a.toNat then b else a
  | _ => if a.toNat < b.toNat then b else a

/-- ALU operations of format I. -/
def aluI (op : Nat) (a : W64) (w : W32) : W64 :=
  let z : W64 := (w.setWidth 14 : BitVec 14).setWidth 64
  match op with
  | 16 => a + (w.setWidth 14 : BitVec 14).signExtend 64
  | 17 => a &&& z
  | 18 => a ||| z
  | 19 => a <<< (imm14 w % 64)
  | _ => a >>> (imm14 w % 64)

/-- COND. -/
def condHolds (c : Nat) (a b : W64) : Bool :=
  match c with
  | 0 => true
  | 1 => a == b
  | 2 => a != b
  | 3 => decide (a.toNat < b.toNat)
  | 4 => decide (b.toNat ≤ a.toNat)
  | 5 => decide (a.toInt < b.toInt)
  | _ => decide (b.toInt ≤ a.toInt)

/-- The aggregate load: its COLLECT, for which the evaluation waits; zero at once where it cannot be performed. -/
def Hub.loadAggregate (h : Hub) (n rd q : Nat) : Bool × Hub :=
  match (if q < 0x0100 ∨ 0x04FF < q then none else quantityOp q) with
  | none => (true, h.loaded n rd 0 true)
  | some op =>
    if !h.collectRoom (.probe n) then (true, h.loaded n rd 0 true) else
    let h := h.powerDomains [4, 5]
    (false, (h.modProbe n fun s => { s with waitReg := some rd }).collect op q .chip (h.issueAt 5 + 200) 1 (.probe n))

/-- ACT: the action enters the queue of 8 (R303). -/
def Hub.queueAct (h : Hub) (n : Nat) (w : W32) (v : W64) : Hub :=
  if 8 ≤ h.probe.queue.length then h.modProbe n fun s => { s with dropped := s.dropped + 1 }
  else
    let a : ProbeAct := { slot := n, action := actOf w, value := v.setWidth 32, arg := actArg w, actPt := h.pt }
    { h with probe.queue := h.probe.queue ++ [a] }

/-- Execute one instruction: the next index, or none where the evaluation ends or waits. -/
def Hub.probeWord (h : Hub) (n : Nat) (w : W32) : Option Nat × Hub :=
  let s := h.probe.slot n
  let op := opOf w
  let pc := s.pc + 1
  let a := s.reg (raOf w)
  let set (v : W64) : Option Nat × Hub := (some pc, h.modProbe n fun x => x.setReg (rdOf w) v)
  if op = 0 then (none, h.modProbe n fun x => { x with state := .running })
  else if op = 1 then set ((w.setWidth 22 : BitVec 22).signExtend 64)
  else if op = 2 then set ((s.reg (rdOf w) <<< 22) ||| (w.setWidth 22 : BitVec 22).setWidth 64)
  else if op < 15 then set (aluR op a (s.reg (rbOf w)))
  else if op < 21 then set (aluI op a w)
  else if op = 24 then (some (if condHolds (brCond w) (s.reg (brA w)) (s.reg (brB w)) then brTarget w else pc), h)
  else if op = 25 then
    if a.toNat ≤ h.pt then (some pc, h)
    else (none, h.modProbe n fun x => { x with state := .waiting, waitPt := some a.toNat })
  else if op = 32 then set (BitVec.ofNat 64 h.pt)
  else if op = 33 then
    if imm14 w / 4 = 2 then
      let r := h.loadAggregate n (rdOf w) (bits a.toNat 15 0)
      (if r.1 then some pc else none, r.2)
    else match h.loadArray a (imm14 w) with
      | some v => (some pc, h.loaded n (rdOf w) (BitVec.ofNat 64 v) false)
      | none => (some pc, h.loaded n (rdOf w) 0 true)
  else if op = 34 then
    let r := h.loadSounding n (bits a.toNat 7 0) (imm14 w)
    (some pc, r.2.loaded n (rdOf w) r.1 false)
  else if op = 35 then set (BitVec.ofNat 64 (h.fc.source (bits a.toNat 11 0)).count)
  else if op = 36 then set (BitVec.ofNat 64 (h.probeInput n (imm14 w)))
  else (some pc, h.queueAct n w a)

/-- The probe fault source of a slot (Table 13-1). -/
def probeSource (n : Nat) : Nat := 0xFCB + n % 8

/-- Overrun: ERROR 1, the slot stops, and one event of its source (Table 12-6). -/
def Hub.probeOverrun (h : Hub) (n : Nat) : Hub :=
  (h.modProbe n fun s => { s with state := .stopped, error := 1 }).raise (probeSource n) 0 0xFFFFFFFF

/-- Execute from index `pc` on, by fuel. -/
def Hub.probeFrom (n : Nat) : Nat → Nat → Hub → Hub
  | 0, _, h => h.probeOverrun n
  | f + 1, pc, h =>
    let s := h.probe.slot n
    if 4096 ≤ s.executed then h.probeOverrun n else
    let w := s.program.getD pc 0
    let h := h.modProbe n fun s => { s with pc := pc, executed := s.executed + 1 }
    match h.probeWord n w with
    | (none, h) => h
    | (some next, h) => Hub.probeFrom n f next h

/-- Another slot executes now: the engine is not free. -/
def Hub.engineBusy (h : Hub) : Bool := h.probe.slots.any fun s => s.2.state == .evaluating

/-- A slot's instant has come. -/
def ProbeSlot.dueNow (s : ProbeSlot) (pt : Nat) : Bool := s.state.active && decide (s.next ≤ pt)

/-- PROBE_EVALUATION: at an instant a due slot's program runs from index 0, the lowest slot first; a slot that is
still Evaluating or Waiting skips the instant (R294, R296). -/
def opProbeEvaluation (slot : Nat) (h : Hub) : Hub :=
  let s := h.probe.slot slot
  let step (x : ProbeSlot) : ProbeSlot := { x with next := x.after.getD (x.next + 1000 * x.periodUs), after := none }
  if !s.dueNow h.pt || s.stopping || !h.domainOn 14 then h
  else if s.state ≠ .running then h.modProbe slot fun x => { step x with skippedN := x.skippedN + 1 }
  else if h.engineBusy || (List.range slot).any fun k => (h.probe.slot k).state == .running && (h.probe.slot k).dueNow h.pt then h
  else
    let start (x : ProbeSlot) : ProbeSlot :=
      { step x with state := .evaluating, instant := x.next, evals := x.evals + 1, lag := max x.lag (h.pt - x.next),
                    executed := 0, latched := [], waitPt := none, waitReg := none }
    (h.modProbe slot start).probeFrom slot 4097 0

/-- WAITPT_RESUME (R295). -/
def opWaitptResume (slot : Nat) (h : Hub) : Hub :=
  let s := h.probe.slot slot
  match s.state, s.waitPt with
  | .waiting, some t =>
    if h.pt < t || h.engineBusy then h
    else (h.modProbe slot fun x => { x with state := .evaluating, waitPt := none }).probeFrom slot 4097 (s.pc + 1)
  | _, _ => h

/-- The result of an aggregate load: the evaluation goes on, or ends here where PROBE_STOP waits for the boundary. -/
def Hub.probeLoaded (h : Hub) (n : Nat) (r : Reduced) : Hub :=
  let s := h.probe.slot n
  match s.state, s.waitReg with
  | .evaluating, some rd =>
    let h := (h.modProbe n fun x => { x with waitReg := none }).loaded n rd (r.value.setWidth 64) (decide (0 < r.missing) || r.wrap)
    if s.stopping then h.modProbe n fun x => { x with state := .loaded, stopping := false } else h.probeFrom n 4097 (s.pc + 1)
  | _, _ => h

/-- PROBE_TIMER: 20 us before an instant, domain 14 powers on with what the loads need (R297). -/
def opProbeTimer (slot : Nat) (h : Hub) : Hub :=
  let s := h.probe.slot slot
  if s.state ≠ .running || decide (h.pt + 20000 < s.next) then h
  else h.powerDomains (programDomains s.program ++ [14])

/-! ### Actions (R303, R304) -/

/-- SNAPSHOT: both arrays copy every entry under a new FREEZE_ID. -/
def Hub.probeSnapshot (h : Hub) (instant : Nat) : Hub :=
  let id := h.arrays.freezeId + 1
  let f : FreezeRun := { instant := instant, freezeId := id, mode := 0, scope := .chip, units := [] }
  let entry (b : BankEntry) (u : UnitId) : BankEntry :=
    let x := b.provisional f (h.arrayTotals u)
    if x.freezeId = id ∧ x.state = 1 then
      { x with quality := if h.presence u == 1 || h.presence u == 2 then 1 else 3 } else x
  let bank := lightUnits.foldl (fun (m : SMap BankEntry) u => mapMod {} m (ordinalOf u) fun b => entry b u) h.arrays.bank
  { h with arrays := { h.arrays with bank := bank, freezeId := id } }

/-- FREEZE of a probe: F is 200 ns from the broadcast, and it is confirmed without a reply. -/
def Hub.probeFreeze (h : Hub) (mode : Nat) : Hub :=
  let h := h.wakeWork
  h.issueFreeze (h.issueAt 1 + 200) mode .chip [] true

/-- PT from which an action's lead of 1 us counts: its ACT PT; after a failover, the grant that let the new active controller
perform it (Tables 12-5 and 12-6, log entry 160). -/
def Hub.actFrom (h : Hub) (a : ProbeAct) : Nat :=
  if a.actPt < h.red.grantPt then (if a.action = 3 then h.red.grantPt else h.pt) else a.actPt

/-- The action at the head of the queue is performed. -/
def Hub.performAct (h : Hub) (a : ProbeAct) : Hub :=
  let prog : BitVec 3 := BitVec.ofNat 3 a.slot
  let collectors := h.domainOn 6 && h.domainOn 7
  let done (h : Hub) : Hub := h.modProbe a.slot fun s => { s with acts := s.acts + 1 }
  match a.action with
  | 0 => done (h.probeFreeze (a.arg.toNat % 4))
  | 1 => if collectors then done (h.mark (h.actFrom a + 1000) a.value 1 prog false) else done (h.powerDomains [18, 19, 20, 6, 7])
  | 2 => if collectors then done (h.triggerOrMark (h.actFrom a + 1000) a.value 1 prog) else done (h.powerDomains [18, 19, 20, 6, 7])
  | 3 => done (h.probeSnapshot (h.actFrom a + 1000))
  | 4 => done (h.raise (probeSource a.slot) 0 a.value.toNat)
  | _ =>
    if h.inBlankOrTest then done (h.wakeWork.stopWithoutReply 0)
    else h.modProbe a.slot fun s => { s with denied := s.denied + 1 }

/-- A controller holds the claim in force, awake or asleep; none does during a failover (Table 12-6). -/
def Hub.claimHeld (h : Hub) : Bool :=
  h.red.granted && (h.red.ctrl h.red.holder).role == .active && !(h.red.ctrl h.red.holder).withdrawing

/-- Whether the head of the queue can be performed now: by the controller that holds the claim; FREEZE and STOP need its
synchronized set too, SNAPSHOT its instant. -/
def Hub.actReady (h : Hub) (a : ProbeAct) : Bool :=
  h.claimHeld &&
    match a.action with
    | 0 => h.accepting
    | 5 => h.accepting || !h.inBlankOrTest
    | 3 => decide (h.actFrom a + 1000 ≤ h.pt)
    | _ => true

/-- PROBE_ACTION (R303). -/
def opProbeAction (h : Hub) : Hub :=
  match h.probe.queue with
  | [] => h
  | a :: rest => if h.fc.safe || !h.actReady a then h else { h with probe.queue := rest }.performAct a

/-! ### Group 0x08xx -/

def opProbeLoad (hdr : Hdr) (slot : Byte) (words : List W32) (h : Hub) : Hub :=
  h.icp 0x0800 hdr fun h =>
    let n := slot.toNat
    if 7 < n then h.badArg 0x0800 hdr 0
    else if (h.probe.slot n).state.active then h.badState 0x0800 hdr
    else if words.isEmpty ∨ 256 < words.length then h.badArg 0x0800 hdr 2
    else
      match programFault words with
      | some i => h.answer 0x0800 hdr .badArg (badArgBody (4 + 4 * i) i)
      | none =>
        if !h.inBlankOrTest && words.any probeWordStops then h.denied 0x0800 hdr
        else ((h.powerDomain 14).modProbe n fun s => { s with program := words, regs := [], state := .loaded, error := 0 }).ok 0x0800 hdr []

/-- The first instant of PROBE_START (R293). -/
def probeFirst (pt s : Nat) : Option Nat :=
  if s = 0 then some ((pt + 1000 + 999) / 1000 * 1000)
  else if pt + 1000 ≤ s ∧ s ≤ pt + 1000000000 then some s else none

def opProbeStart (hdr : Hdr) (slot : Byte) (p : W32) (s : W64) (h : Hub) : Hub :=
  h.icp 0x0801 hdr fun h =>
    let n := slot.toNat
    let x := h.probe.slot n
    if 7 < n then h.badArg 0x0801 hdr 0
    else if x.state = .empty || x.state.active || h.measuring then h.badState 0x0801 hdr
    else if p = 0 then h.badArg 0x0801 hdr 4
    else
      match probeFirst h.pt s.toNat with
      | none => h.badArg 0x0801 hdr 8
      | some t =>
        let h := h.powerDomain 14
        (h.modProbe n fun x => { x with state := .running, error := 0, stopping := false, periodUs := p.toNat, next := t, after := none }).ok 0x0801 hdr (le 8 t)

/-- PROBE_STOP: the evaluation ends at the next instruction boundary, which for an aggregate load is its result, and the
slot's queued actions are discarded (R293). -/
def opProbeStop (hdr : Hdr) (slot : Byte) (h : Hub) : Hub :=
  h.icp 0x0802 hdr fun h =>
    let n := slot.toNat
    if 7 < n then h.badArg 0x0802 hdr 0
    else
      let stop (x : ProbeSlot) : ProbeSlot :=
        if x.state = .empty then x
        else if x.state = .evaluating && x.waitReg.isSome then { x with stopping := true }
        else { x with state := .loaded, error := 0, waitPt := none }
      ({ h with probe.queue := h.probe.queue.filter fun a => a.slot != n }.modProbe n stop).ok 0x0802 hdr []

def opProbeStatus (hdr : Hdr) (slot : Byte) (h : Hub) : Hub :=
  h.icp 0x0803 hdr fun h =>
    let n := slot.toNat
    if 7 < n then h.badArg 0x0803 hdr 0
    else
      let x := h.probe.slot n
      h.ok 0x0803 hdr (x.bytes ++ ((List.range 16).flatMap fun i => le 8 (x.reg i).toNat) ++ le 1 h.probe.queue.length)

/-! ### Meanings -/

def execProbeLoad (h : Hdr) (slot : Byte) (words : List W32) (st : State) : Host.Outcome State Fault Refusal :=
  .next { st with hub := opProbeLoad h slot words st.hub }
def execProbeStart (h : Hdr) (slot : Byte) (p : W32) (s : W64) (st : State) : Host.Outcome State Fault Refusal :=
  .next { st with hub := opProbeStart h slot p s st.hub }
def execProbeStop (h : Hdr) (slot : Byte) (st : State) : Host.Outcome State Fault Refusal :=
  .next { st with hub := opProbeStop h slot st.hub }
def execProbeStatus (h : Hdr) (slot : Byte) (st : State) : Host.Outcome State Fault Refusal :=
  .next { st with hub := opProbeStatus h slot st.hub }
def execProbeEvaluation (slot : Nat) (st : State) : Host.Outcome State Fault Refusal :=
  .next { st with hub := opProbeEvaluation slot st.hub }
def execWaitptResume (slot : Nat) (st : State) : Host.Outcome State Fault Refusal :=
  .next { st with hub := opWaitptResume slot st.hub }
def execProbeTimer (slot : Nat) (st : State) : Host.Outcome State Fault Refusal :=
  .next { st with hub := opProbeTimer slot st.hub }
def execProbeAction (st : State) : Host.Outcome State Fault Refusal :=
  .next { st with hub := opProbeAction st.hub }

end Sys2Proof.Machine
end

