-- ==== Sys2Proof/Machine/Session.lean ====
section
/-! DEFINITION. Commands of the groups session and identity (0x00xx), life cycle (0x0Cxx) and firmware
(0x0Dxx): sessions and their keys (R394 to R402), the life-cycle vote, its transitions and side work (R384 to
R393), and the firmware image (R416 to R418). -/

namespace Sys2Proof.Machine

/-! ### Firmware image (R416) -/

/-- The image in force. -/
def Hub.image (h : Hub) : List Byte := h.power.image.getD (Config.factoryImage ())

/-- VERSION of an image (Table 18-5). -/
def imageVersion (b : List Byte) : Nat := leNat ((b.drop 12).take 4)

def Hub.fwVersion (h : Hub) : Nat := imageVersion h.image

/-- The public key and the signature in a 208-octet trailer (Table 14-3). -/
def trailerKey (t : List Byte) : List Byte := (t.drop 8).take 97
def trailerSignature (t : List Byte) : List Byte := (t.drop 112).take 96

/-- The structure of a firmware image (R416, Table 18-5). -/
def firmwareSound (b : List Byte) : Bool :=
  let t := b.drop (b.length - 208)
  decide (272 ≤ b.length) && decide (b.length ≤ 0x400000) && b.length % 64 == 0 &&
    b.take 8 == ascii "IXYFIRM1" && leNat ((b.drop 8).take 2) == 1 &&
    (b.getD 10 0 == 0x09 || b.getD 10 0 == 0xFF) && b.getD 11 0 == 0 &&
    leNat ((b.drop 16).take 4) == b.length && (b.drop 20).take 44 == zeros 44 &&
    t.take 8 == ascii "IXYFSIG1" && (t.drop 105).take 7 == zeros 7

/-- 48 octets of a ROM constant. -/
def romHash (f : Nat → Byte) : List Byte := (List.range 48).map f

/-- The loader's checks of R417: structure, key hash, signature. -/
def firmwarePasses (b : List Byte) : Bool :=
  let t := b.drop (b.length - 208)
  firmwareSound b && sha384 (trailerKey t) == romHash Config.firmwareKeyHash &&
    ecdsaVerify (trailerKey t) (b.take (b.length - 96)) (trailerSignature t)

/-! ### DRBG (R395) -/

/-- `n` octets from the entropy source. -/
def Island.entropy (i : Island) (n : Nat) : List Byte × Island :=
  ((List.range n).map fun k => Config.entropyByte (i.entropyDraws + k), { i with entropyDraws := i.entropyDraws + n })

/-- Instantiate the DRBG from the entropy source: 32 octets of entropy input and a 16-octet nonce. -/
def Island.instantiate (i : Island) : Island :=
  let e := i.entropy 48
  let kv := drbgSeed e.1
  { e.2 with drbg := some { k := kv.1, v := kv.2, requests := 0 } }

/-- Draw octets; after every 65,536 requests the DRBG is reseeded. -/
def Island.draw (i : Island) (n : Nat) : Option (List Byte × Island) :=
  match i.drbg with
  | none => none
  | some d =>
    let r := drbgDraw (d.k, d.v) n
    let i := { i with drbg := some { k := r.2.1, v := r.2.2, requests := d.requests + 1 } }
    if d.requests + 1 < 65536 then some (r.1, i)
    else
      let e := i.entropy 32
      let kv := drbgUpdate r.2 e.1
      some (r.1, { e.2 with drbg := some { k := kv.1, v := kv.2, requests := 0 } })

/-! ### Session keys and message (R395, R397) -/

/-- The 48-octet HMAC key of a role, where the role's key exists under Table 17-5. -/
def Hub.roleKey (h : Hub) (role : Role) (partition : Byte) : Option (List Byte) :=
  let o := h.island.otp
  match h.island.decoded with
  | none => none
  | some .endOfLife => none
  | some l =>
    match role with
    | .vendor => if l = .blank then some (romHash Config.manufacturingHash)
                 else if o.vendor.valid then some o.vendor.hash else none
    | .operator => if o.operator.valid then some o.operator.hash else none
    | .observer => if o.observer.valid then some (hmac384 o.observer.hash (ascii "IXYOBSP1" ++ [partition])) else none

/-- The Chip ID, or 0 while Assigned is 0. -/
def Hub.shownChip (h : Hub) : Nat := if h.ident.assigned then h.ident.chipId.toNat else 0

/-- The session message M (Table 17-6). -/
def Hub.sessionMessage (h : Hub) (c : Challenge) : List Byte :=
  ascii "IXYSESS1" ++ fit 48 c.bytes ++ [c.role, c.partition] ++ le 2 h.shownChip ++
    [BitVec.ofNat 8 h.lcNat, 0x09, 0, 0]

/-- A RESPONSE that R397 accepts, whatever the session limits. -/
def Hub.responseGood (h : Hub) (role partition : Byte) (response : List Byte) : Bool :=
  match h.island.challenge, roleOf role.toNat with
  | some c, some r =>
    c.role == role && c.partition == partition && decide (h.pt < c.pt + 1000000000) &&
      (match h.roleKey r partition with
       | some k => hmac384 k (h.sessionMessage c) == response
       | none => false)
  | _, _ => false

/-- A non-zero tag that differs from every open one, drawn from the DRBG by fuel (R399). -/
def drawTag : Nat → List W32 → Island → Option (W32 × Island)
  | 0, _, _ => none
  | f + 1, used, i =>
    match i.draw 4 with
    | none => none
    | some (b, i) =>
      let t := BitVec.ofNat 32 (leNat b)
      if t = 0 ∨ used.contains t then drawTag f used i else some (t, i)

/-- The identity public key; empty where none exists. -/
def Hub.identityKey (h : Hub) : List Byte :=
  match h.island.otp.identityScalar with
  | some d => publicKey d
  | none => []

/-- Attestation octets 0 to 127 (Table 17-7). -/
def Hub.attestationHead (h : Hub) (role partition : Byte) (tag : W32) : List Byte :=
  let unatt := h.island.decoded == some .blank || h.identityKey.isEmpty
  ascii "IXYATTS1" ++ [BitVec.ofNat 8 h.lcNat, 0x09] ++ le 2 h.shownChip ++ [role, partition] ++
    le 1 (b2n unatt + 2 * b2n h.island.certificate.isSome + 4 * b2n h.ident.assigned) ++ [0] ++ le 4 tag.toNat ++
    (match h.island.certificate with | some c => (c.drop 12).take 4 | none => zeros 4) ++ le 8 h.pt ++
    fit 48 h.power.verified ++ (if unatt then zeros 48 else sha384 h.identityKey)

/-- The attestation (Table 17-7), signed over M and octets 0 to 127; UNATTESTED in Blank or without an
identity key. -/
def Hub.attestation (h : Hub) (c : Challenge) (tag : W32) : List Byte :=
  let head := h.attestationHead c.role c.partition tag
  match h.island.otp.identityScalar with
  | some d =>
    if h.island.decoded = some .blank then head ++ zeros 96
    else head ++ ecdsaSign d (Config.signNonce h.island.signs) (h.sessionMessage c ++ head)
  | none => head ++ zeros 96

/-- A failed SESSION_OPEN (R398). -/
def Hub.openFailed (h : Hub) : Hub :=
  let n := sat8 (h.island.failCount + 1)
  let hold := if 4 ≤ n then h.pt + 1000000000 * min 256 (2 ^ (n - 4)) else h.island.holdPt
  { h with island := { h.island with failCount := n, holdPt := hold } }

/-! ### Group 0x00xx -/

def opIdentify (hdr : Hdr) (h : Hub) : Hub :=
  h.icp 0x0000 hdr fun h => h.ok 0x0000 hdr
    ([] |> put 1 0x09 |> put 1 h.lcNat |> put 2 h.ident.chipId.toNat |> put 4 h.fwVersion |> put 4 h.hubState)

/-- SESSION_CHALLENGE (R395, R396, R398). -/
def opSessionChallenge (hdr : Hdr) (role partition : Byte) (h : Hub) : Hub :=
  h.icp 0x0001 hdr fun h =>
    if (roleOf role.toNat).isNone then h.badArg 0x0001 hdr 0
    else if (if role = 1 then 63 else 0) < partition.toNat then h.badArg 0x0001 hdr 1
    else if h.pt < h.island.holdPt then h.denied 0x0001 hdr
    else if h.island.entropyFail then h.badState 0x0001 hdr
    else
      match h.island.draw 48 with
      | none => h.badState 0x0001 hdr
      | some (b, i) =>
        let c : Challenge := { bytes := b, role := role, partition := partition, pt := h.pt }
        { h with island := { i with challenge := some c } }.ok 0x0001 hdr b

/-- SESSION_OPEN (R397 to R399). -/
def opSessionOpen (hdr : Hdr) (role partition : Byte) (response : List Byte) (h : Hub) : Hub :=
  h.icp 0x0002 hdr fun h =>
    let used := { h with island.challenge := none }
    if !h.responseGood role partition response then used.openFailed.denied 0x0002 hdr
    else
      match h.island.challenge, roleOf role.toNat with
      | some c, some r =>
        if 4 ≤ h.island.sessions.length ∨ (r = .vendor ∧ h.island.sessions.any fun s => s.role == .vendor) then
          used.badState 0x0002 hdr
        else
          match drawTag 16 (h.island.sessions.map (·.tag)) h.island with
          | none => used.badState 0x0002 hdr
          | some (tag, i) =>
            let s : Session := { tag := tag, role := r, partition := partition.setWidth 6, transport := h.transport,
                                 soundKey := zeros 16, lastPt := h.pt }
            let att := h.attestation c tag
            let i := { i with challenge := none, sessions := i.sessions ++ [s], failCount := 0, signs := i.signs + 1 }
            { h with island := i }.setGate.ok 0x0002 hdr (le 4 tag.toNat ++ att)
      | _, _ => used.badState 0x0002 hdr

/-- SESSION_CLOSE: the session ends after its reply (Table 17-8). -/
def opSessionClose (hdr : Hdr) (h : Hub) : Hub :=
  h.icp 0x0003 hdr fun h => (h.ok 0x0003 hdr []).endSession hdr.session

/-- The identity certificate, 272 octets (Table 17-9); unsigned before installation. -/
def Hub.certificate (h : Hub) : List Byte :=
  match h.island.certificate with
  | some c => c
  | none => ascii "IXYCERT1" ++ le 2 1 ++ [0x09, 0] ++ zeros 4 ++ zeros 8 ++ zeros 48 ++ fit 97 h.identityKey ++
      zeros 7 ++ zeros 96

def opIdentityCert (hdr : Hdr) (h : Hub) : Hub :=
  h.icp 0x0004 hdr fun h => h.ok 0x0004 hdr h.certificate

/-! ### Vote, transitions and side work (R384 to R392) -/

/-- The code of a copy (Table 17-1); none for Invalid. -/
def copyState (c : W32) : Option LifeCycle :=
  if c = 0 then some .blank else if c = 0xFF then some .test else if c = 0xFFFF then some .production
  else if c = 0xFFFFFFFF then some .endOfLife else none

/-- The copy value of a state that can be written. -/
def stateCode (l : LifeCycle) : W32 :=
  match l with
  | .blank => 0
  | .test => 0xFF
  | .production => 0xFFFF
  | .endOfLife => 0xFFFFFFFF
  | .locked => 0

/-- The vote (R385). -/
def vote (a b c : W32) : LifeCycle :=
  match copyState a, copyState b, copyState c with
  | some x, some y, some z => if x = y ∨ x = z then x else if y = z then y else .locked
  | some x, some y, none => if x = y then x else .locked
  | some x, none, some z => if x = z then x else .locked
  | none, some y, some z => if y = z then y else .locked
  | _, _, _ => .locked

def Otp.vote (o : Otp) : LifeCycle := Machine.vote o.copyA o.copyB o.copyC

/-- Generate the identity key (R401): 56 octets from the DRBG give the scalar; slot 0 unless it has failed,
else slot 1; sealed where it reads back. -/
def Island.makeIdentity (i : Island) : Island :=
  let gen (i : Island) : Option (Nat × Island) :=
    (i.draw 56).map fun r => (beNat r.1 % (p384N - 1) + 1, r.2)
  let try1 (i : Island) : Island :=
    match gen i with
    | some (d, i) => { i with otp.identity1 := some (d, !i.otp.identityBad1) }
    | none => i
  match i.otp.identity0 with
  | none =>
    match gen i with
    | some (d, i) =>
      let i := { i with otp.identity0 := some (d, !i.otp.identityBad0) }
      if i.otp.identityBad0 then try1 i else i
    | none => i
  | some (_, true) => i
  | some (_, false) => if i.otp.identity1.isNone then try1 i else i

/-- An identity key is sealed, or both slots have failed (R401). -/
def Otp.identityTried (o : Otp) : Bool :=
  match o.identity0 with
  | some (_, true) => true
  | some (_, false) => o.identity1.isSome
  | none => false

/-- The side work of Blank to Test (Table 17-4): recorded as done once the key has been made, for which the DRBG must be
instantiated (R389). -/
def Island.sideWork (i : Island) : Island :=
  let i := { i with otp.patternKey := some (romHash Config.lahebinPatternHash) }
  let i := i.makeIdentity
  { i with otp.sideDone := i.otp.identityTried }

/-- The End-of-life wipe (R392), but for the pattern flash: every bit of the island's fields but the copies. -/
def Island.wipe (i : Island) : Island :=
  let ones : KeyField := { hash := List.replicate 48 0xFF, sealed := true }
  let o := i.otp
  let o := { o with observer := ones, operator := ones, vendor := ones, patternKey := some (List.replicate 48 0xFF),
                    fleet := List.replicate 8 { hash := List.replicate 48 0xFF, revoked := true },
                    identity0 := some (2 ^ 384 - 1, true), identity1 := some (2 ^ 384 - 1, true) }
  let o := { o with trims := List.replicate Config.trimBytes 0xFF, sidePending := true, sideDone := true,
                    wipePending := true, wiped := true, wipeDone := true,
                    repair := (List.range agentCount).filter fun k => unitCore (unitOf k) }
  { i with otp := o, drbg := none }

/-- A block that is erased: its count, and worn from 20,000 on (R340). -/
def wornAt (worn : List Nat) (b n : Nat) : List Nat := if 20000 ≤ n && !worn.contains b then worn ++ [b] else worn

/-- Erase and program a block of the pattern flash: its count; what fails its CRC in it is gone. -/
def Flash.write (f : Flash) (b : Nat) : Flash :=
  let n := mapGet 0 f.erases b + 1
  { f with erases := mapSet 0 f.erases b n, worn := wornAt f.worn b n, corrupt := f.corrupt.filter fun x => x != b }

/-- Every block of the pattern flash partition is erased, and each erase counts (R340, R392). -/
def Hub.eraseFlash (h : Hub) : Hub :=
  let f := (List.range 768).foldl Flash.write h.pat.flash
  { h with pat.flash := { erases := f.erases, worn := f.worn, bad := f.bad } }

/-- Side work that is pending and belongs to the decoded state (R389). -/
def Hub.doSideWork (h : Hub) (l : LifeCycle) : Hub :=
  let o := h.island.otp
  let h := if o.sidePending && !o.sideDone && l == .test then { h with island := h.island.sideWork } else h
  if o.wipePending && !o.wipeDone && (l == .endOfLife || l == .locked) then
    { h with island := h.island.wipe }.eraseFlash
  else h

/-- Vote and complete pending side work; TEST_GATE follows the decoded state (R385, R389, R391). -/
def Hub.voteNow (h : Hub) : Hub :=
  let l := h.island.otp.vote
  ({ h with island.decoded := some l }.doSideWork l).setGate

/-- Bits of a mask from the highest down (R386). -/
def bitsOf (m : W32) : List Nat := ((List.range 32).reverse).filter fun i => m.getLsbD i

def Otp.copy (o : Otp) (c : Nat) : W32 := match c with | 0 => o.copyA | 1 => o.copyB | _ => o.copyC
def Otp.setCopy (o : Otp) (c : Nat) (v : W32) : Otp :=
  match c with | 0 => { o with copyA := v } | 1 => { o with copyB := v } | _ => { o with copyC := v }

/-- The writes of one copy: its missing bits from the highest down, then the read-back. -/
def copyJob (o : Otp) (target : W32) (c : Nat) : List OtpOp :=
  ((bitsOf (target &&& ~~~ o.copy c)).map (OtpOp.program c)) ++ [.readBack c target true]

/-- The OTP work of a transition: copies A, B and C in order, then the vote (R386). -/
def advanceJob (o : Otp) (target : W32) : List OtpOp :=
  copyJob o target 0 ++ copyJob o target 1 ++ copyJob o target 2 ++ [.vote]

/-- Program one bit; a damaged bit stays (R386). -/
def Otp.program (o : Otp) (c b : Nat) : Otp :=
  if (mapGet 0 o.stuck c).getLsbD b then o else o.setCopy c (o.copy c ||| BitVec.twoPow 32 b)

/-- The vote after a copy: the state follows it, and TEST_GATE the state (R385, R391); the side work waits for the last
vote (R389). -/
def Hub.voteCopy (h : Hub) : Hub := { h with island.decoded := some h.island.otp.vote }.setGate

/-- The transition is over: the vote, the side work, the reply with DECODED, and the end of the issuing
session (R389); a command that was discarded has no reply, and its session goes on (Table 17-11). -/
def Hub.advanceDone (h : Hub) : Hub :=
  let h := { h with island := { h.island with job := [], jobTarget := none } }.voteNow
  match h.slot with
  | some ⟨_, hdr, _, _, .lifecycle, _, _, _, _, _, _, _, _⟩ => (h.conclude .ok [BitVec.ofNat 8 h.lcNat]).endSession hdr.session
  | _ => h

/-- One step of the island's OTP work: one bit, one read-back with the vote after it, or the last vote (R385, R386). -/
def Hub.otpStep (h : Hub) : Hub :=
  match h.island.job with
  | [] => h
  | .program c b :: rest =>
    { h with island := { h.island with otp := h.island.otp.program c b, job := rest } }
  | .readBack c t again :: rest =>
    let missing := t &&& ~~~ h.island.otp.copy c
    if h.island.otp.copy c = t then { h with island.job := rest }.voteCopy
    else if again then
      { h with island.job := (bitsOf missing).map (OtpOp.program c) ++ [.readBack c t false] ++ rest }
    else h.advanceDone
  | .vote :: _ => h.advanceDone

/-! ### Group 0x0Cxx -/

def opLifecycleGet (hdr : Hdr) (h : Hub) : Hub :=
  h.icp 0x0C00 hdr fun h =>
    let o := h.island.otp
    h.ok 0x0C00 hdr ([] |> put 4 o.copyA.toNat |> put 4 o.copyB.toNat |> put 4 o.copyC.toNat |> put 1 h.lcNat)

/-- The target of LIFECYCLE_ADVANCE where R387 permits it. -/
def advanceTarget (l : Option LifeCycle) (t : Nat) : Option LifeCycle :=
  match l, t with
  | some .blank, 1 => some .test
  | some .test, 2 => some .production
  | some .blank, 3 => some .endOfLife
  | some .test, 3 => some .endOfLife
  | some .production, 3 => some .endOfLife
  | _, _ => none

/-- LIFECYCLE_ADVANCE (R388, R389): the checks of Table 17-3, the side work recorded as pending, and the OTP
work begun. -/
def opLifecycleAdvance (hdr : Hdr) (target : Byte) (confirm : W32) (h : Hub) : Hub :=
  h.icp 0x0C01 hdr fun h =>
    let o := h.island.otp
    match advanceTarget h.island.decoded target.toNat with
    | none => h.badArg 0x0C01 hdr 0
    | some l =>
      if confirm ≠ stateCode l ^^^ 0x4C435346 then h.badArg 0x0C01 hdr 4
      else if l = .test ∧ !o.vendor.sealed then h.badState 0x0C01 hdr
      else if l = .production ∧ !(o.operator.sealed && h.island.certificate.isSome) then h.badState 0x0C01 hdr
      else if 1 < h.island.sessions.length then h.badState 0x0C01 hdr
      else if h.island.entropyFail then h.badState 0x0C01 hdr
      else
        let o := { o with sidePending := o.sidePending || l == .test, wipePending := o.wipePending || l == .endOfLife }
        let i := { h.island with otp := o, job := advanceJob o (stateCode l), jobTarget := some l }
        { h with island := i }.occupy 0x0C01 hdr .lifecycle

def Otp.keyField (o : Otp) (r : Role) : KeyField :=
  match r with | .observer => o.observer | .operator => o.operator | .vendor => o.vendor
def Otp.setKeyField (o : Otp) (r : Role) (k : KeyField) : Otp :=
  match r with
  | .observer => { o with observer := k }
  | .operator => { o with operator := k }
  | .vendor => { o with vendor := k }

/-- ROLE_KEY_PROGRAM (R394): OTP bits only set; the seal is burnt where the read-back equals HASH. -/
def opRoleKeyProgram (hdr : Hdr) (role : Byte) (hash : List Byte) (h : Hub) : Hub :=
  h.icp 0x0C02 hdr fun h =>
    match roleOf role.toNat with
    | none => h.badArg 0x0C02 hdr 0
    | some r =>
      let o := h.island.otp
      let k := o.keyField r
      if hash.length ≠ 48 then h.badArg 0x0C02 hdr noOffset
      else if k.sealed then h.badState 0x0C02 hdr
      else
        let burnt := ((fit 48 k.hash).zip hash).map fun p => p.1 ||| p.2
        let good := burnt == hash && !o.keyBad
        let h := { h with island.otp := o.setKeyField r { hash := burnt, sealed := good } }
        if good then h.ok 0x0C02 hdr [] else h.badState 0x0C02 hdr

/-! ### Multi-piece loads (R379) and group 0x0Dxx -/

/-- Take a piece: the object with it; or none, where the partial object is discarded, with the offset of the
faulty field. -/
def takePiece (p : Option PartLoad) (session : W32) (offset total : Nat) (data : List Byte) : PartLoad ⊕ Nat :=
  if offset = 0 then .inl { session := session, total := total, bytes := data }
  else
    match p with
    | none => .inr 0
    | some x =>
      if x.session ≠ session ∨ offset ≠ x.bytes.length then .inr 0
      else if total ≠ x.total then .inr 4
      else .inl { x with bytes := x.bytes ++ data }

def opFirmwareInfo (hdr : Hdr) (h : Hub) : Hub :=
  h.icp 0x0D00 hdr fun h =>
    h.ok 0x0D00 hdr (le 4 h.fwVersion ++ le 4 h.image.length ++ sha384 h.image)

/-- The Lahebin device-CA key (R402). -/
def deviceCaKey : List Byte := (List.range 97).map Config.deviceCaKey

/-- The checks of a certificate (R402), the state aside: the identity key, CA_KEY_ID, and the signature over octets 0 to
175. -/
def Hub.certGood (h : Hub) (c : List Byte) : Bool :=
  (c.drop 72).take 97 == h.identityKey && (c.drop 24).take 48 == sha384 deviceCaKey && c.length == 272 &&
    ecdsaVerify deviceCaKey (c.take 176) (c.drop 176)

/-- The block with the lowest erase count, the lowest number first (R340). -/
def lowestCount (erases : SMap Nat) (l : List Nat) : Option Nat :=
  l.foldl (fun (m : Option Nat) b =>
    match m with
    | none => some b
    | some x => if mapGet 0 erases b < mapGet 0 erases x then some b else m) none

/-- Free blocks of the firmware partition, worn ones left out; blocks 0 and 1 hold the directory. -/
def FwFlash.freeBlocks (f : FwFlash) : List Nat :=
  ((List.range 256).drop 2).filter fun b => !f.blocks.contains b && !f.worn.contains b

/-- Erase and program a block: its count; worn at 20,000 (R340). -/
def FwFlash.write (f : FwFlash) (b : Nat) : FwFlash :=
  let n := mapGet 0 f.erases b + 1
  { f with erases := mapSet 0 f.erases b n, worn := wornAt f.worn b n }

/-- Take `n` free blocks for an image, those of the lowest counts; one that fails is worn at once and raises an event.
By fuel. -/
def Hub.takeFirmware : Nat → Nat → List Nat → List Nat → Hub → Option (List Nat) × Hub
  | 0, _, _, _, h => (none, h)
  | fuel + 1, n, free, got, h =>
    if n ≤ got.length then (some got, h) else
    match lowestCount h.power.fw.erases free with
    | none => (none, h)
    | some b =>
      let free := free.filter fun x => x != b
      if h.power.fw.bad.contains b then
        Hub.takeFirmware fuel n free got ({ h with power.fw.worn := h.power.fw.worn ++ [b] }.flashError b)
      else Hub.takeFirmware fuel n free (got ++ [b]) { h with power.fw := h.power.fw.write b }

/-- Write an image of `n` octets into free blocks, and a new directory that names them (R339, R340, R418). -/
def Hub.writeFirmware (h : Hub) (n : Nat) : Bool × Hub :=
  match h.takeFirmware 256 ((n + 65535) / 65536) h.power.fw.freeBlocks [] with
  | (none, h) => (false, h)
  | (some bs, h) =>
    let seq := h.power.fw.dirSeq + 1
    let b := seq.toNat % 2
    if h.power.fw.worn.contains b then (false, h.flashError b)
    else if h.power.fw.bad.contains b then (false, { h with power.fw.worn := h.power.fw.worn ++ [b] }.flashError b)
    else (true, { h with power.fw := { h.power.fw.write b with dirSeq := seq, blocks := bs } })

/-- FIRMWARE_WRITE's FINAL piece (R402, R418). Where the flash takes no image, nothing is committed (log entry 140). A
certificate is stored with its CRC-32C. -/
def Hub.commitLoad (h : Hub) (hdr : Hdr) (b : List Byte) (total : Nat) : Hub :=
  if b.take 8 == ascii "IXYCERT1" && total == 272 then
    if h.island.decoded ≠ some .test then h.denied 0x0D01 hdr
    else if h.certGood b then { h with island.cert := some (b ++ le 4 (crc32c b).toNat) }.ok 0x0D01 hdr []
    else h.badArg 0x0D01 hdr noOffset
  else if b.length == total && firmwarePasses b &&
      (decide (h.power.startUp = .recovery) || decide (h.fwVersion ≤ imageVersion b)) then
    let w := h.writeFirmware b.length
    let h := w.2
    if !w.1 then (if h.fc.safe then h.answer 0x0D01 hdr .safeState [] else h.badState 0x0D01 hdr) else
    let first := decide (h.power.startUp = .recovery)
    let p := { h.power with image := some b, imageGood := true, startUp := if first then .verified else h.power.startUp,
                            verified := if first then sha384 b else h.power.verified }
    let h := Hub.stored { h with power := p } 0x0D01 hdr []
    if first then h.wake else h
  else h.badArg 0x0D01 hdr noOffset

/-- FIRMWARE_WRITE (R379, R402, R418). -/
def opFirmwareWrite (hdr : Hdr) (offset total : W32) (final : Byte) (data : List Byte) (h : Hub) : Hub :=
  h.icp 0x0D01 hdr fun h =>
    match takePiece h.power.fwPart hdr.session offset.toNat total.toNat data with
    | .inr o => { h with power.fwPart := none }.badArg 0x0D01 hdr o
    | .inl p =>
      if final = 0 then { h with power.fwPart := some p }.ok 0x0D01 hdr []
      else { h with power.fwPart := none }.commitLoad hdr p.bytes p.total

/-! ### Events of the island -/

/-- OTP_VOTE: the vote of start-up. The DRBG is instantiated, but from the wipe onward (R385, R395, R396). -/
def opOtpVote (h : Hub) : Hub :=
  if h.power.startUp ≠ .powerGood then h else
  let i := if h.island.otp.wiped ∨ h.island.entropyFail then h.island else h.island.instantiate
  let h := { h with island := i }.voteNow
  { h with power.startUp := .voted, i3c.idDraws := h.i3c.idDraws + 1 }

/-- CHALLENGE_EXPIRY: 1 s after it was issued (R396). -/
def opChallengeExpiry (h : Hub) : Hub :=
  match h.island.challenge with
  | some c => if c.pt + 1000000000 ≤ h.pt then { h with island.challenge := none } else h
  | none => h

/-- SESSION_IDLE_TIMEOUT: 600 s with no packet bearing the tag (Table 17-8). -/
def opSessionIdleTimeout (tag : W32) (h : Hub) : Hub :=
  match h.session tag with
  | some s => if s.lastPt + 600000000000 ≤ h.pt then h.endSession tag else h
  | none => h

/-- ENTROPY_FAIL: no new challenge until AO power-on; the DRBG is not instantiated (R395, R396). -/
def opEntropyFail (h : Hub) : Hub :=
  { h with island := { h.island with entropyFail := true, drbg := none } }

/-- TEST_GATE_FALL: within 1 us every unit leaves its test modes, and its SRAM contents become undefined
(R391). -/
def opTestGateFall (h : Hub) : Hub :=
  if h.island.testGate then h else
  { h with agents := h.agents.map fun (p : Nat × Agent) =>
      if p.2.testMode then (p.1, { p.2 with testMode := false, sram := [], sramLost := p.2.sramLost + 1 }) else p }

/-! ### Meanings -/

def execIdentify (h : Hdr) (st : State) : Host.Outcome State Fault Refusal :=
  .next { st with hub := opIdentify h st.hub }
def execSessionChallenge (h : Hdr) (role partition : Byte) (st : State) : Host.Outcome State Fault Refusal :=
  .next { st with hub := opSessionChallenge h role partition st.hub }
def execSessionOpen (h : Hdr) (role partition : Byte) (response : List Byte) (st : State) :
    Host.Outcome State Fault Refusal :=
  .next { st with hub := opSessionOpen h role partition response st.hub }
def execSessionClose (h : Hdr) (st : State) : Host.Outcome State Fault Refusal :=
  .next { st with hub := opSessionClose h st.hub }
def execIdentityCert (h : Hdr) (st : State) : Host.Outcome State Fault Refusal :=
  .next { st with hub := opIdentityCert h st.hub }
def execLifecycleGet (h : Hdr) (st : State) : Host.Outcome State Fault Refusal :=
  .next { st with hub := opLifecycleGet h st.hub }
def execLifecycleAdvance (h : Hdr) (target : Byte) (confirm : W32) (st : State) :
    Host.Outcome State Fault Refusal :=
  .next { st with hub := opLifecycleAdvance h target confirm st.hub }
def execRoleKeyProgram (h : Hdr) (role : Byte) (hash : List Byte) (st : State) :
    Host.Outcome State Fault Refusal :=
  .next { st with hub := opRoleKeyProgram h role hash st.hub }
def execFirmwareInfo (h : Hdr) (st : State) : Host.Outcome State Fault Refusal :=
  .next { st with hub := opFirmwareInfo h st.hub }
def execFirmwareWrite (h : Hdr) (offset total : W32) (final : Byte) (data : List Byte) (st : State) :
    Host.Outcome State Fault Refusal :=
  .next { st with hub := opFirmwareWrite h offset total final data st.hub }
def execOtpVote (st : State) : Host.Outcome State Fault Refusal :=
  .next { st with hub := opOtpVote st.hub }
def execChallengeExpiry (st : State) : Host.Outcome State Fault Refusal :=
  .next { st with hub := opChallengeExpiry st.hub }
def execSessionIdleTimeout (tag : W32) (st : State) : Host.Outcome State Fault Refusal :=
  .next { st with hub := opSessionIdleTimeout tag st.hub }
def execEntropyFail (st : State) : Host.Outcome State Fault Refusal :=
  .next { st with hub := opEntropyFail st.hub }
def execTestGateFall (st : State) : Host.Outcome State Fault Refusal :=
  .next { st with hub := opTestGateFall st.hub }

end Sys2Proof.Machine
end

