-- ==== Sys2Proof/Machine/Store.lean ====
section
/-! DEFINITION. The pattern store: the pack format (R335, R336), the checks of R337, pages (R338), the flash
mirror (R339, R340), the reload (R341) and candidates (R347, R348). -/

namespace Sys2Proof.Machine

/-! ### Pack format -/

/-- Octets rounded up to a multiple of 64. -/
def up64 (n : Nat) : Nat := (n + 63) / 64 * 64

/-- A field of `w` octets at an offset. -/
def fieldAt (b : List Byte) (o w : Nat) : Nat := leNat ((b.drop o).take w)

/-- All octets of a range are zero. -/
def zeroAt (b : List Byte) (o n : Nat) : Bool := ((b.drop o).take n).all fun x => x == 0

/-- A pattern body (Table 14-2). -/
structure PatBody where
  number : Nat
  cls : Nat
  engine : Nat
  outFormat : Nat
  outElements : Nat
  outScaleOffset : Nat
  expect : W64
  key : List Byte
  template : List Byte
  /-- Operand areas as they lie in the operand data, each padded to 64 octets. -/
  operands : List (List Byte)
  /-- DESC_OFFSET, TARGET, ADD. -/
  patches : List (Nat × Nat × Nat)
  length : Nat
  deriving DecidableEq, Repr

/-- Octets of an output with its scales. -/
def PatBody.outBytes (p : PatBody) : Nat :=
  let n := rangeBytes p.outFormat p.outElements
  match formatOf p.outFormat with
  | some f => if f.mx then max n (p.outScaleOffset + (p.outElements + 31) / 32) else n
  | none => n

/-- OFFSET in the operand data that area `k` has by R336: the areas in order, each padded. -/
def areaOffset (sizes : List Nat) (k : Nat) : Nat := ((sizes.take k).map up64).foldl (· + ·) 0

/-- The body whose head starts at octet `o`, where its structure is sound. -/
def parseBody (b : List Byte) (o : Nat) : Option PatBody :=
  let f (k w : Nat) : Nat := fieldAt b (o + k) w
  let areas := f 5 1
  let desc := f 8 4
  let sizes := (List.range (min areas 4)).map fun k => f (52 + 8 * k) 4
  let data := o + 160 + up64 desc
  let total := (sizes.map up64).foldl (· + ·) 0
  let patches := (List.range (min (f 6 1) 8)).map fun i => (f (80 + 8 * i) 2, f (82 + 8 * i) 1, f (84 + 8 * i) 4)
  let p : PatBody :=
    { number := f 0 2, cls := f 2 1, engine := f 3 1, outFormat := f 4 1, outElements := f 12 4,
      outScaleOffset := f 16 8, expect := BitVec.ofNat 64 (f 24 8), key := (b.drop (o + 32)).take 16,
      template := (b.drop (o + 160)).take desc,
      operands := (List.range (min areas 4)).map fun k => (b.drop (data + areaOffset sizes k)).take (up64 (sizes.getD k 0)),
      patches := patches, length := 160 + up64 desc + total }
  let mx := match formatOf p.outFormat with | some x => x.mx | none => false
  if o + 160 ≤ b.length && decide (p.cls ≤ 3) && decide (p.engine < tapEngines (BitVec.ofNat 16 (p.cls * 0x1000))) &&
      (formatOf p.outFormat).isSome && decide (1 ≤ areas) && decide (areas ≤ 4) && decide (f 6 1 ≤ 8) && f 7 1 == 0 &&
      decide (8 ≤ desc) && decide (desc ≤ 256) && desc % 8 == 0 &&
      ((List.range (min areas 4)).all fun k => f (48 + 8 * k) 4 == areaOffset sizes k) &&
      decide (sizes.foldl (· + ·) 0 ≤ 0x400000) && decide (p.outBytes ≤ 0x200000) && (mx || p.outScaleOffset == 0) &&
      (patches.all fun q => q.1 % 8 == 0 && decide (q.1 + 8 ≤ desc) && (decide (q.2.1 < areas) || q.2.1 == 4)) &&
      ((List.range (min (f 6 1) 8)).all fun i => f (83 + 8 * i) 1 == 0) &&
      zeroAt b (o + 160 + desc) (up64 desc - desc) &&
      ((List.range (min areas 4)).all fun k =>
        zeroAt b (data + areaOffset sizes k + sizes.getD k 0) (up64 (sizes.getD k 0) - sizes.getD k 0)) &&
      f 144 8 == p.length && f 152 8 == 0 && decide (o + p.length ≤ b.length) then some p
  else none

/-- The bodies from an octet on, and the octet after the last one. -/
def parseBodies (b : List Byte) : Nat → Nat → Option (List PatBody × Nat)
  | 0, o => some ([], o)
  | n + 1, o =>
    match parseBody b (up64 o) with
    | none => none
    | some p =>
      if zeroAt b o (up64 o - o) then (parseBodies b n (up64 o + p.length)).map fun r => (p :: r.1, r.2) else none

/-- No number stands twice. -/
def noRepeat : List Nat → Bool
  | [] => true
  | x :: l => !l.contains x && noRepeat l

/-- The bodies of a pack whose structure passes check 1 of R337. -/
def parsePack (b : List Byte) : Option (List PatBody) :=
  let n := b.length
  let t := n - 208
  if b.take 8 == ascii "IXYPACK1" && fieldAt b 8 2 == 1 && (b.getD 10 0 == 0x09 || b.getD 10 0 == 0xFF) &&
      decide (fieldAt b 11 1 ≤ 1) && (if fieldAt b 11 1 = 0 then fieldAt b 12 1 == 0 else decide (fieldAt b 12 1 ≤ 7)) &&
      zeroAt b 13 3 && decide (1 ≤ fieldAt b 28 2) && decide (fieldAt b 28 2 ≤ 1024) && zeroAt b 30 2 &&
      fieldAt b 32 8 == n && zeroAt b 40 24 && decide (272 ≤ n) && (b.drop t).take 8 == ascii "IXYPSIG1" &&
      zeroAt b (t + 105) 7 then
    match parseBodies b (fieldAt b 28 2) 64 with
    | none => none
    | some (l, e) =>
      if e ≤ t ∧ t < e + 64 ∧ zeroAt b e (t - e) ∧ noRepeat (l.map (·.number)) then some l else none
  else none

/-- The key hash that SIGNER and KEY_SLOT select, in a slot that is not revoked (R333). -/
def Otp.packHash (o : Otp) (signer slot : Nat) : Option (List Byte) :=
  if o.wiped then none
  else if signer = 0 then o.patternKey
  else match o.fleet[slot]? with
    | some k => if k.revoked then none else some k.hash
    | none => none

/-- Check 2 of R337: the key's hash and the signature. -/
def Otp.packSigned (o : Otp) (b : List Byte) : Bool :=
  let t := b.drop (b.length - 208)
  o.packHash (fieldAt b 11 1) (fieldAt b 12 1) == some (sha384 (trailerKey t)) &&
    ecdsaVerify (trailerKey t) (b.take (b.length - 96)) (trailerSignature t)

/-! ### Pages (R338) -/

/-- 4 KiB pages. -/
def pagesOf (n : Nat) : Nat := (n + 4095) / 4096

def Pack.pages (p : Pack) : Nat := pagesOf p.bytes.length

/-- The export of a candidate, but its trailer (Table 14-5, R348). -/
def Candidate.body (c : Candidate) : List Byte :=
  let range (r : ReplayRange) : List Byte :=
    le 8 r.base.toNat ++ le 4 r.elements.toNat ++ [r.format] ++ zeros 3 ++ le 8 r.scaleBase.toNat
  let head := ascii "IXYCAND1" ++ le 2 1 ++ le 2 256 ++ le 4 c.seq.toNat ++ le 8 c.source.toNat ++ le 8 c.capturePt ++
    le 4 c.epoch.toNat ++ le 1 c.verdict ++ [c.outFormat] ++ le 1 c.ranges.length ++ le 1 c.tiles.length ++
    (sha256 c.key).take 8 ++ le 4 c.tile ++ le 4 c.refElements ++ le 8 c.refDigest.toNat ++ le 8 c.refTileDigest.toNat ++
    fit 64 (c.tiles.flatMap fun t => le 4 t) ++ le 4 c.descriptor.length ++ zeros 4 ++
    fit 96 (c.ranges.flatMap range) ++ le 8 c.outScaleBase.toNat ++ zeros 8
  head ++ padTo 64 c.descriptor ++ c.contents.flatMap (padTo 64)

/-- Octets of a candidate as exported. -/
def Candidate.size (c : Candidate) : Nat := c.body.length + 208

def Candidate.pages (c : Candidate) : Nat := pagesOf c.size

/-- Pages in use. -/
def Patterns.pagesUsed (p : Patterns) : Nat :=
  (p.packs.map Pack.pages).foldl (· + ·) 0 + (p.candidates.map Candidate.pages).foldl (· + ·) 0

/-- Pages in all. -/
def storePages : Nat := 4096

/-! ### Flash mirror (R339, R340) -/

/-- Octets of a content. -/
def FlashData.size (d : FlashData) : Nat :=
  match d with
  | .pack p => p.bytes.length
  | .cand c => c.size
  | .results l => 16 * l.length

/-- Blocks of 64 KiB; blocks 0 and 1 hold the directory. -/
def flashBlocks : Nat := 768

/-- Blocks that the directory in force names. -/
def Flash.used (f : Flash) : List Nat := f.items.flatMap fun i => i.blocks

/-- Free blocks, worn ones left out. -/
def Flash.freeBlocks (f : Flash) : List Nat :=
  let used := f.used
  ((List.range flashBlocks).drop 2).filter fun b => !used.contains b && !f.worn.contains b

/-- The block with the lowest erase count, the lowest number first. -/
def Flash.lowest (f : Flash) (l : List Nat) : Option Nat := lowestCount f.erases l

/-- Take `n` blocks for a new write: those of the lowest counts; one that fails is worn at once and raises an
event. By fuel. -/
def Hub.takeBlocks : Nat → Nat → List Nat → List Nat → Hub → Option (List Nat) × Hub
  | 0, _, _, _, h => (none, h)
  | fuel + 1, n, free, got, h =>
    if n ≤ got.length then (some got, h) else
    match h.pat.flash.lowest free with
    | none => (none, h)
    | some b =>
      let free := free.filter fun x => x != b
      if h.pat.flash.bad.contains b then
        Hub.takeBlocks fuel n free got ({ h with pat.flash.worn := h.pat.flash.worn ++ [b] }.flashError b)
      else Hub.takeBlocks fuel n free (got ++ [b]) { h with pat.flash := h.pat.flash.write b }

/-- Write one content into free blocks that `taken` does not hold. -/
def Hub.writeContent (h : Hub) (d : FlashData) (taken : List Nat) : Option FlashItem × Hub :=
  let r := h.takeBlocks 800 (max 1 ((d.size + 65535) / 65536)) (h.pat.flash.freeBlocks.filter fun b => !taken.contains b) []
  (r.1.map fun bs => { data := d, blocks := bs }, r.2)

/-- Write several contents; none where one of them cannot be written. -/
def Hub.writeContents (h : Hub) : List FlashData → List FlashItem → Option (List FlashItem) × Hub
  | [], got => (some got, h)
  | d :: ds, got =>
    match h.writeContent d (got.flatMap fun i => i.blocks) with
    | (none, h) => (none, h)
    | (some i, h) => h.writeContents ds (got ++ [i])

/-- The directory in force. -/
def Flash.dir (f : Flash) : FlashDir := { dirSeq := f.dirSeq, items := f.items, candLost := f.candLost, resultsLost := f.resultsLost }

/-- Write the directory with new contents: DIR_SEQ one greater, in the other of the two fixed blocks (R339). A fixed block that
is worn is never written again, and one that fails is worn at once (R340): the mirror cannot be written. -/
def Hub.writeDirectory (h : Hub) (items : List FlashItem) : Bool × Hub :=
  let f := h.pat.flash
  let seq := f.dirSeq + 1
  let b := seq.toNat % 2
  if f.worn.contains b then (false, h.flashError b)
  else if f.bad.contains b then
    (false, { h with pat.flash := { f with worn := f.worn ++ [b], older := none } }.flashError b)
  else
    (true, { h with pat.flash := { f.write b with dirSeq := seq, items := items, candLost := h.pat.candLost,
                                                  resultsLost := h.pat.resultsLost, older := some f.dir } })

/-- Bring the mirror to a new state: contents that `drop` names leave, those of `add` come in, and contents in
worn blocks move. Where it cannot be written, the old directory stays in force, and 0xFE9 receives an event. -/
def Hub.mirror (h : Hub) (drop : FlashData → Bool) (add : List FlashData) : Bool × Hub :=
  let keep := h.pat.flash.items.filter fun i => !drop i.data
  let worn (i : FlashItem) : Bool := i.blocks.any fun b => h.pat.flash.worn.contains b
  let moved := (keep.filter worn).map (·.data)
  match h.writeContents (add ++ moved) [] with
  | (some new, h) => h.writeDirectory ((keep.filter fun i => !worn i) ++ new)
  | (none, h) =>
    match h.writeContents add [] with
    | (some new, h) => h.writeDirectory (keep ++ new)
    | (none, h) => (false, h.flashError ((h.pat.flash.dirSeq.toNat + 1) % 2))

/-- The mirror holds a pack of the store. -/
def Flash.holdsPack (f : Flash) (p : Pack) : Bool :=
  f.items.any fun i => match i.data with | .pack q => q.packId == p.packId && q.version == p.version | _ => false

def Flash.holdsCand (f : Flash) (c : Candidate) : Bool :=
  f.items.any fun i => match i.data with | .cand d => d.seq == c.seq | _ => false

/-- Results or lost counts have changed since the mirror was written: domain 17 stays on until it is written again (R341,
R351). -/
def Patterns.changed (p : Patterns) : Bool :=
  p.resultsDirty || p.candLost != p.flash.candLost || p.resultsLost != p.flash.resultsLost

/-- Some content of the store is not in flash. -/
def Patterns.unmirrored (p : Patterns) : Bool :=
  p.resultsDirty || (p.packs.any fun x => !p.flash.holdsPack x) || (p.candidates.any fun c => !p.flash.holdsCand c)

/-! ### Reload (R341) -/

/-- The directory that a reload takes: of those with a good CRC the one with the later DIR_SEQ (R339); none leaves an empty
mirror (log entry 161). -/
def Flash.chosen (f : Flash) : Flash :=
  let take (d : FlashDir) : Flash :=
    { f with dirSeq := d.dirSeq, items := d.items, candLost := d.candLost, resultsLost := d.resultsLost, older := none }
  if !f.corrupt.contains (f.dirSeq.toNat % 2) then f
  else
    match f.older with
    | some d => if f.corrupt.contains (d.dirSeq.toNat % 2) then take { d with items := [] } else take d
    | none => take { f.dir with items := [] }

/-- Contents of an older directory whose blocks hold a newer content by now. -/
def Flash.overwritten (f : Flash) (i : FlashItem) : Bool :=
  !f.items.contains i && f.items.any fun j => j.blocks.any fun b => i.blocks.contains b

/-- A content of the mirror is good: every block's CRC-32C, and a pack's signature under the slots as they stand. -/
def Hub.contentGood (h : Hub) (i : FlashItem) : Bool :=
  !(i.blocks.any fun b => h.pat.flash.corrupt.contains b) &&
    (match i.data with
     | .pack p => h.island.otp.packSigned p.bytes
     | _ => true)

/-- Reload the store from flash: contents that fail are dropped from both, each with an event; result entries of a pack that is
held no longer are gone, and flash follows. -/
def Hub.reloadStore (h : Hub) : Hub :=
  let newest := h.pat.flash
  let h := { h with pat.flash := newest.chosen }
  let lost := h.pat.flash.items.filter fun i => !h.contentGood i || newest.overwritten i
  let h := if lost.isEmpty then h else
    let h := lost.foldl (fun h i => h.flashError (i.blocks.headD 0)) h
    (h.mirror (fun d => lost.any fun i => i.data == d) []).2
  let items := (h.pat.flash.items.filter fun i => h.contentGood i && !lost.contains i).map (·.data)
  let packs := items.filterMap fun d => match d with | .pack p => some p | _ => none
  let cands := items.filterMap fun d => match d with | .cand c => some c | _ => none
  let results := items.flatMap fun d => match d with | .results l => l | _ => []
  let held (e : ResultEntry) : Bool := packs.any fun p => p.index == e.pack
  { h with pat := { h.pat with packs := packs, candidates := cands, results := results.filter held,
                               resultsDirty := results.any fun e => !held e,
                               reloading := false, candLost := h.pat.flash.candLost,
                               resultsLost := h.pat.flash.resultsLost } }

/-- The store is up: domain 17 with those it depends on, and the reload, which a command that needs the store
waits for. -/
def Hub.storeUp (h : Hub) : Hub :=
  let h := h.powerDomains [19, 20, 17]
  if h.pat.reloading then h.reloadStore else h

/-- Domain 17 loses power: the store with its counts is lost (Table 18-1). -/
def Patterns.lose (p : Patterns) : Patterns := { flash := p.flash, part := p.part, lastMirrorPt := p.lastMirrorPt }

/-! ### Results -/

def ResultEntry.bytes (e : ResultEntry) : List Byte :=
  le 2 e.ordinal ++ le 1 e.pack ++ [0] ++ le 2 e.pattern.toNat ++ le 2 (sat16 e.errors) ++ le 4 (sat32 e.pass) ++
    le 4 (sat32 e.fail)

/-- Drop result entries of a store index from the store and from the mirror. -/
def Hub.dropResults (h : Hub) (drop : ResultEntry → Bool) : Hub :=
  let dirty := h.pat.resultsDirty || h.pat.results.any drop
  { h with pat := { h.pat with results := h.pat.results.filter fun e => !drop e, resultsDirty := dirty } }

/-- Write the result table to flash. -/
def Hub.mirrorResults (h : Hub) : Hub :=
  let isResults (d : FlashData) : Bool := match d with | .results _ => true | _ => false
  let r := h.mirror isResults (if h.pat.results.isEmpty then [] else [.results h.pat.results])
  if r.1 then { r.2 with pat := { r.2.pat with resultsDirty := false, lastMirrorPt := some h.pt } }
  else { r.2 with pat.lastMirrorPt := some h.pt }

/-! ### Candidates (R347) -/

/-- Keep a candidate: the next CAND_SEQ, pages and the mirror; none where the store lacks room. -/
def Hub.keepCandidate (h : Hub) (c : Candidate) : Option W32 × Hub :=
  let h := h.storeUp
  let seq := h.pat.flash.candCount + 1
  let c := { c with seq := seq }
  if storePages < h.pat.pagesUsed + c.pages then (none, { h with pat.candLost := sat32 (h.pat.candLost + 1) })
  else
    let h := { h with pat.candidates := h.pat.candidates ++ [c], pat.flash.candCount := seq }
    (some seq, (h.mirror (fun _ => false) [.cand c]).2)

end Sys2Proof.Machine
end

