-- ==== Sys2Proof/Machine/Register.lean ====
section
/-! DEFINITION. The hub register space (R424 to R435): the words of every block, and REG_READ and REG_WRITE
(0x0Exx). -/

namespace Sys2Proof.Machine

/-! ### Blocks (Tables 19-2 to 19-8) -/

/-- The word at byte offset `o` of a block's octets; beyond them it reads zero (R425). -/
def wordAt (b : List Byte) (o : Nat) : Nat := leNat ((b.drop o).take 4)

/-- Identity, time and counts (Table 19-3). -/
def Hub.identityBytes (h : Hub) : List Byte :=
  le 4 0x090014C3 ++ le 4 h.hubState ++ le 4 (h.ident.chipId.toNat + 0x10000 * b2n h.ident.assigned) ++
    le 4 h.power.domains.toNat ++ le 8 h.pt ++ le 4 h.timeState ++ le 4 (h.sight.lastRound.getD 0).toNat ++
    le 8 h.sight.step ++ le 4 h.stops.stopId.toNat ++ le 4 h.arrays.freezeId.toNat ++
    le 4 (b2n h.stops.declared + 0x10000 * sat16 h.stops.lost) ++ le 4 h.stops.hangId.toNat ++
    le 4 h.ident.retiredGen.toNat ++ le 4 h.trace.markId.toNat

/-- The four words of one half (Table 19-4); TAGs are outstanding at the root of the active side. -/
def Hub.dcnHalfBytes (h : Hub) (s : Half) : List Byte :=
  let x := h.dcn.half s
  let out := if s = h.red.holder then (h.dcn.tagsOut h.pt).length else 0
  le 4 (sat16 (h.linksDown s) + 0x10000 * out) ++ le 4 (sat32 x.crc) ++ le 4 (sat32 x.late) ++ le 4 (sat32 x.proto)

/-- Debug control network (Table 19-4). -/
def Hub.dcnBytes (h : Hub) : List Byte :=
  fit 16 (le 4 h.dcn.timeoutM1.toNat) ++ h.dcnHalfBytes .west ++ h.dcnHalfBytes .east

/-- Bench triggers (Table 19-5). -/
def Trig.bytes (t : Trig) : List Byte :=
  le 4 t.inCtrl.toNat ++ le 4 t.inCount.toNat ++ le 4 (sat32 t.inOverrun) ++ le 4 (sat32 t.inDenied) ++ le 8 t.inPt ++
    le 4 t.outCtrl.toNat ++ le 4 (sat32 t.outCount)

/-- Control class, taint notices and memory-fabric ports (Table 19-7). -/
def Hub.controlBytes (h : Hub) : List Byte :=
  le 4 (sat32 h.ctl.foreign) ++ le 4 (sat32 h.stops.podDiscards) ++
    le 4 (h.fc.dests.length + 0x10000 * h.fc.heldTaints.length) ++ le 4 h.fc.noticeSeq.toNat ++
    le 4 (sat32 h.ctl.confineWest) ++ le 4 (sat32 h.ctl.confineEast)

/-- The hang log by HANG_ID (Table 19-2). -/
def Stops.logSlots (s : Stops) : List Byte :=
  (List.range 16).flatMap fun i =>
    match s.log.find? fun e => (e.hangId - 1).toNat % 16 == i with
    | some e => e.bytes
    | none => zeros 32

/-- The sixteen registers of a probe slot (Table 19-7). -/
def ProbeSlot.regBytes (p : ProbeSlot) : List Byte := (List.range 16).flatMap fun i => le 8 (mapGet 0 p.regs i).toNat

/-- The probe blocks, from 0x1000 (Tables 12-7 and 19-7). -/
def Probe.word (p : Probe) (o : Nat) : Nat :=
  if o < 0x200 then wordAt (mapGet {} p.slots (o / 0x40)).bytes (o % 0x40)
  else if o < 0x600 then wordAt (mapGet {} p.slots ((o - 0x200) / 0x80)).regBytes ((o - 0x200) % 0x80)
  else if o = 0x600 then p.queue.length
  else 0

/-- The pattern block as domain 17 holds it (Table 14-7). -/
def Patterns.block (p : Patterns) (running : Bool) : List Byte :=
  le 4 (b2n p.reloading + 2 * b2n running + 4 * b2n p.unmirrored + 0x100 * p.packs.length + 0x10000 * sat8 p.candidates.length) ++
    le 4 (storePages - p.pagesUsed) ++ le 4 (p.flash.freeBlocks.length + 0x10000 * p.flash.worn.length) ++
    le 4 (maxOf (p.flash.erases.map fun e => e.2)) ++ le 4 p.flash.dirSeq.toNat ++ le 4 (sat32 p.candLost) ++
    le 4 (sat32 p.resultsLost)

/-- The block's reset values (Table 14-7). -/
def patternReset : List Byte := zeros 4 ++ le 4 storePages ++ zeros 20

/-- RUN_PATTERNS executes. -/
def Hub.patternsRun (h : Hub) : Bool :=
  match h.slot with
  | some e => (match e.prog with | .patterns _ => true | _ => false)
  | none => false

/-- The pattern block as a read finds it: the AO copy while domain 17 is off (R427). -/
def Hub.patternBytes (h : Hub) : List Byte :=
  if h.domainOn 17 then h.pat.block h.patternsRun else h.pat.saved.getD patternReset

/-- Dump region (Table 19-8). -/
def Dump.regBytes (d : Dump) : List Byte :=
  le 8 d.base ++ le 4 (d.size / 0x10000000 + 2 ^ 31 * b2n d.isSet) ++ le 4 d.dumpId.toNat ++ le 4 (b2n d.state) ++
    le 4 d.flags.toNat ++ le 8 d.imageBytes ++ le 4 d.registryGen.toNat ++ le 4 d.images.length ++ le 4 d.granules.length

/-- Trace region (Table 19-8). -/
def Trace.regBytes (t : Trace) : List Byte :=
  le 8 t.base ++ le 4 (t.size / 0x40000000 + 0x100 * t.mode + 2 ^ 30 * b2n t.onHang + 2 ^ 31 * b2n t.isSet) ++ zeros 4 ++
    le 8 t.k ++ le 4 (sat32 t.ignored)

def laneCode (l : Lane) : Nat := match l with | .off => 0 | .training => 1 | .up => 2

/-- Debug Port (Table 19-8). -/
def Hub.portBytes (h : Hub) : List Byte :=
  let p := h.port
  le 4 (laneCode p.lane + 4 * b2n (h.transport == .jtag)) ++
    [p.retrains, p.crc, p.naks, p.resends, p.errors, p.busy].flatMap fun n => le 4 (sat32 n)

/-- A word of the hub core by byte address (Table 19-2). -/
def Hub.coreWord (h : Hub) (a : Nat) : Nat :=
  if a < 0x100 then wordAt h.identityBytes a
  else if a < 0x200 then wordAt h.dcnBytes (a - 0x100)
  else if a < 0x300 then wordAt h.trig.bytes (a - 0x200)
  else if a < 0x400 then wordAt h.controlBytes (a - 0x300)
  else if a < 0x600 then wordAt h.stops.logSlots (a - 0x400)
  else if a < 0x700 then wordAt h.ident.mapBytes (a - 0x600)
  else if a < 0x1000 then 0
  else if a < 0x2000 then h.probe.word (a - 0x1000)
  else if a < 0x3000 then wordAt h.patternBytes (a - 0x2000)
  else if a < 0x4000 then wordAt h.red.registers (a - 0x3000)
  else if a < 0x5000 then wordAt ((h.sounding ((a - 0x4000) / 16)).statusBytes h.pt) (a % 16)
  else if a < 0x5100 then wordAt h.dump.regBytes (a - 0x5000)
  else if a < 0x6000 then wordAt h.trace.regBytes (a - 0x5100)
  else if a < 0x8000 then wordAt h.portBytes (a - 0x6000)
  else wordAt (h.collectorBytes ((a - 0x8000) / 0x400)) (a % 0x400)

/-- A word of the fault collector by byte offset (Table 13-9). -/
def Fc.word (f : Fc) (o : Nat) : Nat :=
  if o < 0x4000 then (f.cfg (o / 4)).toNat
  else if o < 0x8000 then sat32 (f.source ((o - 0x4000) / 4)).count
  else if o = 0x8000 then f.state
  else if o = 0x8004 then f.rxWindowUs.toNat
  else if o = 0x8008 then sat32 f.lostRecords
  else if o = 0x800C then sat32 f.safeEvents
  else if o = 0x8010 then sat32 f.conseqNoRec
  else if o = 0x8018 then f.epoch.toNat
  else if o = 0x801C then f.epochPrev.toNat
  else if 0x8020 ≤ o ∧ o < 0x8030 then wordAt (le 8 f.epochPt ++ le 8 f.epochPrevPt) (o - 0x8020)
  else if 0x9000 ≤ o ∧ o < 0x9000 + 64 * 65 then wordAt (f.slotBytes ((o - 0x9000) / 64)) (o % 64)
  else if 0xB000 ≤ o ∧ o < 0xB110 then wordAt f.historyBytes (o - 0xB000)
  else 0

/-- The island's registers (Table 17-10). -/
def Hub.islandBytes (h : Hub) : List Byte :=
  let o := h.island.otp
  let l := h.island.sessions
  le 4 h.siLc ++ le 4 o.copyA.toNat ++ le 4 o.copyB.toNat ++ le 4 o.copyC.toNat ++ le 4 h.siKeys ++
    le 4 (l.length + 8 * b2n (l.any fun s => s.role == .vendor) + 0x10000 * sat8 h.island.failCount) ++ le 8 h.island.holdPt

/-- A word of the hub's own ranges by byte address (Table 19-1). -/
def Hub.hubWord (h : Hub) (a : Nat) : Nat :=
  if a < 0x10000 then h.coreWord a
  else if a < 0x20000 then h.fc.word (a - 0x10000)
  else wordAt h.islandBytes (a - 0x20000)

/-! ### 64-bit registers (R12) -/

/-- The low word of a 64-bit register of the hub's own ranges. -/
def lowWord (a : Nat) : Bool :=
  a == 0x010 || a == 0x020 || a == 0x210 ||
    (decide (0x1000 ≤ a) && decide (a < 0x1200) && a % 0x40 == 8) ||
    (decide (0x1200 ≤ a) && decide (a < 0x1600) && a % 8 == 0) || a == 0x3010 || a == 0x5000 || a == 0x5018 ||
    a == 0x5100 || a == 0x5110 || (decide (0x400 ≤ a) && decide (a < 0x600) && a % 32 == 0) ||
    (decide (0x19000 ≤ a) && decide (a < 0x19000 + 64 * 65) && [0x10, 0x18, 0x20, 0x28].contains (a % 64)) ||
    a == 0x1B008 || (decide (0x1B010 ≤ a) && decide (a < 0x1B110) && a % 16 == 0) ||
    (decide (0x8000 ≤ a) && decide (a < 0x10000) &&
      (a % 0x400 == 0x08 || a % 0x400 == 0x10 || a % 0x400 == 0x18 || a % 0x400 == 0x28)) ||
    a == 0x18020 || a == 0x18028 || a == 0x20018

/-- Read one word: a low half latches its high half, which the next read of the high half returns (R12). -/
def Hub.readWord (h : Hub) (a : Nat) : W32 × Hub :=
  let v := BitVec.ofNat 32 (h.hubWord a)
  if lowWord a then (v, { h with latches := mapInsert h.latches (a + 4) (BitVec.ofNat 32 (h.hubWord (a + 4))) })
  else if decide (4 ≤ a) && lowWord (a - 4) then ((mapFind h.latches a).getD v, { h with latches := mapErase h.latches a })
  else (v, h)

/-- Read `n` words in ascending order. -/
def readWords : Nat → Nat → Hub → List Byte × Hub
  | 0, _, h => ([], h)
  | n + 1, a, h =>
    let r := h.readWord a
    let s := readWords n (a + 4) r.2
    (le 4 r.1.toNat ++ s.1, s.2)

/-! ### Domains (R427) -/

/-- The domain of a word that keeps no copy in domain 1. -/
def wordDomain (a : Nat) : Option Nat :=
  if 0x110 ≤ a ∧ a < 0x120 then some 4
  else if 0x120 ≤ a ∧ a < 0x130 then some 5
  else if 0x4000 ≤ a ∧ a < 0x4800 then some 12
  else if 0x4800 ≤ a ∧ a < 0x5000 then some 13
  else none

/-- The domain that a write to a word powers. -/
def writeDomain (a : Nat) : Option Nat :=
  if 0x1000 ≤ a ∧ a < 0x1604 then some 14
  else if 0x2000 ≤ a ∧ a < 0x201C then some 17
  else if 0x8000 ≤ a ∧ a < 0xC000 then some 6
  else if 0xC000 ≤ a ∧ a < 0x10000 then some 7
  else wordDomain a

/-- The words of an access. -/
def accessWords (a n : Nat) : List Nat := (List.range n).map fun i => a + 4 * i

/-! ### Ranges (R424, R425) -/

/-- The range an address lies in: its first address, the one after it, and the unit of an agent window. -/
def regRange (a : Nat) : Option (Nat × Nat × Option UnitId) :=
  if a % 4 ≠ 0 then none
  else if a < 0x10000 then some (0, 0x10000, none)
  else if a < 0x20000 then some (0x10000, 0x20000, none)
  else if a < 0x30000 then some (0x20000, 0x30000, none)
  else if 0x1000000 ≤ a ∧ a < 0x11000000 then
    let u : UnitId := BitVec.ofNat 16 ((a - 0x1000000) / 0x1000)
    if unitHasAgent u then some (a / 0x1000 * 0x1000, a / 0x1000 * 0x1000 + 0x1000, some u) else none
  else none

/-! ### REG_READ -/

/-- Words of an agent window, each its own REG_RD (R435): what was read, or where it stopped. -/
def Hub.runRegRead (h : Hub) (hdr : Hdr) (u : UnitId) (off n : Nat) : Hub :=
  let r := inspectAll (Hub.inspectWord u) (wordsOf off (4 * n)) ⟨.done, [], h⟩
  if r.status = .fenced then r.hub.badState 0x0E00 hdr
  else if r.status = .powering then r.hub.answer 0x0E00 hdr .unreachable (unitsBody [u])
  else r.hub.ok 0x0E00 hdr r.data

/-- REG_READ of an agent window, under the rules of INSPECT_READ (R434). -/
def Hub.regReadAgent (h : Hub) (hdr : Hdr) (address : W32) (count : W16) (u : UnitId) : Hub :=
  let off := address.toNat % 0x1000
  h.checkedRead 0x0E00 hdr u 0 off (4 * count.toNat) fun h =>
    h.withAgent 0x0E00 hdr u (.regRead hdr address count) fun h => h.runRegRead hdr u off count.toNat

def opRegRead (hdr : Hdr) (address : W32) (count : W16) (h : Hub) : Hub :=
  h.icp 0x0E00 hdr fun h =>
    let a := address.toNat
    let n := count.toNat
    match regRange a with
    | none => h.badArg 0x0E00 hdr 0
    | some (_, top, u) =>
      if 1024 < n ∨ top < a + 4 * n then h.badArg 0x0E00 hdr 4 else
      match u with
      | some u => h.regReadAgent hdr address count u
      | none =>
        let h := h.powerDomains (((accessWords a n).filterMap wordDomain).flatMap withNeeds)
        let r := readWords n a h
        r.2.ok 0x0E00 hdr r.1

/-! ### REG_WRITE (R429) -/

/-- Write one word of the hub's own ranges: only RW fields change (R13, R429). -/
def Hub.writeWord (h : Hub) (a : Nat) (v : W32) : Hub :=
  let h := match writeDomain a with | some d => h.powerDomains (withNeeds d) | none => h
  if a = 0x100 then { h with dcn.timeoutM1 := v.setWidth 6 }
  else if a = 0x200 then { h with trig.inCtrl := v.setWidth 4 }
  else if a = 0x218 then { h with trig.outCtrl := v.setWidth 8 }
  else if 0x8000 ≤ a ∧ a < 0x10000 ∧ a % 0x400 = 4 then
    let i := (a - 0x8000) / 0x400
    h.atStage (collectorStage i) fun h => h.setCollector i { h.collector i with wakeLevel := v.setWidth 10 }
  else if 0x10000 ≤ a ∧ a < 0x14000 then { h with fc := h.fc.writeCfg ((a - 0x10000) / 4) v }
  else if a = 0x18004 then { h with fc.rxWindowUs := v.setWidth 10 }
  else h

/-- Write words in ascending order. -/
def writeWords : List W32 → Nat → Hub → Hub
  | [], _, h => h
  | v :: vs, a, h => writeWords vs (a + 4) (h.writeWord a v)

/-- One word of an agent window, its own REG_WR; a unit register that it reached is noted as written (R170). -/
def Hub.pokeWord (ws : List W32) (base : Nat) (u : UnitId) (h : Hub) (off _n : Nat) : Inspect :=
  let r := h.writeReg u off (ws.getD ((off - base) / 4) 0)
  { status := r.1, data := [], hub := if r.1 = .done ∧ 0x800 ≤ off then r.2.noteWritten u else r.2 }

def Hub.runRegWrite (h : Hub) (hdr : Hdr) (u : UnitId) (off : Nat) (ws : List W32) : Hub :=
  let r := inspectAll (Hub.pokeWord ws off u) (wordsOf off (4 * ws.length)) ⟨.done, [], h⟩
  if r.status = .fenced then r.hub.badState 0x0E01 hdr
  else if r.status = .powering then r.hub.answer 0x0E01 hdr .unreachable (unitsBody [u])
  else r.hub.ok 0x0E01 hdr []

/-- A word of an agent window that REG_WRITE reaches: unit registers, and below 0x800 the RW and W1C fields of Table 19-9
(R169, R434). -/
def regWritable (off : Nat) : Bool :=
  decide (0x800 ≤ off) || off == 0x008 || off == 0x050 || (decide (0x060 ≤ off) && decide (off ≤ 0x070)) ||
    (decide (0x200 ≤ off) && decide (off < 0x400) && (off - 0x200) % 0x40 == 0x24)

/-- REG_WRITE. With a word of an agent window that it does not reach, it is refused as a whole, naming ADDRESS (R169, log
entry 165). -/
def opRegWrite (hdr : Hdr) (address : W32) (words : List W32) (h : Hub) : Hub :=
  h.icp 0x0E01 hdr fun h =>
    let a := address.toNat
    let n := words.length
    match regRange a with
    | none => h.badArg 0x0E01 hdr 0
    | some (_, top, u) =>
      if 1024 < n ∨ top < a + 4 * n then h.badArg 0x0E01 hdr 4 else
      match u with
      | some u =>
        if !(wordsOf (a % 0x1000) (4 * n)).all fun w => regWritable w.1 then h.badArg 0x0E01 hdr 0 else
        h.withAgent 0x0E01 hdr u (.regWrite hdr address words) fun h => h.runRegWrite hdr u (a % 0x1000) words
      | none => (writeWords words a h).ok 0x0E01 hdr []

/-! ### Meanings -/

def execRegRead (h : Hdr) (address : W32) (count : W16) (st : State) : Host.Outcome State Fault Refusal :=
  .next { st with hub := opRegRead h address count st.hub }
def execRegWrite (h : Hdr) (address : W32) (words : List W32) (st : State) : Host.Outcome State Fault Refusal :=
  .next { st with hub := opRegWrite h address words st.hub }

end Sys2Proof.Machine
end

