-- ==== Sys2Proof/Machine/Replay.lean ====
section
/-! DEFINITION. REPLAY and REPLAY_STATUS (R285 to R289), and POSTING_WRITE, which also ends the runs of a
replay (R283, R286). -/

namespace Sys2Proof.Machine

/-! ### Checks (R285) -/

/-- Free sounding numbers, highest first. -/
def Hub.freeSoundings (h : Hub) : List Nat := ((List.range 256).reverse).filter fun s => !(h.sounding s).armed

/-- The spares named. -/
def replaySpares (p : ReplaySpec) : List UnitId := if p.spare1 = 0xFFFF then [p.spare0] else [p.spare0, p.spare1]

/-- Octets of the output, and the scratch base of spare `k` (R285). -/
def replayOutBytes (p : ReplaySpec) : Nat := rangeBytes p.outFormat.toNat p.origElements.toNat
def replayScratch (p : ReplaySpec) (k : Nat) : Nat := p.scratch.toNat + k * ((replayOutBytes p + 4095) / 4096 * 4096)

/-- Octets of scales of `n` elements. -/
def scaleBytes (format n : Nat) : Nat := if isMx format then (n + 31) / 32 else 0

/-- A range lies in slice SRAM or external memory, and clear of the trace and the dump region. -/
def Hub.rangeGood (h : Hub) (b n : Nat) : Bool :=
  inMemory (h.chip.tier1 ++ h.chip.tier2 ++ [(h.chip.slices, 0x20000000)]) b n &&
    !(h.trace.isSet && overlap b n h.trace.base h.trace.size) && !(h.dump.isSet && overlap b n h.dump.base h.dump.size)

/-- Base and octets of an input range, and of its scales. -/
def inputSpan (r : ReplayRange) : Nat × Nat := (r.base.toNat, rangeBytes r.format.toNat r.elements.toNat)
def inputScales (r : ReplayRange) : Nat × Nat := (r.scaleBase.toNat, scaleBytes r.format.toNat r.elements.toNat)

/-- The scratch areas overlap the output, an input or their scales. -/
def scratchBad (p : ReplaySpec) : Bool :=
  let out := (p.outBase.toNat, replayOutBytes p)
  let sc := (p.outScaleBase.toNat, scaleBytes p.outFormat.toNat p.origElements.toNat)
  let spans := [out, sc] ++ p.ranges.flatMap fun r => [inputSpan r, inputScales r]
  (List.range (replaySpares p).length).any fun k =>
    spans.any fun s => decide (0 < s.2) && overlap (replayScratch p k) (replayOutBytes p) s.1 s.2

/-- A spare is at fault. -/
def Hub.spareBad (h : Hub) (p : ReplaySpec) (u : UnitId) : Bool :=
  !unitHasAgent u || u == p.origUnit || unitClass u != unitClass p.origUnit || h.retired u ||
    (let a := h.agent u
     let o := h.agent p.origUnit
     a.member && !(o.member && o.partition == a.partition)) ||
    !((List.range 4).any fun j => (h.agent u).slotFree (4 * p.origEngine.toNat + j))

/-- A power of two from 32 to 2^20 (R288). -/
def tileGood (n : Nat) : Bool := (List.range 21).any fun k => decide (5 ≤ k) && n == 2 ^ k

/-- The first faulty field of a range at payload offset `o`. -/
def Hub.replayRangeFault (h : Hub) (r : ReplayRange) (o : Nat) : Option Nat :=
  if (formatOf r.format.toNat).isNone then some (o + 28)
  else if !h.rangeGood (inputSpan r).1 (inputSpan r).2 then some o
  else if isMx r.format.toNat && !h.rangeGood (inputScales r).1 (inputScales r).2 then some (o + 8)
  else none

/-- The first faulty field of REPLAY's payload. -/
def Hub.replayFault (h : Hub) (p : ReplaySpec) : Option Nat :=
  let outGood := (formatOf p.outFormat.toNat).isSome
  if !outGood then some 71
  else if ((List.range (replaySpares p).length).any fun k => !h.rangeGood (replayScratch p k) (replayOutBytes p)) ||
      scratchBad p then some 40
  else if !h.rangeGood p.outBase.toNat (replayOutBytes p) then some 48
  else if isMx p.outFormat.toNat && !h.rangeGood p.outScaleBase.toNat (scaleBytes p.outFormat.toNat p.origElements.toNat) then
    some 56
  else if !unitHasAgent p.origUnit then some 64
  else if h.spareBad p p.spare0 then some 66
  else if p.spare1 ≠ 0xFFFF ∧ h.spareBad p p.spare1 then some 68
  else if tapEngines p.origUnit ≤ p.origEngine.toNat then some 70
  else if 1 < p.options.toNat then some 72
  else if p.ranges.isEmpty ∨ 4 < p.ranges.length then some 73
  else if p.options.getLsbD 0 ∧ !tileGood p.tile.toNat then some 76
  else if 256 < p.descriptor.length then some 80
  else (List.range p.ranges.length).findSome? fun i =>
    match p.ranges[i]? with
    | some r => h.replayRangeFault r (88 + 32 * i)
    | none => none

/-! ### Verdicts (Table 11-9) -/

/-- VERDICT as the reply carries it: 1 MISMATCH, 2 ORIGINAL_SUSPECT, 3 SPARE_SUSPECT, 4 UNRESOLVED, 0 none; 5
MATCH, 6 INPUT_CHANGED and 7 REFUSED are the model's numbers for codes the spec does not give. -/
def verdictByte (v : Nat) : Byte := if v < 5 then BitVec.ofNat 8 v else Config.verdictCode (v - 5)

/-- The body of REPLAY and REPLAY_STATUS (Table 16-5). -/
def ReplayStat.bytes (r : ReplayStat) : List Byte :=
  let run (k : Nat) : W64 × Nat := r.runs.getD k (0, 0)
  let b := [verdictByte r.verdict, r.flags, BitVec.ofNat 8 r.tiles.length, BitVec.ofNat 8 r.inputs.length]
  let b := b |> put 4 r.candSeq.toNat |> put 8 (run 0).1.toNat |> put 4 (run 0).2 |> put 8 (run 1).1.toNat |> put 4 (run 1).2
  let b := r.inputs.foldl (fun b d => put 8 d.toNat b) (padTo 8 b)
  (List.range 16).foldl (fun b i => put 4 (r.tiles.getD i 0) b) b

/-- The verdict of the runs. -/
def replayVerdict (p : ReplaySpec) (l : List (W64 × Nat)) : Nat :=
  let orig := (p.origDigest, p.origElements.toNat)
  match l with
  | [a] => if a = orig then 5 else 1
  | [a, b] => if a = orig ∧ b = orig then 5 else if a = orig ∨ b = orig then 3 else if a = b then 2 else 4
  | _ => 0

/-- The differing spare of SPARE_SUSPECT. -/
def suspectSpare (p : ReplaySpec) (l : List (W64 × Nat)) : UnitId :=
  match l with
  | a :: _ => if a = (p.origDigest, p.origElements.toNat) then p.spare1 else p.spare0
  | [] => p.spare0

/-- The digest of an input range. -/
def Hub.inputDigest (h : Hub) (m : SMap Byte) (key : List Byte) (r : ReplayRange) : W64 :=
  h.rangeDigest m key r.format.toNat r.base.toNat r.scaleBase.toNat 0 r.elements.toNat

/-- Read the input digests in order, up to the first that differs from EXPECT; whether all agree. -/
def Hub.readInputs (h : Hub) (m : SMap Byte) (key : List Byte) : List ReplayRange → List W64 × Bool
  | [] => ([], true)
  | r :: rs =>
    let d := h.inputDigest m key r
    if d ≠ r.expect then ([d], false) else
    let x := h.readInputs m key rs
    (d :: x.1, x.2)

/-- End REPLAY with its verdict. -/
def Hub.endReplay (h : Hub) (st : ReplayStat) : Hub := { h with replayStat := st }.conclude .ok st.bytes

/-! ### Bisection (R288) -/

/-- Differing tiles among `n` tiles from `first` on, by halving: digests of the whole are known for the original
and the reference; `dig w a k` reads the digest of `k` elements from element `a`. By fuel. -/
def bisect (dig : Bool → Nat → Nat → W64) (tile elements : Nat) : Nat → Nat → Nat → W64 → W64 → List Nat
  | 0, _, _, _, _ => []
  | f + 1, first, n, dO, dR =>
    if dO = dR then [] else if n ≤ 1 then [first] else
    let k := n / 2
    let cnt := min (k * tile) (elements - first * tile)
    let lo := dig false (first * tile) cnt
    let lr := dig true (first * tile) cnt
    bisect dig tile elements f first k lo lr ++ bisect dig tile elements f (first + k) (n - k) (dO - lo) (dR - lr)

/-- The contents of an input range: its elements' octets, then its scale bytes. -/
def Hub.inputContents (h : Hub) (m : SMap Byte) (r : ReplayRange) : List Byte :=
  h.chipBytes m (inputSpan r).1 (inputSpan r).2 ++ h.chipBytes m (inputScales r).1 (inputScales r).2

/-- SOURCE of the original engine (Table 1-4): the engine's 64-bit identifier. -/
def Hub.globalSource (h : Hub) (u : UnitId) (e : Nat) : W64 :=
  BitVec.ofNat 64 (b2n h.ident.assigned * 2 ^ 36 + h.shownChip * 2 ^ 20 + (sourceOf u e).toNat)

/-- Bisect, and capture the candidate. The reference is spare 0: where the spares agree neither differs from the other, and
otherwise it is spare 0 by the rule. Its digest and element count are those of its run (R288). -/
def Hub.bisectReplay (h : Hub) (m : SMap Byte) (run : ReplayRun) (st : ReplayStat) : Hub :=
  let p := run.spec
  let n := p.origElements.toNat
  let fm := p.outFormat.toNat
  let ref := replayScratch p 0
  let refRun := run.results.headD (0, 0)
  let dig (isRef : Bool) (a k : Nat) : W64 :=
    if isRef then h.rangeDigest m run.key fm ref (ref + p.outScaleBase.toNat - p.outBase.toNat) a k
    else h.rangeDigest m run.key fm p.outBase.toNat p.outScaleBase.toNat a k
  if dig false 0 n ≠ p.origDigest then h.endReplay { st with flags := 1 } else
  let t := p.tile.toNat
  let refDigest := dig true 0 n
  let tiles := (bisect dig t n 40 0 ((n + t - 1) / t) p.origDigest refDigest).take 16
  let total := (p.ranges.map fun r => (inputSpan r).2 + (inputScales r).2).foldl (· + ·) 0
  if 0x400000 < total then h.endReplay { st with flags := 2, tiles := tiles }
  else if tiles.isEmpty then h.endReplay st
  else
    let t0 := tiles.headD 0
    let c : Candidate :=
      { seq := 0, source := h.globalSource p.origUnit p.origEngine.toNat, capturePt := h.pt, epoch := p.epoch,
        verdict := st.verdict, outFormat := p.outFormat, key := run.key, tile := t, refElements := refRun.2,
        refDigest := refRun.1, refTileDigest := dig true (t0 * t) (min t (n - t0 * t)), tiles := tiles,
        descriptor := p.descriptor, ranges := p.ranges, contents := p.ranges.map fun r => h.inputContents m r,
        outScaleBase := if isMx fm then p.outScaleBase else 0 }
    let r := h.keepCandidate c
    r.2.endReplay { st with tiles := tiles, candSeq := r.1.getD 0 }

/-! ### Runs -/

/-- The verdict is decided: the taint notice, the fault event, the bisection and the reply. A reaction to the
event may discard the command itself (R290). -/
def Hub.decideReplay (h : Hub) (m : SMap Byte) (run : ReplayRun) (inputs : List W64) : Hub :=
  let p := run.spec
  let v := replayVerdict p run.results
  let st : ReplayStat := { verdict := v, runs := run.results, inputs := inputs }
  let h := { h with replayStat := st }
  if v = 5 then h.endReplay st else
  let u := if v = 3 then suspectSpare p run.results else p.origUnit
  let since := if p.suspectFrom = 0 then p.origBeginPt.toNat else min p.origBeginPt.toNat p.suspectFrom.toNat
  let h := if v = 3 then h else
    h.decideTaint { origin := 2, epochStale := false, merged := false, held := false, epoch := p.epoch, earliest := since,
                    source := ordinalOf p.origUnit, unit := p.origUnit, decidedPt := h.pt }
  let h := h.raise (ordinalOf u) u (0xD1000000 + v)
  if h.slot.isNone then h
  else if v ≠ 3 ∧ p.options.getLsbD 0 then h.bisectReplay m run st
  else h.endReplay st

/-- Arm the replay sounding of the spare that is next; its run is requested once it is armed. -/
def Hub.armReplay (h : Hub) (hdr : Hdr) (run : ReplayRun) (u : UnitId) : Hub :=
  let p := run.spec
  let s := run.numbers.getD run.now 0
  let spec : SoundingSpec :=
    { number := BitVec.ofNat 8 s, tapMask := BitVec.twoPow 8 (tapBit (unitClass u) p.origEngine.toNat), format := p.outFormat,
      ctrl := 0, stats := 0x20, expBase := 0, shifts := 0, scaleBase := 0, depth := 1, persist := 0,
      scope := { scope := 3, sel := 0, units := [u] }, periodUs := 0,
      selA := (Config.descriptorTag p.descriptor).setWidth 64, selB := 0xFFFFFFFF, tc := 0 }
  let ctrl := soundCtrl 0 false true
  let on := [u].filter fun v => h.answers v
  let tc := h.commitAt on
  let slot := slotNumber ((h.agent u).slotsTaken u spec.tapMask)
  let h := h.stageAll on fun v => (h.agent v).soundWrites v spec.tapMask (soundEntry spec ctrl run.key)
  let h := ((h.powerDomains [4, 5, 18, 12, 13]).maskFor 4 .mask [u]).commit .mask tc 2
  let x : Sounding :=
    { armed := true, format := p.outFormat, ctrl := ctrl, stats := 0x20, tapMask := spec.tapMask, scope := .mask,
      units := [u], owner := hdr.session, persist := true, key := run.key, depth := 1, tc := tc, lastPt := tc, slot := slot }
  (h.setSounding s x).setProg (.replay { run with armAt := some tc })

/-- The next run, or after the last one the input check and the verdict. -/
def Hub.nextReplay (h : Hub) (m : SMap Byte) (hdr : Hdr) (run : ReplayRun) : Hub :=
  match run.spares[run.now]? with
  | some u => h.armReplay hdr run u
  | none =>
    let r := h.readInputs m run.key run.spec.ranges
    if r.2 then h.decideReplay m run r.1
    else h.endReplay { verdict := 6, runs := run.results, inputs := r.1 }

/-- REPLAY (R285). It takes sounding numbers that are free and have room in the rings; with none it ends with BAD_STATE
(log entry 158). -/
def opReplay (hdr : Hdr) (p : ReplaySpec) (m : SMap Byte) (h : Hub) : Hub :=
  h.icp 0x0705 hdr fun h =>
    let spares := replaySpares p
    let numbers := (h.freeSoundings.filter fun s => decide (h.depthUsed s + spares.length ≤ 1024)).take spares.length
    if h.measuring || decide (numbers.length < spares.length) then h.badState 0x0705 hdr else
    match h.replayFault p with
    | some o => h.badArg 0x0705 hdr o
    | none =>
      let run : ReplayRun := { spec := p, key := ((h.session hdr.session).map (·.soundKey)).getD (zeros 16),
                               spares := spares, numbers := numbers }
      let r := h.readInputs m run.key p.ranges
      let h := (h.powerDomains [19, 20]).occupy 0x0705 hdr (.replay run)
      if r.2 then h.nextReplay m hdr { run with inputs := r.1 }
      else h.endReplay { verdict := 6, inputs := r.1 }

def opReplayStatus (hdr : Hdr) (h : Hub) : Hub := h.icp 0x0706 hdr fun h => h.ok 0x0706 hdr h.replayStat.bytes

/-- Once the replay sounding is armed, its run is requested (R286). -/
def Hub.requestReplay (h : Hub) : Hub :=
  match h.slot with
  | some ⟨_, _, _, _, .replay run, _, _, _, _, _, _, _, _⟩ =>
    match run.armAt with
    | none => h
    | some t =>
      if h.pt < t then h
      else (h.setProg (.replay { run with armAt := none })).feReissue (run.spares.getD run.now 0) run.spec.origEngine.toNat
        (replayScratch run.spec run.now) run.spec.descriptor
  | _ => h

/-- Replay soundings whose REPLAY no longer executes are cleared (R290); in the safe state slots stand. -/
def Hub.clearReplays (h : Hub) : Hub :=
  let running := match h.slot with | some ⟨_, _, _, _, .replay _, _, _, _, _, _, _, _, _⟩ => true | _ => false
  if running || h.fc.safe || !h.accepting then h else
  (h.soundings.filter fun p => p.2.armed && p.2.ctrl.getLsbD 3 && p.2.td.isNone).foldl
    (fun h p => h.clearSounding p.1 0) h

/-- The front end has refused a run: the verdict is REFUSED. -/
def Hub.replayRefused (h : Hub) (run : ReplayRun) : Hub :=
  let s := run.numbers.getD run.now 0
  (h.clearSounding s 0).endReplay { verdict := 7, runs := run.results, inputs := run.inputs }

/-- A spare's run has ended: its sounding is posted 200 ns later. -/
def Hub.replayRunEnded (h : Hub) (run : ReplayRun) : Hub :=
  let s := run.numbers.getD run.now 0
  h.setSounding s { h.sounding s with postAt := some (h.pt + 200) }

/-- The posting of a replay sounding is written: d and n of the spare; the sounding is cleared, and the next step
follows (R286). The final posting that the clear makes decides nothing. -/
def Hub.replayPosted (h : Hub) (m : SMap Byte) (s : Nat) (p : Posting) : Hub :=
  match h.slot with
  | some ⟨_, hdr, _, _, .replay run, _, _, _, _, _, _, _, _⟩ =>
    if run.numbers.getD run.now 0 ≠ s ∨ p.final then h else
    let word (w : Nat) : BitVec 320 := ((mapFind p.words w).map fun r => r.value).getD 0
    let d : W64 := BitVec.ofNat 64 (lane (word 10) 0)
    let run := { run with results := run.results ++ [(d, lane (word 0) 0)], now := run.now + 1 }
    ((h.clearSounding s 0).setProg (.replay run)).nextReplay m hdr run
  | _ => h

/-- POSTING_WRITE (R283). -/
def opPostingWrite (sounding : Nat) (m : SMap Byte) (h : Hub) : Hub :=
  let x := h.sounding sounding
  match x.posting with
  | none => h
  | some p =>
    if h.fc.safe || !p.todo.isEmpty || decide (p.words.length ≠ (wordsFor x.stats).length) then h
    else
      let h := h.writePosting sounding x p
      if x.ctrl.getLsbD 3 then h.replayPosted m sounding p else h

/-! ### Meanings -/

def execReplay (h : Hdr) (p : ReplaySpec) (st : State) : Host.Outcome State Fault Refusal :=
  .next { st with hub := opReplay h p st.mem st.hub }
def execReplayStatus (h : Hdr) (st : State) : Host.Outcome State Fault Refusal :=
  .next { st with hub := opReplayStatus h st.hub }
def execPostingWrite (sounding : Nat) (st : State) : Host.Outcome State Fault Refusal :=
  .next { st with hub := opPostingWrite sounding st.mem st.hub }

end Sys2Proof.Machine
end

