-- ==== Sys2Proof/Machine/Results.lean ====
section
/-! DEFINITION. What becomes of a combine's result (R111), and of a request no agent answers (R113). -/

namespace Sys2Proof.Machine

/-! ### COMBINE_RESULT (R111) -/

/-- A word of a posting is in; the next ones are issued as slots are free (R280 to R282). -/
def Hub.postingWord (h : Hub) (s w : Nat) (r : Reduced) : Hub :=
  let x := h.sounding s
  match x.posting with
  | none => h
  | some p => h.setSounding s { x with posting := some { p with words := mapInsert p.words w r } }

/-- The executing command waits for the COLLECTs that confirm it. -/
def Hub.noteResult (h : Hub) (f : Exec → Exec) : Hub := { h with slot := h.slot.map f }

/-- RESUME has its counts: the reply (R181). -/
def Hub.resumeDone (h : Hub) (r : Reduced) : Hub :=
  match h.slot with
  | some e =>
    match e.prog with
    | .resume t => h.conclude .ok ([] |> put 8 t |> put 8 (r.value.toNat % 2 ^ 64) |> put 2 e.lateCount)
    | _ => h
  | none => h

/-- STOP_CANCEL has its counts. -/
def Hub.cancelDone (h : Hub) (r : Reduced) : Hub :=
  match h.slot with
  | some e => if e.prog = .cancel then h.conclude .ok (le 8 (r.value.toNat % 2 ^ 64)) else h
  | none => h

/-- Hand a result to the block that issued the COLLECT. -/
def Hub.handResult (h : Hub) (c : Combine) (r : Reduced) : Hub :=
  match c.issuer with
  | .states => { h with stops.newest := h.stops.newest.map fun (n : StopInfo) => { n with states := some r } }
  | .valid => { h with stops.newest := h.stops.newest.map fun (n : StopInfo) => { n with valid := some r } }
  | .cancelled => h.cancelDone r
  | .gated => h.noteResult fun e => { e with states := some r }
  | .shadows => h.noteResult fun e => { e with valid := some r }
  | .standing => h.stepJudged c r
  | .resumed => h.resumeDone r
  | .freeze => h.noteResult fun e => { e with states := some r }
  | .aggregate => h.completeAggregate c r
  | .posting s w => h.postingWord s w r
  | .probe n => h.probeLoaded n r
  | .probeFreeze => h
  | .multicast =>
    { h with dcn.mcasts := h.dcn.mcasts.map fun (m : Mcast) => if m.tag = c.tag then { m with combined := true } else m }

/-- COMBINE_RESULT: the slot and its TAG are free, and the issuer has the result. -/
def opCombineResult (tag : Byte) (h : Hub) : Hub :=
  match h.combine tag with
  | none => h
  | some c =>
    match c.result with
    | none => h
    | some r => (h.endCombine tag).handResult c r

/-! ### Answers to requests, and ACCESS_TIMEOUT (R113) -/

/-- Run again a command that waited for several agents. -/
def Hub.againAll (h : Hub) (i : Instr) : Hub :=
  match i with
  | .counterRead hdr which sb =>
    let sc := scopeOf sb (h.session hdr.session)
    h.readWindows hdr which.toNat sc.1 sc.2
  | .counterSnapshotRead hdr sb => h.observerSnapshots hdr (scopeOf sb (h.session hdr.session)).1
  | .counterClear hdr sb =>
    let sc := scopeOf sb (h.session hdr.session)
    h.runCounterClear hdr sc.1 sc.2
  | .traceConfig hdr tc entries => h.runTraceConfig hdr tc entries
  | .soundingSet hdr p => h.runSoundingSet hdr p
  | _ => h

/-- Perform an access to a unit whose agent answers now; who may read it is tested as it is addressed (R26). -/
def Hub.again (h : Hub) (u : UnitId) (i : Instr) : Hub :=
  match i with
  | .inspectRead hdr _ space off len =>
    h.checkedRead 0x0308 hdr u space off.toNat len.toNat fun h => h.runInspectRead hdr u space off.toNat len.toNat
  | .inspectWrite hdr _ space off data => h.runInspectWrite hdr u space off.toNat data
  | .stepCommand hdr ts _ engine limit => h.startCommandStep hdr ts u engine.toNat limit.toNat
  | .regRead hdr a n =>
    h.checkedRead 0x0E00 hdr u 0 (a.toNat % 0x1000) (4 * n.toNat) fun h => h.runRegRead hdr u (a.toNat % 0x1000) n.toNat
  | .regWrite hdr a ws => h.runRegWrite hdr u (a.toNat % 0x1000) ws
  | _ => h.againAll i

/-- An output that carries a reply. -/
def Out.isReply (o : Out) : Bool := match o with | .reply _ => true | .frame b => b.headD 0 == 1 | _ => false

/-- The rest of a command whose access is answered now: its receipt counts as it was, and a discarded reply stays
discarded (R41). -/
def Hub.goOn (h : Hub) (e : Exec) (u : UnitId) (i : Instr) : Hub :=
  let r := { h with slot := none }.again u i
  let r := { r with slot := r.slot.map fun (x : Exec) => { x with startPt := e.startPt, transport := e.transport, mute := e.mute } }
  if !e.mute then r else
  { r with port := h.port, tap := h.tap,
           out := h.out ++ (r.out.drop h.out.length).filter fun o => !o.isReply }

/-- One agent less that a command waits for; with none left it is run. -/
def Hub.gathered (h : Hub) (e : Exec) (us : List UnitId) (u : UnitId) (i : Instr) : Hub :=
  let l := us.filter fun v => v != u
  if l.isEmpty then h.goOn e u i else h.setProg (.gather l i)

/-- The executing command, as a unit's agent has answered its request, or has not answered at all. -/
def Hub.accessOutcome (h : Hub) (u : UnitId) (answered : Bool) : Hub :=
  match h.slot with
  | none => h
  | some e =>
    match e.prog with
    | .access v i =>
      if v ≠ u then h else if answered then h.goOn e u i else h.conclude .unreachable (unitsBody [u])
    | .gather us i => if us.contains u then h.gathered e us u i else h
    | _ => h

/-- A multicast ends when every agent it addressed has taken the data or been reported (R118). -/
def Hub.endMcasts (h : Hub) : Hub :=
  let done := h.dcn.mcasts.filter fun m => m.sent && m.waiting.isEmpty
  done.foldl (fun h m => h.emit (.multicast m.tag m.lost))
    { h with dcn.mcasts := h.dcn.mcasts.filter fun m => !(m.sent && m.waiting.isEmpty) }

/-- The octets of a bulk packet's body. -/
def bulkBytes (data : List W64) : List Byte := data.flatMap fun w => le 8 w.toNat

/-- A unicast BULK_WR at the agent. A write to the staging buffer while a COMMIT is being applied waits in the agent's
link slots until the apply ends; it is never refused (R114, R127). Its answer is a REG_RSP. -/
def Hub.unicastWrite (h : Hub) (u : UnitId) (tag : Byte) (addr : Nat) (data : List Byte) : Hub :=
  if h.pt < (h.agent u).applyUntil ∧ 0x18000 ≤ addr ∧ addr < 0x19000 then
    h.modAgent u fun a => { a with held := a.held ++ [{ tag := tag, address := addr, data := data }] }
  else
    let r := h.bulkWrite u addr data
    (r.2.emit (.regRsp u tag r.1.code 0)).inject (.agent u) (rspPkt u tag r.1.code 0)

/-- A multicast's retry at an agent that answers takes all its packets; one that does not answer is reported (R118). -/
def Hub.mcastOutcome (h : Hub) (u : UnitId) (answered : Bool) : Hub :=
  let mine := h.dcn.mcasts.filter fun m => m.waiting.contains u
  let step (m : Mcast) : Mcast :=
    if m.waiting.contains u then
      { m with waiting := m.waiting.filter fun v => v != u, took := if answered then m.took ++ [u] else m.took,
               lost := if answered then m.lost else m.lost ++ [u] }
    else m
  let h := { h with dcn.mcasts := h.dcn.mcasts.map step }
  let h := if answered then
      mine.foldl (fun h m => m.packets.foldl (fun h p => h.unicastWrite u m.tag (8 * p.1) (bulkBytes p.2)) h) h
    else h
  h.endMcasts

/-- What waited for a unit's answer goes on. -/
def Hub.outcome (h : Hub) (u : UnitId) (answered : Bool) : Hub := (h.accessOutcome u answered).mcastOutcome u answered

/-- A reply at the root: matched by TAG and UNIT it ends its transaction (R97); POWERING counts as no answer at the ICP
level (R140). -/
def Hub.replyIn (h : Hub) (u : UnitId) (tag : Byte) (powering : Bool) : Hub :=
  if h.dcn.txns.any fun t => t.tag == tag && t.unit == u then
    (h.dropTxns fun t => t.tag == tag && t.unit == u).outcome u !powering
  else h

/-- ACCESS_TIMEOUT: 2 us after a request left the root. The first one sends it once more with a fresh TAG, which the
agent may answer now; the second reports UNREACHABLE, and the agent becomes Unreachable (R113, R121). A unit retired in
the meantime is sent nothing, and is Absent (R30). -/
def opAccessTimeout (tag : Byte) (h : Hub) : Hub :=
  match h.dcn.txns.find? fun t => t.tag == tag with
  | none => h
  | some t =>
    if h.pt < t.sentPt + 2000 then h else
    let n := h.dropTxns fun x => x.tag == tag
    if h.retired t.unit then n.outcome t.unit false
    else if 2 ≤ t.tries then (n.modAgent t.unit fun a => { a with unreachable := a.powered }).outcome t.unit false
    else if h.answers t.unit then n.outcome t.unit true
    else n.sendRequest 2 t.request

/-! ### Meanings -/

def execCombineResult (tag : Byte) (st : State) : Host.Outcome State Fault Refusal :=
  .next { st with hub := opCombineResult tag st.hub }
def execAccessTimeout (tag : Byte) (st : State) : Host.Outcome State Fault Refusal :=
  .next { st with hub := opAccessTimeout tag st.hub }

end Sys2Proof.Machine
end

