-- ==== Sys2Proof/Machine/Access.lean ====
section
/-! DEFINITION. Accesses at the agents (R113, R114, R126, R127), and bulk multicast (R117, R118). -/

namespace Sys2Proof.Machine

/-! ### Unicast accesses -/

/-- A packet from the root reaches the unit's agent; a retired one is sent none (R30). -/
def Hub.reaches (h : Hub) (u : UnitId) : Bool := unitHasAgent u && !h.retired u && (h.agent u).powered && h.pathUp u

/-- An agent answers with a REG_RSP (Table 4-9), which the root matches by TAG and UNIT. -/
def Hub.respond (h : Hub) (u : UnitId) (tag : Byte) (status : Access) (data : W32) : Hub :=
  ((h.emit (.regRsp u tag status.code data)).inject (.agent u) (rspPkt u tag status.code data)).replyIn u tag
    (status == .powering)

/-- An agent answers with BULK_DATA. -/
def Hub.respondBulk (h : Hub) (u : UnitId) (tag : Byte) (status : Access) (data : List W64) : Hub :=
  ((h.emit (.bulkData u tag status.code data)).inject (.agent u) (bulkDataPkt u tag status.code data)).replyIn u tag
    (status == .powering)

/-- REG_ACCESS: a REG_RD or REG_WR at the agent. -/
def opRegAccess (unit : UnitId) (tag : Byte) (write : Bool) (offset : BitVec 10) (data : W32) (h : Hub) : Hub :=
  if !h.reaches unit then h
  else if (h.agent unit).powering then h.respond unit tag .powering 0
  else if write then
    let r := h.writeReg unit (4 * offset.toNat) data
    r.2.respond unit tag r.1 0
  else
    let r := (h.agent unit).readReg unit h.pt (4 * offset.toNat)
    (h.setAgent unit r.2.2).respond unit tag r.1 r.2.1

/-- BULK_READ: a BULK_RD of 1 to 32 words. A unit that powers down answers with the one word of zero that Table 5-17
asks for at least. -/
def opBulkRead (unit : UnitId) (tag : Byte) (address : BitVec 17) (words : Nat) (h : Hub) : Hub :=
  if !h.reaches unit || decide (words = 0) || decide (32 < words) then h
  else if (h.agent unit).powering then h.respondBulk unit tag .powering [0]
  else
    let r := h.bulkRead unit (8 * address.toNat) (8 * words)
    r.2.2.respondBulk unit tag r.1 (words64 r.2.1)

/-- Writes that waited in an agent's link slots are performed and answered once the apply has ended (R127). -/
def Hub.performHeld (h : Hub) (u : UnitId) : Hub :=
  let a := h.agent u
  if a.held.isEmpty || decide (h.pt < a.applyUntil) then h else
  a.held.foldl (fun h w =>
    let r := h.bulkWrite u w.address w.data
    r.2.respond u w.tag r.1 0) (h.setAgent u { a with held := [] })

/-! ### Multicast (R117) -/

/-- A multicast addresses an agent: SCOPE 0 the chip, 1 a half, 2 a partition; 3 none (Table 4-4). -/
def Hub.mcastScope (h : Hub) (m : McastArg) (u : UnitId) : Bool :=
  match m.scope.toNat with
  | 0 => true
  | 1 => halfOf u == m.half
  | 2 => h.memberOf u m.partition
  | _ => false

/-- The multicast with its combine that a first packet under a free TAG opens, while a combine slot is free (R97,
R111). -/
def Hub.openMcast (h : Hub) (tag : Byte) (m : McastArg) : Hub :=
  if (h.dcn.mcasts.any fun x => x.tag == tag) || (h.dcn.tagsOut h.pt).contains tag || !h.collectRoom .multicast then h
  else
    let us := h.notAbsent.filter fun u => h.mcastScope m u
    let sc : Scope := match m.scope.toNat with
      | 0 => .chip
      | 1 => .half m.half
      | _ => .part m.partition
    h.beginMcast sc { tag := tag, scope := sc, packets := [], addressed := us }

/-- A packet of a multicast, noted once. -/
def Mcast.packet (m : Mcast) (address : Nat) (data : List W64) : Mcast :=
  if m.packets.contains (address, data) then m else { m with packets := m.packets ++ [(address, data)] }

def Hub.modMcast (h : Hub) (tag : Byte) (f : Mcast → Mcast) : Hub :=
  { h with dcn.mcasts := h.dcn.mcasts.map fun m => if m.tag = tag then f m else m }

def Hub.mcast (h : Hub) (tag : Byte) : Option Mcast := h.dcn.mcasts.find? fun m => m.tag == tag

/-- One packet of a multicast at an agent it addresses: it takes the data, all of it with the last packet, or refuses the
whole multicast with one notice. A unit that powers down refuses without a notice (Table 5-17). -/
def Hub.multicastAt (h : Hub) (u : UnitId) (tag : Byte) (arg : McastArg) (address : Nat) (data : List W64) : Hub :=
  let h := (h.openMcast tag arg).modMcast tag fun m => m.packet address data
  match h.mcast tag with
  | none => h
  | some m =>
    if !m.addressed.contains u then h else
    let a := h.agent u
    let refuses := a.powering || (a.refuses h.pt).isSome
    let before := m.refused.contains u
    let h := if before then h
      else if refuses then
        let h := h.modMcast tag fun m => { m with took := m.took.filter fun v => v != u, refused := m.refused ++ [u] }
        match a.powering, a.refuses h.pt with
        | false, some why => h.modAgent u fun a => a.refusal u h.pt tag why
        | _, _ => h
      else
        let h := (h.bulkWrite u (8 * address) (bulkBytes data)).2
        if !arg.last then h
        else h.modMcast tag fun m => if m.took.contains u then m else { m with took := m.took ++ [u] }
    if arg.last then h.contribute u tag (b2n (!before && !refuses)) else h

/-- BULK_WRITE: a BULK_WR of 1 to 32 words. -/
def opBulkWrite (unit : UnitId) (tag : Byte) (mcast : Option McastArg) (address : BitVec 17) (data : List W64) (h : Hub) : Hub :=
  let addr := 8 * address.toNat
  if !h.reaches unit || data.isEmpty || decide (32 < data.length) then h else
  match mcast with
  | some m => h.multicastAt unit tag m address.toNat data
  | none =>
    if (h.agent unit).powering then h.respond unit tag .powering 0
    else (h.unicastWrite unit tag addr (bulkBytes data)).replyIn unit tag false

/-- The first packet of a multicast's retry to an agent. -/
def Mcast.retryPkt (m : Mcast) (u : UnitId) : Pkt :=
  let p := m.packets.headD (0, [0])
  bulkWrPkt u 0 (BitVec.ofNat 17 p.1) p.2

/-- MULTICAST_COMPLETE: after its combine, addressed agents that refused or are missing get the data by unicast; one that
does not answer gets its request again (R113), and is reported. The transfer ends when every one has taken the data or
been reported (R118). -/
def opMulticastComplete (tag : Byte) (h : Hub) : Hub :=
  match h.mcast tag with
  | none => h
  | some m =>
    if !m.combined || m.sent then h else
    let left := m.addressed.filter fun u => !m.took.contains u
    let absent := left.filter fun u => !h.answers u && !h.silent u
    let silent := left.filter fun u => h.silent u
    let h := h.modMcast tag fun m => { m with sent := true, waiting := left.filter fun u => !absent.contains u, lost := absent }
    let h := (left.filter fun u => h.answers u).foldl (fun h u => h.mcastOutcome u true) h
    (silent.foldl (fun h u => h.sendRequest 1 (m.retryPkt u)) h).endMcasts

/-! ### Meanings -/

def execRegAccess (unit : UnitId) (tag : Byte) (write : Bool) (offset : BitVec 10) (data : W32) (st : State) :
    Host.Outcome State Fault Refusal :=
  .next { st with hub := opRegAccess unit tag write offset data st.hub }
def execBulkRead (unit : UnitId) (tag : Byte) (address : BitVec 17) (words : Nat) (st : State) :
    Host.Outcome State Fault Refusal :=
  .next { st with hub := opBulkRead unit tag address words st.hub }
def execBulkWrite (unit : UnitId) (tag : Byte) (mcast : Option McastArg) (address : BitVec 17) (data : List W64) (st : State) :
    Host.Outcome State Fault Refusal :=
  .next { st with hub := opBulkWrite unit tag mcast address data st.hub }
def execMulticastComplete (tag : Byte) (st : State) : Host.Outcome State Fault Refusal :=
  .next { st with hub := opMulticastComplete tag st.hub }

end Sys2Proof.Machine
end

