-- ==== Sys2Proof/Machine/Bench.lean ====
section
/-! DEFINITION. The bench triggers (R49 to R51, R431, R432). -/

namespace Sys2Proof.Machine

/-- An edge counts: low before it and high after it long enough, longer while asleep (R49). -/
def Hub.edgeCounts (h : Hub) (lowNs highNs : Nat) : Bool :=
  let n := if h.asleep then 80 else 20
  decide (n ≤ lowNs) && decide (n ≤ highNs)

/-- It comes less than 1 us after the previous counted edge. -/
def Hub.edgeEarly (h : Hub) : Bool :=
  (decide (h.trig.inCount ≠ 0) || decide (h.trig.inPt ≠ 0)) && decide (h.pt < h.trig.inPt + 1000)

/-- The Mark or the trigger of a counted edge, while the collectors are on (Table 19-6). -/
def Hub.edgeMark (h : Hub) : Hub :=
  let c := h.trig.inCtrl
  if !(h.domainOn 6 && h.domainOn 7) then h
  else if c.getLsbD 1 then h.triggerOrMark (h.pt + 1000) h.trig.inCount 2 0
  else if c.getLsbD 0 then h.mark (h.pt + 1000) h.trig.inCount 2 0 false
  else h

/-- The active Abutment and the DCN are on. -/
def Hub.canIssue (h : Hub) : Bool := h.accepting && h.domainOn 4 && h.domainOn 5

/-- The FREEZE, which is confirmed without a reply (R257), then the STOP, of a counted edge. -/
def Hub.edgeIssue (h : Hub) : Hub :=
  let c := h.trig.inCtrl
  let h := if c.getLsbD 2 && h.canIssue then h.issueFreeze (h.issueAt 1 + 200) 0 .chip [] true else h
  if !c.getLsbD 3 || !h.canIssue then h
  else if h.inBlankOrTest then h.stopWithoutReply 0
  else { h with trig.inDenied := sat32 (h.trig.inDenied + 1) }

/-- POD_TRIG_IN_EDGE: edges are ignored before Ready (Table 2-1); a rising edge with how long the input was low before it and stays high after it. -/
def opPodTrigInEdge (lowNs highNs : Nat) (h : Hub) : Hub :=
  if h.power.startUp ≠ .ready ∨ h.edgeCounts lowNs highNs = false then h
  else if h.edgeEarly then { h with trig.inOverrun := sat32 (h.trig.inOverrun + 1) }
  else
    let h := { h with trig := { h.trig with inCount := h.trig.inCount + 1, inPt := h.pt } }
    if h.asleep then h else h.edgeMark.edgeIssue

/-- A pulse can start for an instant: it lies within 5 ns (R51). -/
def Hub.near (h : Hub) (t : Nat) : Bool := decide (t ≤ h.pt + 5) && decide (h.pt ≤ t + 5)

/-- An event of R432 has its instant now, within 5 ns: a stop that stands; the STEP issued; the end of the latest cycle
step; a FREEZE issued; a trigger's Mark; any Mark; a record opening; the entry to the safe state. -/
def Hub.eventNow (h : Hub) (event : Nat) : Bool :=
  let issued (cls : Nat) := h.dcn.issued.any fun b => b.cls == cls && h.near b.instant
  match event with
  | 0 => h.stops.standing.any fun s => h.near s.1
  | 1 => issued 2
  | 2 => h.stops.newest.any fun (n : StopInfo) => n.stepEnd.any h.near
  | 3 => issued 1
  | 4 => h.trace.marked.any fun m => m.2 && h.near m.1
  | 5 => h.trace.marked.any fun m => h.near m.1
  | 6 => h.fc.all.any fun r => h.near r.severePt
  | 7 => h.fc.safe && h.near h.fc.safePt
  | _ => false

/-- POD_TRIG_OUT_PULSE: the instant of an event of R432; a pulse in progress is extended (R51). The ball is driven
low before Ready and asleep (Table 2-1). -/
def opPodTrigOutPulse (event : Nat) (h : Hub) : Hub :=
  if !h.eventNow event || !h.trig.outCtrl.getLsbD event || decide (h.power.startUp ≠ .ready) || h.asleep then h
  else if h.trigOutHigh then { h with trig.outUntil := h.pt + 100 }
  else { h with trig := { h.trig with outUntil := h.pt + 100, outCount := sat32 (h.trig.outCount + 1) } }.emit .pulse

/-! ### Meanings -/

def execPodTrigInEdge (lowNs highNs : Nat) (st : State) : Host.Outcome State Fault Refusal :=
  .next { st with hub := opPodTrigInEdge lowNs highNs st.hub }
def execPodTrigOutPulse (event : Nat) (st : State) : Host.Outcome State Fault Refusal :=
  .next { st with hub := opPodTrigOutPulse event st.hub }

end Sys2Proof.Machine
end

