-- ==== Sys2Proof/Machine/Dump.lean ====
section
/-! DEFINITION. The dump (R185 to R213): region and registry, the phases of DUMP, the image's layout, and
reading it. -/

namespace Sys2Proof.Machine

/-! ### Region (R185 to R187) -/

/-- Octets before the image base. -/
def registryBytes : Nat := 0x1000000

/-- The size a DUMP_REGION_SET names: 0 means 1 GiB. -/
def dumpSize (n : Nat) : Nat := if n = 0 then 0x40000000 else n

def opDumpRegionSet (hdr : Hdr) (base size : W64) (h : Hub) : Hub :=
  h.icp 0x0400 hdr fun h =>
    let n := dumpSize size.toNat
    let b := base.toNat
    if b % 0x200000 ≠ 0 || !inMemory h.chip.tier2 b n || (h.trace.isSet && overlap b n h.trace.base h.trace.size) then
      h.badArg 0x0400 hdr 0
    else if n % 0x10000000 ≠ 0 ∨ n < 0x40000000 ∨ 0x100000000 < n then h.badArg 0x0400 hdr 8
    else
      let d := { h.dump with isSet := true, base := b, size := n, images := [], granules := [], registryGen := 0,
                             hasImage := false, state := false, imageBytes := 0, past := h.dump.past ++ [(h.pt, h.dump.region)] }
      { h with dump := d }.ok 0x0400 hdr []

/-! ### Registry (R201) -/

/-- Hashes of the 64 KiB granules of a memory range, with their numbers. -/
def Hub.granuleHashes (h : Hub) (m : SMap Byte) (base n : Nat) : List (List Byte × Nat) :=
  (List.range (n / 0x10000)).map fun k => (sha256 (h.chipBytes m (base + 0x10000 * k) 0x10000), k)

/-- Add granules that are not registered yet: a hash keeps its first registration (R201), counts once toward the limit, and
leaves the registry with the image that registered it first (log entry 153). -/
def addGranules (idx : Nat) (l : List (List Byte × Nat × Nat)) : List (List Byte × Nat) → List (List Byte × Nat × Nat)
  | [] => l
  | g :: gs => addGranules idx (if l.any fun x => x.1 == g.1 then l else l ++ [(g.1, idx, g.2)]) gs

def opDumpImageRegister (hdr : Hdr) (imageId : List Byte) (address length : W64) (m : SMap Byte) (h : Hub) : Hub :=
  h.icp 0x0404 hdr fun h =>
    let n := length.toNat
    if !h.dump.isSet then h.badState 0x0404 hdr
    else if !inMemory (h.chip.tier1 ++ h.chip.tier2) address.toNat n then h.badArg 0x0404 hdr 32
    else if n % 0x10000 ≠ 0 ∨ 0x100000000 < n then h.badArg 0x0404 hdr 40
    else
      match lowestFree (h.dump.images.map (·.index)) 4096 with
      | none => h.badArg 0x0404 hdr noOffset
      | some i =>
        let g := addGranules i h.dump.granules (h.granuleHashes m address.toNat n)
        if 262144 < g.length then h.badArg 0x0404 hdr noOffset
        else
          let x : DumpImage := { index := i, imageId := fit 32 imageId, length := n, granules := n / 0x10000 }
          let d := { h.dump with images := (h.dump.images.filter fun y => decide (y.index < i)) ++ [x] ++
                                   (h.dump.images.filter fun y => decide (i < y.index)),
                                 granules := g, registryGen := h.dump.registryGen + 1 }
          ({ h with dump := d }.powerDomains [19, 20, 10, 11, 4, 5, 8, 9]).ok 0x0404 hdr
            ([] |> put 2 i |> put 4 d.registryGen.toNat)

def opDumpImageRemove (hdr : Hdr) (index : W16) (h : Hub) : Hub :=
  h.icp 0x0405 hdr fun h =>
    if !(h.dump.images.any fun x => x.index == index.toNat) then h.badArg 0x0405 hdr 0 else
    let d := { h.dump with images := h.dump.images.filter fun x => x.index != index.toNat,
                           granules := h.dump.granules.filter fun g => g.2.1 != index.toNat,
                           registryGen := h.dump.registryGen + 1 }
    { h with dump := d }.ok 0x0405 hdr (le 4 d.registryGen.toNat)

/-- An IMAGE_LIST entry's 48 octets (R203). -/
def DumpImage.bytes (x : DumpImage) : List Byte :=
  le 2 x.index ++ zeros 2 ++ le 4 x.granules ++ le 8 x.length ++ fit 32 x.imageId

def opDumpImageList (hdr : Hdr) (h : Hub) : Hub :=
  h.icp 0x0406 hdr fun h =>
    h.ok 0x0406 hdr (le 4 h.dump.registryGen.toNat ++ zeros 4 ++ h.dump.images.flatMap DumpImage.bytes)

/-! ### Unit sections (R191, R195 to R200) -/

/-- Address of the image base. -/
def Dump.imageBase (d : Dump) : Nat := d.base + registryBytes

/-- SFLAGS bits. -/
def sflags (dedup complete late poweredIn written step left : Bool) : W16 :=
  BitVec.ofNat 16 (b2n dedup + 2 * b2n complete + 4 * b2n late + 8 * b2n poweredIn + 16 * b2n written + 32 * b2n step +
    256 * b2n left)

/-- A section without a body. -/
def emptySection (u : UnitId) (typ presence state : Nat) (flags : W16) : Section :=
  { unit := u, ordinal := ordinalOf u, typ := typ, presence := presence, state := state, sflags := flags, granules := 0,
    raw := 0, refs := 0, zeroGranules := 0, body := [], images := [] }

/-- Distinct words of a section of `n` octets with an uncorrectable error. -/
def badWords (bad : List Nat) (n : Nat) : List Nat := (bad.filter fun w => decide (8 * w < n)).eraseDups

/-- The octets of a section as the memory delivers them (R209). -/
def delivered (u : UnitId) (typ : Nat) (bad : List Nat) (raw : List Byte) : List Byte :=
  if bad.isEmpty then raw
  else (List.range raw.length).map fun i => if bad.contains (i / 8) then Config.errorByte (ordinalOf u) typ i else raw.getD i 0

/-- The errors met while a section is read: ECC_ERRORS, FIRST_ERROR_WORD and READ_ERROR (R209). -/
def Section.withErrors (s : Section) (bad : List Nat) : Section :=
  let l := badWords bad s.raw
  if l.isEmpty then s
  else { s with errors := l.length, firstError := l.foldl min (l.headD 0), sflags := s.sflags ||| 64 }

/-- The section of a unit's shadow, where its MAGIC is valid: SWITCH_BUFFERS for a crossbar switch (R191). -/
def Agent.shadowSection (a : Agent) (u : UnitId) (presence : Nat) : List Section :=
  match a.shadow with
  | none => []
  | some s =>
    let raw := delivered u 1 a.shadowBad (padTo 8 (s.bytes u))
    if leNat (raw.take 4) ≠ 0x44535849 then [] else
    let x := emptySection u (if unitClass u = 4 then 4 else 1) presence (agStateCode a.state)
        (sflags false s.complete s.late s.poweredIn a.written s.step false)
    [{ x with raw := raw.length, body := lz4Frame raw }.withErrors a.shadowBad]

/-- The RING section: four registers and the 64 slots. -/
def Agent.ringSection (a : Agent) (u : UnitId) (presence : Nat) : Section :=
  let raw := le 4 (agentId u) ++ le 4 a.stateWord ++ le 4 a.ringHead ++ le 4 a.ringCut ++ a.ringBytes
  { emptySection u 3 presence (agStateCode a.state) (sflags false true false false a.written false false) with
    raw := raw.length, body := lz4Frame raw }

/-- How a granule is stored: zero, a reference with its index and number, or literal. -/
inductive Granule where
  | zero
  | ref (hash : List Byte) (image number : Nat)
  | literal (b : List Byte)
  deriving DecidableEq, Repr

def Hub.granule (h : Hub) (b : List Byte) : Granule :=
  if b.all fun x => x == 0 then .zero
  else
    let s := sha256 b
    match h.dump.granules.find? fun g => g.1 == s with
    | some g => .ref s g.2.1 g.2.2
    | none => .literal b

def Granule.code (g : Granule) : Byte := match g with | .literal _ => 0 | .zero => 1 | .ref _ _ _ => 2
def Granule.entry (g : Granule) : List Byte :=
  match g with
  | .ref s i n => fit 32 s ++ le 2 i ++ zeros 2 ++ le 4 n
  | _ => []
def Granule.data (g : Granule) : List Byte := match g with | .literal b => b | _ => []
def Granule.image (g : Granule) : List Nat := match g with | .ref _ i _ => [i] | _ => []

/-- The SRAM section (R199, R200). -/
def Hub.sramSection (h : Hub) (u : UnitId) (presence : Nat) (dedup : Bool) : Section :=
  let a := h.agent u
  let raw := delivered u 2 a.sramBad ((List.range (sramSize u)).map fun o => a.sramByte u o)
  let gs := (chunks 0x10000 raw).map h.granule
  let body := if dedup then
      padTo 8 (gs.map Granule.code) ++ gs.flatMap Granule.entry ++ lz4Frame (gs.flatMap Granule.data)
    else lz4Frame raw
  let count (c : Byte) : Nat := if dedup then (gs.filter fun g => g.code == c).length else 0
  let x := emptySection u 2 presence (agStateCode a.state) (sflags dedup true false false a.written false false)
  { x with granules := raw.length / 0x10000, raw := raw.length, refs := count 2, zeroGranules := count 1, body := body,
           images := if dedup then gs.flatMap Granule.image else [] }.withErrors a.sramBad

/-- The sections of a unit whose agent has a state, by TYPE (Table 8-1, R197); of an agent that is still Stopping its shadow
and ring are read, not its SRAM (log entry 152). -/
def sectionsIn (u : UnitId) (state : AgState) (flags : Byte) : List Nat :=
  if state = .running then [3]
  else if unitClass u = 4 then [3, 4]
  else if unitCore u && flags.getLsbD 0 && state == .stopped then [1, 2, 3] else [1, 3]

/-- The sections of a unit that the hub reads. -/
def Hub.sectionTypes (h : Hub) (u : UnitId) (flags : Byte) : List Nat := sectionsIn u (h.agent u).state flags

/-- The sections of a unit that has left before its reading began: those of a Stopped unit, unless the dump found it Running
when it began (log entry 151). -/
def DumpRun.typesOfLeft (run : DumpRun) (u : UnitId) : List Nat :=
  sectionsIn u (if run.running.contains u then .running else .stopped) run.flags

/-- Read one section; a unit without a shadow has none of it. -/
def Hub.readSection (h : Hub) (u : UnitId) (presence : Nat) (flags : Byte) (typ : Nat) : List Section :=
  match typ with
  | 2 => [h.sramSection u presence (flags.getLsbD 1)]
  | 3 => [(h.agent u).ringSection u presence]
  | _ => (h.agent u).shadowSection u presence

/-- Entries without a body of sections of a unit that has left: LEFT (R210), with RAW_BYTES and GRANULES 0
(log entry 154). -/
def leftSections (u : UnitId) (presence : Nat) (written : Bool) (types : List Nat) : List Section :=
  types.map fun t => emptySection u t presence 0xFF (sflags false true false false written false true)

/-- A section that the region has no room for: NOT_WRITTEN, with the size it would have had (R208). -/
def Section.unwritten (s : Section) : Section :=
  { s with sflags := s.sflags ||| 128, body := [], refs := 0, zeroGranules := 0, images := [] }

/-- A section that the bound leaves unread: NOT_WRITTEN, with the size it would have had (R208). -/
def Section.unread (s : Section) : Section :=
  { s.unwritten with state := 0xFF, sflags := (s.sflags &&& 0xFFBF) ||| 128, errors := 0, firstError := 0xFFFFFFFF }

/-- The entry of a unit that is not addressed. -/
def noneSection (u : UnitId) (presence : Nat) (written : Bool) : Section :=
  emptySection u 0 presence 0xFF (sflags false true false false written false false)

/-- LAST_STATE: the last STATE the hub has learnt. -/
def Hub.lastState (h : Hub) (u : UnitId) : Nat :=
  match mapGet none h.dcn.known (ordinalOf u) with
  | some s => agStateCode s
  | none => 0xFF

/-- List a unit as unreachable, once (R205). -/
def Hub.listUnreach (h : Hub) (run : DumpRun) (u : UnitId) (reason : Nat) : DumpRun :=
  if run.unreach.any fun x => x.unit == u then run
  else
    let x : Unreach := { unit := u, reason := reason, lastState := h.lastState u, pt := h.pt }
    { run with unreach := (run.unreach.filter fun y => decide (ordinalOf y.unit < ordinalOf u)) ++ [x] ++
                 (run.unreach.filter fun y => decide (ordinalOf u < ordinalOf y.unit)) }

/-- REASON of a unit that has left (Table 8-7). -/
def leaveCode (r : LeaveReason) : Nat := match r with | .unreachable => 2 | .poweredOff => 3 | .retired => 4

/-- The reason for which a unit Present at the stop can no longer be read. -/
def Hub.goneReason (h : Hub) (u : UnitId) : Option LeaveReason :=
  if h.retired u then some .retired else if !(h.agent u).powered then some .poweredOff
  else if (h.agent u).unreachable then some .unreachable else none

/-- Put a unit's sections at their place in ordinal order. -/
def DumpRun.add (run : DumpRun) (u : UnitId) (l : List Section) : DumpRun :=
  { run with sections := (run.sections.filter fun s => decide (s.ordinal < ordinalOf u)) ++ l ++
               (run.sections.filter fun s => decide (ordinalOf u < s.ordinal)) }

/-- A section goes into the region as it comes out of the compressor, before the reserve of the tail (R189, R208). -/
def Hub.putSection (h : Hub) (m : SMap Byte) (run : DumpRun) (s : Section) : DumpRun × SMap Byte :=
  let limit := h.dump.size - registryBytes - 0x100000
  if limit < run.cursor + s.body.length then ({ run with cursor := limit + 1 }, m)
  else ({ run with cursor := up64 (run.cursor + s.body.length) }, memWrite m (h.dump.imageBase + run.cursor) s.body)

/-- The sections of a unit are read or settled: on to the next unit. -/
def DumpRun.next (run : DumpRun) (u : UnitId) (l : List Section) (read : Bool) : DumpRun :=
  { run.add u ((run.sections.filter fun s => s.ordinal == ordinalOf u) ++ l) with
    todo := run.todo.drop 1, types := none, done := if read then run.done ++ [u] else run.done }

/-- Begin with a unit (Table 8-1): the sections to be read, or its entries where it cannot be read. -/
def Hub.beginUnit (h : Hub) (run : DumpRun) (u : UnitId) (p : Nat) : Hub :=
  let read (h : Hub) : Hub :=
    (h.learnState u (h.agent u).state).setProg (.dump { run with types := some (h.sectionTypes u run.flags) })
  let w := (h.agent u).written
  if p = 1 ∨ p = 2 then h.setProg (.dump (run.next u [noneSection u p w] false))
  else if p = 3 then
    if h.reaches u && !h.retired u then read (h.modAgent u fun a => { a with unreachable := false })
    else h.setProg (.dump ((h.listUnreach run u 1).next u [noneSection u p w] false))
  else
    match h.goneReason u with
    | none => read h
    | some r => h.setProg (.dump ((h.listUnreach run u (leaveCode r)).next u (leftSections u p w (run.typesOfLeft u)) false))

/-- Read one section of a unit, or find that it has left (R210). -/
def Hub.readOne (h : Hub) (m : SMap Byte) (run : DumpRun) (u : UnitId) (p : Nat) (types : List Nat) : Hub × SMap Byte :=
  match types with
  | [] => (h.setProg (.dump (run.next u [] true)), m)
  | t :: ts =>
    match h.goneReason u with
    | some r => (h.setProg (.dump ((h.listUnreach run u (leaveCode r)).next u (leftSections u p (h.agent u).written types) true)), m)
    | none =>
      let l := h.readSection u p run.flags t
      let cuts := if (t = 1 ∨ t = 4) ∧ l ≠ [] then ((h.agent u).ports.filter fun x => x.2.opened).map fun x => (u, x.1, x.2) else []
      let run := run.add u ((run.sections.filter fun s => s.ordinal == ordinalOf u) ++ l)
      let x := l.foldl (fun x s => h.putSection x.2 x.1 s) ({ run with types := some ts, cuts := run.cuts ++ cuts }, m)
      (h.setProg (.dump x.1), x.2)

/-- The next piece of phase 4 (R189). -/
def Hub.dumpUnit (h : Hub) (m : SMap Byte) (run : DumpRun) : Hub × SMap Byte :=
  match run.todo with
  | [] => (h, m)
  | (u, p) :: _ =>
    match run.types with
    | none => (h.beginUnit run u p, m)
    | some ts => h.readOne m run u p ts

/-- Units that have been read and have left since are listed (R210). -/
def Hub.noteGone (h : Hub) (run : DumpRun) : DumpRun :=
  run.done.foldl (fun (r : DumpRun) u =>
    match h.goneReason u with | some x => h.listUnreach r u (leaveCode x) | none => r) run

/-- At the bound, units that have not been read get their entries all the same (R191, R208); a unit Unreachable at the stop
that has answered is as any other. -/
def Hub.unreadUnits (h : Hub) (run : DumpRun) : DumpRun :=
  run.todo.foldl (fun (r : DumpRun) x =>
    let u := x.1
    let w := (h.agent u).written
    if x.2 = 1 ∨ x.2 = 2 then r.next u [noneSection u x.2 w] false
    else if x.2 = 3 ∧ r.types.isNone then (h.listUnreach r u 1).next u [noneSection u x.2 w] false
    else
      match h.goneReason u with
      | some g => (h.listUnreach r u (leaveCode g)).next u (leftSections u x.2 w (r.types.getD (r.typesOfLeft u))) false
      | none =>
        let types := r.types.getD (h.sectionTypes u r.flags)
        r.next u ((types.flatMap fun t => h.readSection u x.2 r.flags t).map Section.unread) false) run

/-! ### The image (R192 to R207) -/

/-- Image offset of the first body. -/
def bodyOffset : Nat := 0x5A000

/-- A chip section. -/
def chipSection (typ : Nat) (granules : Nat) (body : List Byte) : Section :=
  { unit := 0, ordinal := 0xFFFF, typ := typ, presence := 0, state := 0xFF, sflags := 2, granules := granules,
    raw := body.length, refs := 0, zeroGranules := 0, body := body, images := [] }

/-- 2 MiB pages of a region. -/
def regionPages (r : W64 × W64) : Nat := r.2.toNat / 0x200000

/-- Addresses of the pages of a memory digest, in order. -/
def pageList (regions : List (W64 × W64)) : List Nat :=
  regions.flatMap fun r => (List.range (regionPages r)).map fun k => r.1.toNat + 0x200000 * k

/-- The digest of a page, with its status: 1 where an uncorrectable error was met (R204). -/
def Hub.pageDigest (h : Hub) (m : SMap Byte) (a : Nat) : Nat × List Byte :=
  if h.chip.memBad.any fun b => decide (a ≤ b) && decide (b < a + 0x200000) then (1, zeros 32)
  else (0, sha256 (h.chipBytes m a 0x200000))

/-- The MEMORY_DIGEST body (R204): pages that have not been computed have status 2. -/
def DumpRun.digestBody (run : DumpRun) : List Byte :=
  let l := run.digests ++ run.pages.map fun _ => (2, zeros 32)
  le 4 run.regions.length ++ le 4 l.length ++ le 4 (l.filter fun x => x.1 != 0).length ++ zeros 4 ++
    (run.regions.flatMap fun r => le 8 r.1.toNat ++ le 4 (regionPages r) ++ zeros 4) ++
    padTo 8 (l.map fun x => BitVec.ofNat 8 x.1) ++ l.flatMap fun x => x.2

/-- A section with its place: offset, octets stored, not written. -/
structure Placed where
  sec : Section
  off : Nat
  stored : Nat
  skipped : Bool

/-- Place bodies in table order; unit sections stop at the first that would end beyond `limit` (R208). -/
def placeSections (limit : Nat) : Nat → Bool → List Section → List Placed
  | _, _, [] => []
  | pos, full, s :: ss =>
    let n := s.body.length
    let isUnit := decide (s.typ < 5)
    let beyond := isUnit && decide (0 < n) && (full || decide (limit < pos + n))
    if n = 0 ∨ beyond then
      { sec := s, off := 0, stored := 0, skipped := beyond } :: placeSections limit pos (full || beyond) ss
    else { sec := s, off := pos, stored := n, skipped := false } :: placeSections limit (up64 (pos + n)) full ss

/-- A section table entry (Table 8-4). -/
def Placed.bytes (p : Placed) : List Byte :=
  let s := p.sec
  let crc := if p.stored = 0 then 0 else (crc32c s.body).toNat
  le 2 s.unit.toNat ++ le 2 s.ordinal ++ le 1 s.typ ++ le 1 s.presence ++ le 1 s.state ++ [0] ++
    le 2 s.sflags.toNat ++ zeros 2 ++ le 4 s.granules ++ le 8 p.off ++ le 8 p.stored ++ le 8 s.raw ++
    le 4 s.refs ++ le 4 s.zeroGranules ++ le 4 s.errors ++ le 4 s.firstError ++ le 4 crc ++ zeros 4

/-- An unreachable-list entry (Table 8-7). -/
def Unreach.bytes (x : Unreach) : List Byte :=
  le 2 x.unit.toNat ++ le 2 (ordinalOf x.unit) ++ le 1 x.reason ++ le 1 x.lastState ++ zeros 2 ++ le 8 x.pt

/-- A port of the cut report, with its class: open. -/
structure CutEntry where
  unit : UnitId
  port : Nat
  state : CutPort
  isOpen : Bool

/-- The ports of every unit whose shadow the dump holds (R206). -/
def Hub.cutEntries (h : Hub) (run : DumpRun) (l : List Placed) : List CutEntry :=
  let held (u : UnitId) : Bool := l.any fun p => (p.sec.typ == 1 || p.sec.typ == 4) && p.stored != 0 && p.sec.unit == u
  (run.cuts.filter fun c => held c.1).map fun c =>
    { unit := c.1, port := c.2.1, state := c.2.2, isOpen := decide (c.2.2.outcome.toNat = 4) && h.peerOutside c.2.2 }

/-- A cut report entry (Table 8-9). -/
def CutEntry.bytes (x : CutEntry) : List Byte :=
  let p := x.state
  let gate := p.gatePt.getD 0
  le 2 x.unit.toNat ++ le 1 (x.port % 64) ++
    le 1 (p.outcome.toNat + 32 * b2n p.marker.isSome + 64 * b2n x.isOpen + 128 * b2n p.step) ++ le 2 (min 8191 p.inFlight) ++
    le 2 p.peer.toNat ++ le 1 p.peerKind ++ zeros 3 ++ le 4 ((p.marker.map (·.gatePt)).getD 0) ++
    le 4 (if p.marker.isSome then sat31 p.arrivalPt gate else 0) ++ zeros 4 ++ le 8 gate

/-- A violation: any outcome but Clean that is not classed open. -/
def CutEntry.bad (x : CutEntry) : Bool := x.state.outcome != 0 && !x.isOpen

def countOf {α : Type} (l : List α) (f : α → Bool) : Nat := (l.filter f).length

/-- The cut report (Tables 8-8 and 8-9). -/
def cutReport (l : List CutEntry) : List Byte :=
  let n (b : Nat) : Nat := countOf l fun x => x.state.outcome.getLsbD b
  le 4 l.length ++ le 4 (countOf l fun x => x.state.outcome == 0) ++ le 4 (countOf l fun x => x.isOpen) ++
    le 4 (countOf l CutEntry.bad) ++ le 2 (n 0) ++ le 2 (n 1) ++
    le 2 (countOf l fun x => x.state.outcome.getLsbD 2 && !x.isOpen) ++ le 2 (n 3) ++ le 2 (n 4) ++ zeros 6 ++
    l.flatMap CutEntry.bytes

/-- The end instant of the latest step since the stop: of a cycle step, or the end of a command step (Table 8-3). -/
def Hub.stepEndPt (h : Hub) : Option Nat :=
  let ends := h.poweredUnits.filterMap fun u =>
    match (h.agent u).cut with
    | some c => if c.step && c.closed then some c.pt else none
    | none => none
  (ends ++ ((h.stops.newest.bind fun (n : StopInfo) => n.stepEnd).toList)).foldl (fun m t => some (max t (m.getD 0))) none

/-- FLAGS of the header. -/
def Hub.dumpFlags (h : Hub) (run : DumpRun) (truncated bound : Bool) : Nat :=
  let n := h.stops.newest
  b2n truncated + 2 * b2n bound + 4 * b2n (run.flags.getLsbD 1) + 8 * b2n (run.flags.getLsbD 0) +
    16 * b2n (!run.regions.isEmpty) + 32 * b2n h.stepEndPt.isSome + 64 * b2n (n.any fun x => x.written) +
    128 * b2n run.unsighted

/-- Octets 0 to 71 of the header. -/
def Hub.dumpHead (h : Hub) (run : DumpRun) (truncated bound : Bool) (state endPt : Nat) : List Byte :=
  let n := h.stops.newest
  let t := (n.map (·.t)).getD 0
  ascii "IXYDUMP1" ++ le 2 1 ++ le 2 256 ++ le 2 h.shownChip ++ [0x09] ++ le 1 h.lcNat ++
    le 4 (h.dumpFlags run truncated bound) ++ le 1 state ++ le 1 h.stops.podOutcome ++
    le 1 ((n.map fun x => x.cause.toNat).getD 0) ++ [0] ++ le 4 run.dumpId.toNat ++
    le 4 ((n.map fun x => x.stopId.toNat).getD 0) ++ le 4 run.claim.toNat ++
    le 2 ((n.map fun x => if x.pod then x.initiator.toNat else 0).getD 0) ++ zeros 2 ++ le 8 t ++
    le 8 (h.stepEndPt.getD t) ++ le 8 run.startPt ++ le 8 endPt

/-- A header closed with its CRC. -/
def closeHeader (b : List Byte) : List Byte := fit 252 b ++ le 4 (crc32c (fit 252 b)).toNat

/-- Sum of a field. -/
def sumOf {α : Type} (l : List α) (f : α → Nat) : Nat := (l.map f).foldl (· + ·) 0

/-- All that the tail computes: the placed sections, the image up to the trailer's hash, and the header. -/
structure DumpImageOut where
  header : List Byte
  bytes : List Byte
  flags : Nat

/-- IMAGE_LIST, where dedup is on: the registered images that some sections name. -/
def Hub.listOf (h : Hub) (run : DumpRun) (l : List Section) : List DumpImage :=
  if !run.flags.getLsbD 1 then [] else
  let named := l.flatMap fun s => s.images
  h.dump.images.filter fun x => named.contains x.index

/-- Build the image of a run (R189 phase 5): which unit sections the region holds is decided with an IMAGE_LIST of all that
they name; the list in the image names what those written reference. -/
def Hub.buildImage (h : Hub) (run : DumpRun) (bound : Bool) : DumpImageOut :=
  let digest := if run.regions.isEmpty then [] else [chipSection 5 0 run.digestBody]
  let map := le 4 h.ident.retiredGen.toNat ++ zeros 4 ++ h.ident.mapBytes
  let list (x : List DumpImage) : List Section :=
    if run.flags.getLsbD 1 then [chipSection 8 x.length (x.flatMap DumpImage.bytes)] else []
  let place (l : List Section) : List Placed :=
    placeSections (h.dump.size - registryBytes - 0x100000) bodyOffset false
      (digest ++ [chipSection 6 0 run.hangLog, chipSection 7 0 map] ++ list (h.listOf run l) ++ l)
  let tried := place run.sections
  let truncated := tried.any fun p => p.skipped
  let kept := (tried.filter fun p => decide (p.sec.typ < 5)).map fun p => if p.skipped then p.sec.unwritten else p.sec
  let images := h.listOf run kept
  let placed := place kept
  let bodies := placed.flatMap fun p => if p.stored = 0 then [] else padTo 64 p.sec.body
  let unreachOff := bodyOffset + bodies.length
  let unreach := padTo 64 (le 4 run.unreach.length ++ zeros 12 ++ run.unreach.flatMap Unreach.bytes)
  let cuts := h.cutEntries run placed
  let report := padTo 64 (cutReport cuts)
  let cutOff := unreachOff + unreach.length
  let trailerOff := cutOff + report.length
  let late := (h.poweredUnits.filter fun u => (h.agent u).late).length
  let header := closeHeader (h.dumpHead run truncated bound 1 h.pt ++ le 4 run.hangId.toNat ++ le 4 h.ident.retiredGen.toNat ++
    le 4 h.dump.registryGen.toNat ++ le 2 images.length ++ zeros 2 ++ le 8 bodyOffset ++ le 4 placed.length ++
    le 4 run.unreach.length ++ le 8 unreachOff ++ le 4 cuts.length ++ zeros 4 ++ le 8 cutOff ++ le 8 trailerOff ++
    le 8 (trailerOff + 64) ++ le 8 (sumOf placed fun p => p.sec.raw) ++ le 8 (sumOf placed fun p => p.stored) ++
    le 4 run.present ++ le 4 run.absent ++ le 4 run.unreachableCount ++ le 4 (countOf cuts CutEntry.bad) ++
    le 4 (countOf cuts fun x => x.isOpen) ++ le 4 late)
  let body := fit bodyOffset (header ++ placed.flatMap Placed.bytes) ++ bodies ++ unreach ++ report ++ ascii "IXYDEND1" ++
    le 8 (trailerOff + 64)
  { header := header, bytes := body ++ sha384 body, flags := h.dumpFlags run truncated bound }

/-! ### DUMP (R188, R189) -/

/-- The body of HANG_LOG as it stands (R203). -/
def Hub.hangLogBody (h : Hub) : List Byte :=
  le 2 h.stops.lost ++ le 2 (b2n h.stops.declared) ++ zeros 4 ++ h.stops.logBytes

/-- What phase 3 takes: the hang log as it stands, with the number of its newest entry, and the pages to be digested. -/
def Hub.beginChip (h : Hub) (run : DumpRun) : DumpRun :=
  { run with hangLog := h.hangLogBody, hangId := ((h.stops.log.getLast?).map (·.hangId)).getD 0, pages := pageList run.regions }

/-- The tail: the image is written, and DUMP ends. -/
def Hub.dumpTail (h : Hub) (m : SMap Byte) (run : DumpRun) (bound : Bool) : Hub × SMap Byte :=
  let run := h.unreadUnits (if run.reading then run else h.beginChip run)
  let x := h.buildImage run bound
  let d := { h.dump with state := true, flags := BitVec.ofNat 32 x.flags, imageBytes := x.bytes.length, hasImage := true }
  (({ h with dump := d }).conclude (if bound then .boundReached else .ok) (le 4 run.dumpId.toNat ++ x.header),
   memWrite m h.dump.imageBase x.bytes)

/-- Phase 3: the crossbar is in dump mode. HANG_LOG and IMAGE_LIST go into the region, the latter with every registered
image, since those referenced are not known yet; RETIRED_MAP has its place, and the memory digest begins (R189). -/
def Hub.dumpRead (h : Hub) (m : SMap Byte) (run : DumpRun) : Hub × SMap Byte :=
  let list := if run.flags.getLsbD 1 then h.dump.images.flatMap DumpImage.bytes else []
  let run := { h.beginChip run with reading := true }
  let log := run.hangLog
  let o := up64 (bodyOffset + if run.regions.isEmpty then 0 else run.digestBody.length)
  let l := up64 (up64 (o + log.length) + 264)
  let m := memWrite (memWrite m (h.dump.imageBase + o) log) (h.dump.imageBase + l) list
  (h.setProg (.dump { run with cursor := up64 (l + list.length) }), m)

/-- Presence of a unit at the stop instant. -/
def StopInfo.presenceOf (n : StopInfo) (o : Nat) : Nat := ((n.awayAtStop.getD []).find? fun x => x.1 == o).elim 0 (·.2)

/-- The stop can be dumped (R188). -/
def Hub.dumpable (h : Hub) : Option StopInfo :=
  match h.stops.newest with
  | some n =>
    if n.scope = .chip && n.complete && h.dump.isSet && !(h.poweredUnits.any fun u => (h.agent u).state == .stepping) then some n
    else none
  | none => none

/-- The first faulty field of DUMP. -/
def Hub.dumpFault (h : Hub) (flags : Byte) (regions : List (W64 × W64)) : Option Nat :=
  if 3 < flags.toNat then some 0
  else if 16 < regions.length then some 1
  else
    match (List.range regions.length).findSome? fun i =>
      match regions[i]? with
      | none => none
      | some r =>
        let b := r.1.toNat
        let n := r.2.toNat
        if b % 0x200000 ≠ 0 || !inMemory (h.chip.tier1 ++ h.chip.tier2) b n || overlap b n h.dump.base h.dump.size ||
            (h.trace.isSet && overlap b n h.trace.base h.trace.size) then some (8 + 16 * i)
        else if n % 0x200000 ≠ 0 then some (16 + 16 * i) else none with
    | some o => some o
    | none => if 524288 < sumOf regions regionPages then some noOffset else none

/-- Begin a dump: its number, the header with STATE 0, and dump mode. -/
def Hub.startDump (h : Hub) (m : SMap Byte) (hdr : Hdr) (n : StopInfo) (flags : Byte) (regions : List (W64 × W64)) :
    Hub × SMap Byte :=
  let h := h.powerDomains [19, 20, 10, 11, 4, 5, 8, 9]
  let id := h.dump.dumpId + 1
  let todo := (List.range agentCount).map fun o => (unitOf o, n.presenceOf o)
  let run : DumpRun :=
    { flags := flags, regions := regions, dumpId := id, startPt := h.pt, unsighted := h.unsighted, claim := h.red.claim,
      hangId := 0, todo := todo,
      running := (todo.filter fun x => (h.agent x.1).powered && (h.agent x.1).state == .running).map fun x => x.1,
      present := countOf todo fun x => x.2 == 0, absent := countOf todo fun x => x.2 == 1 || x.2 == 2,
      unreachableCount := countOf todo fun x => x.2 == 3 }
  let d := { h.dump with dumpId := id, state := false, hasImage := true, imageBytes := 0,
                         flags := BitVec.ofNat 32 (h.dumpFlags run false false) }
  let m := memWrite m h.dump.imageBase (closeHeader (h.dumpHead run false false 0 0))
  let h := { h with dump := d }.occupy 0x0401 hdr (.dump run)
  if h.fe.dumpMode then h.dumpRead m run else (h.feRequest .dumpModeEnter [], m)

def opDump (hdr : Hdr) (flags : Byte) (regions : List (W64 × W64)) (m : SMap Byte) (h : Hub) : Hub × SMap Byte :=
  h.icpMem m 0x0401 hdr fun h =>
    match h.dumpable with
    | none => (h.badState 0x0401 hdr, m)
    | some n =>
      match h.dumpFault flags regions with
      | some o => (h.badArg 0x0401 hdr o, m)
      | none => h.startDump m hdr n flags regions

/-- One page of the memory digest. -/
def Hub.digestPage (h : Hub) (m : SMap Byte) (run : DumpRun) : DumpRun :=
  match run.pages with
  | [] => run
  | a :: rest => { run with pages := rest, digests := run.digests ++ [h.pageDigest m a] }

/-- One step of the dump engines: a section is read beside a page of the digest, or the tail is written (log entry 105). -/
def Hub.dumpStep (h : Hub) (m : SMap Byte) : Hub × SMap Byte :=
  match h.slot with
  | some ⟨_, _, _, _, .dump run, _, _, _, _, _, _, _, _⟩ =>
    if !run.reading then (h, m) else
    let run := h.digestPage m (h.noteGone run)
    if run.todo.isEmpty && run.pages.isEmpty then h.dumpTail m run false
    else (h.setProg (.dump run)).dumpUnit m run
  | _ => (h, m)

/-- UNIT_PRESENCE_CHANGE: a unit leaves presence while a dump runs. Its sections already written stand; those still to be
read have entries with LEFT and no body (R210). A unit Unreachable at the stop is one that leaves once it has answered; one
Absent at the stop is not addressed. -/
def opUnitPresenceChange (unit : UnitId) (reason : LeaveReason) (h : Hub) : Hub :=
  match h.slot with
  | some ⟨_, _, _, _, .dump run, _, _, _, _, _, _, _, _⟩ =>
    if !unitHasAgent unit then h else
    match run.todo.find? fun x => x.1 == unit with
    | none => if run.done.contains unit then h.setProg (.dump (h.listUnreach run unit (leaveCode reason))) else h
    | some (u, p) =>
      let first := (run.todo.head?).any fun x => x.1 == u
      let begun := if first then run.types else none
      if p = 1 ∨ p = 2 ∨ (p = 3 ∧ begun.isNone) then h else
      let run := h.listUnreach run unit (leaveCode reason)
      let types := begun.getD (run.typesOfLeft u)
      let had := run.sections.filter fun s => s.ordinal == ordinalOf u
      let run := run.add u (had ++ leftSections u p (h.agent u).written types)
      h.setProg (.dump { run with todo := run.todo.filter fun x => x.1 != u, types := if first then none else run.types })
  | _ => h

def opDumpStatus (hdr : Hdr) (h : Hub) : Hub :=
  h.icp 0x0402 hdr fun h =>
    let d := h.dump
    h.ok 0x0402 hdr ([] |> put 4 d.dumpId.toNat |> put 1 (b2n d.state) |> put 4 d.flags.toNat |> put 8 d.imageBytes)

/-- DUMP_FETCH (R212). -/
def opDumpFetch (hdr : Hdr) (dumpId : W32) (offset length : W64) (m : SMap Byte) (h : Hub) : Hub :=
  h.icp 0x0403 hdr fun h =>
    let d := h.dump
    if !d.hasImage || !d.state || d.dumpId ≠ dumpId then h.badState 0x0403 hdr
    else if d.imageBytes < offset.toNat + length.toNat then h.badArg 0x0403 hdr 16
    else (h.powerDomains [19, 20]).ok 0x0403 hdr (memRead m (d.imageBase + offset.toNat) length.toNat)

/-! ### Meanings -/

def execDumpRegionSet (h : Hdr) (base size : W64) (st : State) : Host.Outcome State Fault Refusal :=
  .next { st with hub := opDumpRegionSet h base size st.hub }
def execDump (h : Hdr) (flags : Byte) (regions : List (W64 × W64)) (st : State) :
    Host.Outcome State Fault Refusal :=
  let r := opDump h flags regions st.mem st.hub
  .next { st with hub := r.1, mem := r.2 }
def execDumpStatus (h : Hdr) (st : State) : Host.Outcome State Fault Refusal :=
  .next { st with hub := opDumpStatus h st.hub }
def execDumpFetch (h : Hdr) (dumpId : W32) (offset length : W64) (st : State) : Host.Outcome State Fault Refusal :=
  .next { st with hub := opDumpFetch h dumpId offset length st.mem st.hub }
def execDumpImageRegister (h : Hdr) (imageId : List Byte) (address length : W64) (st : State) :
    Host.Outcome State Fault Refusal :=
  .next { st with hub := opDumpImageRegister h imageId address length st.mem st.hub }
def execDumpImageRemove (h : Hdr) (index : W16) (st : State) : Host.Outcome State Fault Refusal :=
  .next { st with hub := opDumpImageRemove h index st.hub }
def execDumpImageList (h : Hdr) (st : State) : Host.Outcome State Fault Refusal :=
  .next { st with hub := opDumpImageList h st.hub }
def execUnitPresenceChange (unit : UnitId) (reason : LeaveReason) (st : State) :
    Host.Outcome State Fault Refusal :=
  .next { st with hub := opUnitPresenceChange unit reason st.hub }

end Sys2Proof.Machine
end

