-- ==== Sys2Proof/Machine/Pattern.lean ====
section
/-! DEFINITION. The group patterns (0x0Axx): packs, keys, RUN_PATTERNS with its sequencer, results and
candidates (R333 to R350). -/

namespace Sys2Proof.Machine

/-! ### Packs (R337, R338) -/

def Hub.packById (h : Hub) (id : W64) : Option Pack := h.pat.packs.find? fun p => p.packId == id

/-- Remove packs with their result entries, from the store and from flash. -/
def Hub.removePacks (h : Hub) (drop : Pack → Bool) : Hub :=
  let gone := h.pat.packs.filter drop
  if gone.isEmpty then h else
  let h := { h with pat.packs := h.pat.packs.filter fun p => !drop p }
  let h := h.dropResults fun e => gone.any fun p => p.index == e.pack
  (h.mirror (fun d => match d with | .pack p => gone.any fun q => q.packId == p.packId | _ => false) []).2

/-- Checks 3 and 4 of R337, and the store: a pack whose structure and signature are good. -/
def Hub.storePack (h : Hub) (hdr : Hdr) (b : List Byte) : Hub :=
  let id : W64 := BitVec.ofNat 64 (fieldAt b 16 8)
  let version : W32 := BitVec.ofNat 32 (fieldAt b 24 4)
  let old := h.packById id
  if old.any fun p => decide (version.toNat ≤ p.version.toNat) then h.badArg 0x0A00 hdr noOffset else
  let others := h.pat.packs.filter fun p => p.packId != id
  let index := match old with
    | some p => some p.index
    | none => lowestFree (others.map (·.index)) 32
  match index with
  | none => h.badState 0x0A00 hdr
  | some i =>
    let p : Pack := { packId := id, version := version, signer := b.getD 11 0, slot := b.getD 12 0, patterns := fieldAt b 28 2,
                      index := i, bytes := b }
    let pat := { h.pat with packs := others ++ [p] }
    if storePages < pat.pagesUsed then h.badState 0x0A00 hdr
    else
      let h := if old.isSome then { h with pat := pat }.dropResults fun e => e.pack == i else { h with pat := pat }
      let r := h.mirror (fun d => match d with | .pack q => q.packId == id | _ => false) [.pack p]
      r.2.stored 0x0A00 hdr []

def opPatternLoad (hdr : Hdr) (offset total : W32) (final : Byte) (data : List Byte) (h : Hub) : Hub :=
  h.icp 0x0A00 hdr fun h =>
    match takePiece h.pat.part hdr.session offset.toNat total.toNat data with
    | .inr o => { h with pat.part := none }.badArg 0x0A00 hdr o
    | .inl p =>
      if final = 0 then { h with pat.part := some p }.ok 0x0A00 hdr []
      else
        let h := { h with pat.part := none }.storeUp
        if p.bytes.length ≠ p.total || (parsePack p.bytes).isNone then h.badArg 0x0A00 hdr noOffset
        else if !h.island.otp.packSigned p.bytes then h.denied 0x0A00 hdr
        else h.storePack hdr p.bytes

def opPatternRemove (hdr : Hdr) (packId : W64) (h : Hub) : Hub :=
  h.icp 0x0A01 hdr fun h =>
    let h := h.storeUp
    if (h.packById packId).isNone then h.badArg 0x0A01 hdr 0
    else (h.removePacks fun p => p.packId == packId).stored 0x0A01 hdr []

def opPatternList (hdr : Hdr) (h : Hub) : Hub :=
  h.icp 0x0A02 hdr fun h =>
    let h := h.storeUp
    let entry (p : Pack) : List Byte :=
      fit 24 (le 8 p.packId.toNat ++ le 4 p.version.toNat ++ le 2 p.patterns ++ [p.signer, p.slot] ++ le 2 p.pages ++
        le 2 (b2n (!h.pat.flash.holdsPack p)))
    h.stored 0x0A02 hdr (h.pat.packs.flatMap entry)

/-- PATTERN_KEY_REGISTER (R334). -/
def opPatternKeyRegister (hdr : Hdr) (key : List Byte) (h : Hub) : Hub :=
  h.icp 0x0A03 hdr fun h =>
    let n := h.island.otp.fleet.length
    if key.length ≠ 97 ∨ key.head? ≠ some 0x04 then h.badArg 0x0A03 hdr 0
    else if 8 ≤ n then h.badState 0x0A03 hdr
    else
      let k : FleetSlot := { hash := sha384 key, revoked := false }
      { h with island.otp.fleet := h.island.otp.fleet ++ [k] }.ok 0x0A03 hdr (le 1 n)

/-- PATTERN_KEY_REVOKE (R334). -/
def opPatternKeyRevoke (hdr : Hdr) (slot : Byte) (h : Hub) : Hub :=
  h.icp 0x0A04 hdr fun h =>
    let l := h.island.otp.fleet
    match l[slot.toNat]? with
    | none => h.badArg 0x0A04 hdr 0
    | some k =>
      let k : FleetSlot := { k with revoked := true }
      let h := { h with island.otp.fleet := l.set slot.toNat k }.storeUp
      (h.removePacks fun p => p.signer == 1 && p.slot == slot).stored 0x0A04 hdr []

/-! ### RUN_PATTERNS (R342 to R346) -/

/-- The test area: the last 64 MiB of the dump region. -/
def Dump.testBase (d : Dump) : Nat := d.base + d.size - 0x4000000

/-- The output area `k` of a group. -/
def Dump.outArea (d : Dump) (k : Nat) : Nat := d.testBase + 0x400000 + k * 0x200000

/-- A complete image overlaps the test area. -/
def Dump.imageInTest (d : Dump) : Bool :=
  d.hasImage && d.state && decide (d.testBase < d.imageBase + d.imageBytes)

/-- Discard the image: its header is rewritten with STATE 0. -/
def Hub.discardImage (h : Hub) (m : SMap Byte) : Hub × SMap Byte :=
  let b := memRead m h.dump.imageBase 256
  ({ h with dump.state := false }, memWrite m h.dump.imageBase (closeHeader (b.take 20 ++ [0] ++ b.drop 21)))

/-- The body of a pattern of a held pack. -/
def Hub.patBody (h : Hub) (index : Nat) (pattern : W16) : Option PatBody :=
  match h.pat.packs.find? fun p => p.index == index with
  | none => none
  | some p => ((parsePack p.bytes).getD []).find? fun b => b.number == pattern.toNat

/-- Count a result of a unit and pattern in the result table (R345). -/
def Hub.countResult (h : Hub) (u : UnitId) (pack : Nat) (pattern : W16) (errors pass fail : Nat) : Hub :=
  if !unitHasAgent u then h else
  let o := ordinalOf u
  let add (e : ResultEntry) : ResultEntry :=
    { e with errors := sat16 (e.errors + errors), pass := sat32 (e.pass + pass), fail := sat32 (e.fail + fail) }
  let same (e : ResultEntry) : Bool := e.ordinal == o && e.pack == pack && e.pattern == pattern
  if h.pat.results.any same then
    { h with pat := { h.pat with results := h.pat.results.map fun e => if same e then add e else e, resultsDirty := true } }
  else if 32768 ≤ h.pat.results.length then { h with pat.resultsLost := sat32 (h.pat.resultsLost + 1) }
  else
    let e : ResultEntry := { ordinal := o, pack := pack, pattern := pattern, errors := 0, pass := 0, fail := 0 }
    { h with pat := { h.pat with results := h.pat.results ++ [add e], resultsDirty := true } }

/-- Count in the tally of the current pattern. -/
def PatRun.count (r : PatRun) (errors pass fail : Nat) : PatRun :=
  match r.patterns with
  | [] => r
  | p :: _ =>
    { r with tallies := r.tallies.map fun (t : PatTally) =>
        if t.pattern = p then { t with errors := t.errors + errors, pass := t.pass + pass, fail := t.fail + fail } else t }

/-- Count in both. -/
def Hub.countRun (h : Hub) (r : PatRun) (u : UnitId) (errors pass fail : Nat) : PatRun × Hub :=
  (r.count errors pass fail, h.countResult u r.packIndex (r.patterns.headD 0) errors pass fail)

/-- A pattern runs on a unit (R343). -/
def Hub.eligible (h : Hub) (r : PatRun) (b : PatBody) (u : UnitId) : Bool :=
  unitHasAgent u && unitClass u == b.cls && h.answers u && (h.agent u).state == .running && !(h.agent u).member &&
    r.quiesced.contains u

/-- The address a patch writes: the operand area or the output, plus ADD. -/
def patchTarget (testBase out : Nat) (b : PatBody) (target add : Nat) : Nat :=
  (if target = 4 then out else testBase + areaOffset (b.operands.map (·.length)) target) + add

/-- The template with its addresses patched (R336). -/
def patchedTemplate (testBase out : Nat) (b : PatBody) : List Byte :=
  b.patches.foldl (fun (t : List Byte) p =>
    t.take p.1 ++ le 8 (patchTarget testBase out b p.2.1 p.2.2) ++ t.drop (p.1 + 8)) b.template

/-- Begin the next group of up to 16 units: fill, patch and reissue. -/
def Hub.startGroup (h : Hub) (m : SMap Byte) (r : PatRun) (b : PatBody) : Hub × SMap Byte :=
  let us := r.todo.take 16
  let group : List PatUnit := (List.range us.length).map fun k => { unit := us.getD k 0, area := k }
  let m := group.foldl (fun m g => memWrite m (h.dump.outArea g.area) (List.replicate 0x200000 0xFF)) m
  let h := group.foldl (fun (h : Hub) g =>
    h.feReissue g.unit b.engine (h.dump.outArea g.area) (patchedTemplate h.dump.testBase (h.dump.outArea g.area) b)) h
  (h.setProg (.patterns { r with todo := r.todo.drop 16, group := group }), m)

/-- The reply's tallies: PATTERN, PASS, FAIL and ERROR. -/
def PatTally.bytes (t : PatTally) : List Byte :=
  le 2 t.pattern.toNat ++ le 2 (sat16 t.pass) ++ le 2 (sat16 t.fail) ++ le 2 (sat16 t.errors)

/-- RUN_PATTERNS ends. -/
def Hub.endPatterns (h : Hub) (r : PatRun) : Hub :=
  let body := le 4 r.skipped ++ r.tallies.flatMap PatTally.bytes
  if r.bound then h.conclude .boundReached (body ++ unitsBody r.notRun) else h.conclude .ok body

/-- Nothing is left to run: RESUME for every unit quiesced, after whose answer the reply is sent. -/
def Hub.finishPatterns (h : Hub) (r : PatRun) : Hub :=
  if r.quiesced.isEmpty then h.endPatterns r
  else (h.setProg (.patterns { r with finishing := true })).feRequest .resume r.quiesced

/-- Of some units those that cannot run the pattern are skipped, each with an ERROR; the others are to be run (R343). -/
def Hub.skipUnits (h : Hub) (r : PatRun) (b : PatBody) (us : List UnitId) : PatRun × Hub :=
  let x := (us.filter fun u => !h.eligible r b u).foldl (fun (x : PatRun × Hub) u =>
    let y := x.2.countRun x.1 u 1 0 0
    ({ y.1 with skipped := y.1.skipped + 1 }, y.2)) (r, h)
  ({ x.1 with todo := us.filter fun u => h.eligible r b u }, x.2)

/-- Begin a pattern: its operands are copied. -/
def Hub.startPattern (h : Hub) (m : SMap Byte) (r : PatRun) (b : PatBody) : PatRun × Hub × SMap Byte :=
  let x := h.skipUnits r b r.units
  (x.1, x.2, memWrite m h.dump.testBase b.operands.flatten)

/-- Go on while no run is in progress: the next group, the next pattern, or the end. By fuel. -/
def Hub.runPatterns : Nat → PatRun → SMap Byte → Hub → Hub × SMap Byte
  | 0, r, m, h => (h.finishPatterns r, m)
  | f + 1, r, m, h =>
    match r.patterns with
    | [] => (h.finishPatterns r, m)
    | p :: rest =>
      match h.patBody r.packIndex p with
      | none => Hub.runPatterns f { r with patterns := rest, todo := [] } m h
      | some b =>
        -- units still to be run may have joined a partition or left Running since
        let x := h.skipUnits r b r.todo
        let r := x.1
        let h := x.2
        if !r.todo.isEmpty then h.startGroup m r b
        else
          -- the current pattern has run: the next one begins
          match rest with
          | [] => (h.finishPatterns { r with patterns := [] }, m)
          | q :: _ =>
            match h.patBody r.packIndex q with
            | none => Hub.runPatterns f { r with patterns := rest } m h
            | some c =>
              let x := h.startPattern m { r with patterns := rest } c
              Hub.runPatterns f x.1 x.2.2 x.2.1

/-- The front end has answered QUIESCE: the first pattern begins. -/
def Hub.beginPatterns (h : Hub) (m : SMap Byte) (r : PatRun) : Hub × SMap Byte :=
  let r := { r with started := true }
  match r.patterns with
  | [] => (h.finishPatterns r, m)
  | p :: _ =>
    match h.patBody r.packIndex p with
    | none => h.runPatterns 1025 r m
    | some b =>
      let x := h.startPattern m r b
      x.2.1.runPatterns 1025 x.1 x.2.2

/-- A run of the group is over: the sequencer goes on once no run is in progress. -/
def Hub.groupStep (h : Hub) (m : SMap Byte) (r : PatRun) (u : UnitId) : Hub × SMap Byte :=
  let r := { r with group := r.group.filter fun g => g.unit != u }
  if r.group.isEmpty then h.runPatterns 1025 r m else (h.setProg (.patterns r), m)

/-- A run ends without a comparison: a refusal, a timeout, or a unit that has gone. -/
def Hub.runError (h : Hub) (m : SMap Byte) (r : PatRun) (u : UnitId) : Hub × SMap Byte :=
  let x := h.countRun r u 1 0 0
  x.2.groupStep m x.1 u

/-- A run's End: it passes where the End carries no ERROR and the output's digest is the one expected. -/
def Hub.patRunEnded (h : Hub) (m : SMap Byte) (r : PatRun) (g : PatUnit) (error : Bool) : Hub × SMap Byte :=
  match r.patterns with
  | [] => (h, m)
  | p :: _ =>
    match h.patBody r.packIndex p with
    | none => h.runError m r g.unit
    | some b =>
      let out := h.dump.outArea g.area
      let d := h.rangeDigest m b.key b.outFormat out (out + b.outScaleOffset) 0 b.outElements
      let pass := !error && d == b.expect
      let x := h.countRun r g.unit 0 (b2n pass) (b2n (!pass))
      x.2.groupStep m x.1 g.unit

/-- Units of the group that have powered off or been retired: ERROR, and no digest (Table 14-6). -/
def Hub.patternLost (h : Hub) (m : SMap Byte) : Hub × SMap Byte :=
  match h.slot with
  | some ⟨_, _, _, _, .patterns r, _, _, _, _, _, _, _, _⟩ =>
    match r.group.find? fun g => h.retired g.unit || !(h.agent g.unit).powered with
    | some g => h.runError m r g.unit
    | none => (h, m)
  | _ => (h, m)

/-- The first faulty field of RUN_PATTERNS, and the pack. -/
def Hub.patternsFault (h : Hub) (packId : W64) (pattern : W16) (flags : Byte) (runLimit : W16) (units : List UnitId) :
    Nat ⊕ Pack :=
  match h.packById packId with
  | none => .inl 0
  | some p =>
    if pattern ≠ 0xFFFF ∧ (h.patBody p.index pattern).isNone then .inl 8
    else if 1 < flags.toNat then .inl 10
    else if runLimit = 0 then .inl 12
    else if 1024 < units.length then .inl 14
    else match (List.range units.length).find? fun i => !unitValid (units.getD i 0) with
      | some i => .inl (16 + 2 * i)
      | none => .inr p

/-- Patterns of a pack, in pack order. -/
def Pack.numbers (p : Pack) : List W16 := ((parsePack p.bytes).getD []).map fun b => BitVec.ofNat 16 b.number

def opRunPatterns (hdr : Hdr) (packId : W64) (pattern : W16) (flags : Byte) (runLimit : W16) (units : List UnitId)
    (m : SMap Byte) (h : Hub) : Hub × SMap Byte :=
  h.icpMem m 0x0A05 hdr fun h =>
    let extra := if h.domainOn 17 && !h.pat.reloading then 0 else 200000000
    let h := h.storeUp
    if h.fc.safe then (h.answer 0x0A05 hdr .safeState [], m)
    else if !h.stops.standing.isEmpty || h.fe.dumpMode || !h.dump.isSet || (h.dump.imageInTest && !flags.getLsbD 0) then
      (h.badState 0x0A05 hdr, m)
    else
      match h.patternsFault packId pattern flags runLimit units with
      | .inl o => (h.badArg 0x0A05 hdr o, m)
      | .inr p =>
        let l := if pattern = 0xFFFF then p.numbers else [pattern]
        let x := if h.dump.imageInTest then h.discardImage m else (h, m)
        let run : PatRun := { packIndex := p.index, patterns := l, runLimit := runLimit.toNat, units := units,
                              tallies := l.map fun n => { pattern := n }, extraNs := extra }
        ((x.1.occupy 0x0A05 hdr (.patterns run)).feRequest .quiesce units, x.2)

/-- RUN_LIMIT_EXPIRY: the run counts an ERROR, and its unit's work is dropped (R344). -/
def opRunLimitExpiry (unit : UnitId) (m : SMap Byte) (h : Hub) : Hub × SMap Byte :=
  match h.slot with
  | some ⟨_, _, _, _, .patterns r, _, _, _, _, _, _, _, _⟩ =>
    match r.group.find? fun g => g.unit == unit && g.accepted && decide (g.startPt + 1000 * r.runLimit ≤ h.pt) with
    | some g => (h.feRequest .dropInflight [unit]).runError m r g.unit
    | none => (h, m)
  | _ => (h, m)

/-- The bound ends: the runs in progress finish, and the units not run are listed (R346). -/
def Hub.patternsBound (h : Hub) (r : PatRun) : Hub :=
  if r.bound then h else
  let left := if !r.started || decide (1 < r.patterns.length) then r.units else r.notRun ++ r.todo
  let r := { r with bound := true, notRun := left, todo := [], patterns := r.patterns.take 1 }
  if r.finishing then h.endPatterns r
  else if r.group.isEmpty then h.finishPatterns r else h.setProg (.patterns r)

/-- A unit's REISSUE has no answer in its bound: the unit has not run, and RUN_PATTERNS ends as at its bound (R59). -/
def Hub.patternLate (h : Hub) (r : PatRun) (u : UnitId) : Hub :=
  let r := { r with group := r.group.filter fun g => g.unit != u, notRun := r.notRun ++ [u] }
  if !r.bound then h.patternsBound r
  else if r.group.isEmpty then h.finishPatterns r else h.setProg (.patterns r)

/-! ### Results and candidates -/

/-- PATTERN_RESULTS: entries of a pack, or all, in agent-ordinal order (R345). -/
def opPatternResults (hdr : Hdr) (pack : Byte) (h : Hub) : Hub :=
  h.icp 0x0A06 hdr fun h =>
    if 31 < pack.toNat ∧ pack ≠ 0xFF then h.badArg 0x0A06 hdr 0 else
    let h := h.storeUp
    let l := h.pat.results.filter fun e => pack == 0xFF || e.pack == pack.toNat
    h.stored 0x0A06 hdr ((List.range agentCount).flatMap fun o => (l.filter fun e => e.ordinal == o).flatMap ResultEntry.bytes)

def opPatternResultsClear (hdr : Hdr) (pack : Byte) (h : Hub) : Hub :=
  h.icp 0x0A07 hdr fun h =>
    if 31 < pack.toNat ∧ pack ≠ 0xFF then h.badArg 0x0A07 hdr 0
    else (h.storeUp.dropResults fun e => pack == 0xFF || e.pack == pack.toNat).stored 0x0A07 hdr []

def opCandidateList (hdr : Hdr) (h : Hub) : Hub :=
  h.icp 0x0A08 hdr fun h =>
    let h := h.storeUp
    let entry (c : Candidate) : List Byte :=
      fit 24 (le 4 c.seq.toNat ++ le 1 c.verdict ++ zeros 3 ++ le 8 c.capturePt ++ le 4 c.size)
    h.stored 0x0A08 hdr (h.pat.candidates.flatMap entry)

/-- The export of a candidate, signed with the identity key (R348). -/
def Hub.exportCandidate (h : Hub) (c : Candidate) : List Byte :=
  let b := c.body ++ ascii "IXYPSIG1" ++ fit 97 h.identityKey ++ zeros 7
  b ++ (match h.island.otp.identityScalar with
    | some d => ecdsaSign d (Config.signNonce h.island.signs) b
    | none => zeros 96)

def opCandidateExport (hdr : Hdr) (candSeq : W32) (h : Hub) : Hub :=
  h.icp 0x0A09 hdr fun h =>
    let h := h.storeUp
    match h.pat.candidates.find? fun c => c.seq == candSeq with
    | none => h.badArg 0x0A09 hdr 0
    | some c => { h with island.signs := h.island.signs + 1 }.stored 0x0A09 hdr (h.exportCandidate c)

def opCandidateRemove (hdr : Hdr) (candSeq : W32) (h : Hub) : Hub :=
  h.icp 0x0A0A hdr fun h =>
    let h := h.storeUp
    if !(h.pat.candidates.any fun c => c.seq == candSeq) then h.badArg 0x0A0A hdr 0 else
    let h := { h with pat.candidates := h.pat.candidates.filter fun c => c.seq != candSeq }
    (h.mirror (fun d => match d with | .cand c => c.seq == candSeq | _ => false) []).2.stored 0x0A0A hdr []

/-! ### Events -/

/-- PATTERN_RELOAD (R341). -/
def opPatternReload (h : Hub) : Hub := if h.domainOn 17 && h.pat.reloading then h.reloadStore else h

/-- RESULTS_MIRROR: changed results, or lost counts, are written to flash, at most once in 60 s (R341, R351). -/
def opResultsMirror (h : Hub) : Hub :=
  let early := h.pat.lastMirrorPt.any fun t => decide (h.pt < t + 60000000000)
  if !h.domainOn 17 || h.pat.reloading || !h.pat.changed || early then h else h.mirrorResults

/-! ### Meanings -/

def execPatternLoad (h : Hdr) (offset total : W32) (final : Byte) (data : List Byte) (st : State) :
    Host.Outcome State Fault Refusal :=
  .next { st with hub := opPatternLoad h offset total final data st.hub }
def execPatternRemove (h : Hdr) (packId : W64) (st : State) : Host.Outcome State Fault Refusal :=
  .next { st with hub := opPatternRemove h packId st.hub }
def execPatternList (h : Hdr) (st : State) : Host.Outcome State Fault Refusal :=
  .next { st with hub := opPatternList h st.hub }
def execPatternKeyRegister (h : Hdr) (key : List Byte) (st : State) : Host.Outcome State Fault Refusal :=
  .next { st with hub := opPatternKeyRegister h key st.hub }
def execPatternKeyRevoke (h : Hdr) (slot : Byte) (st : State) : Host.Outcome State Fault Refusal :=
  .next { st with hub := opPatternKeyRevoke h slot st.hub }
def execRunPatterns (h : Hdr) (packId : W64) (pattern : W16) (flags : Byte) (runLimit : W16) (units : List UnitId) (st : State) :
    Host.Outcome State Fault Refusal :=
  let r := opRunPatterns h packId pattern flags runLimit units st.mem st.hub
  .next { st with hub := r.1, mem := r.2 }
def execPatternResults (h : Hdr) (pack : Byte) (st : State) : Host.Outcome State Fault Refusal :=
  .next { st with hub := opPatternResults h pack st.hub }
def execPatternResultsClear (h : Hdr) (pack : Byte) (st : State) : Host.Outcome State Fault Refusal :=
  .next { st with hub := opPatternResultsClear h pack st.hub }
def execCandidateList (h : Hdr) (st : State) : Host.Outcome State Fault Refusal :=
  .next { st with hub := opCandidateList h st.hub }
def execCandidateExport (h : Hdr) (candSeq : W32) (st : State) : Host.Outcome State Fault Refusal :=
  .next { st with hub := opCandidateExport h candSeq st.hub }
def execCandidateRemove (h : Hdr) (candSeq : W32) (st : State) : Host.Outcome State Fault Refusal :=
  .next { st with hub := opCandidateRemove h candSeq st.hub }
def execPatternReload (st : State) : Host.Outcome State Fault Refusal :=
  .next { st with hub := opPatternReload st.hub }
def execResultsMirror (st : State) : Host.Outcome State Fault Refusal :=
  .next { st with hub := opResultsMirror st.hub }
def execRunLimitExpiry (unit : UnitId) (st : State) : Host.Outcome State Fault Refusal :=
  let r := opRunLimitExpiry unit st.mem st.hub
  .next { st with hub := r.1, mem := r.2 }

end Sys2Proof.Machine
end

