-- ==== Sys2Proof/Machine/FrontEnd.lean ====
section
/-! DEFINITION. The command front end's answers and time-outs (R59, R60), and the End of a reissued run (R286,
R344). -/

namespace Sys2Proof.Machine

/-- The oldest request that a predicate names, and the requests without it. -/
def takeRequest (p : FeReq → Bool) : List FeReq → Option (FeReq × List FeReq)
  | [] => none
  | q :: qs => if p q then some (q, qs) else (takeRequest p qs).map fun r => (r.1, q :: r.2)

/-- A request covers a unit; an empty list is chip scope. -/
def FeReq.covers (q : FeReq) (u : UnitId) : Bool := q.units.isEmpty || q.units.contains u

/-- The engines of a unit drop what they run, without an End record; a command step of such a command ends with OUTCOME 7
(R60, R179). -/
def Agent.dropAll (a : Agent) (u : UnitId) (pt : Nat) : Agent :=
  let stepped := (a.stepOnly.map fun e => ((a.engine e).running).isSome).getD false
  let a := a.settle pt
  let a := { a with engines := a.engines.map fun (e : Nat × Engine) => (e.1, { e.2 with running := none }) }
  if stepped then a.endCommandStep u pt (a.stepOnly.getD 0) 7 else a

/-- Queued and running commands of some units are gone; a reissued run among them is reported as dropped, without an
End record (R60). -/
def Hub.dropWork (h : Hub) (covers : UnitId → Bool) : Hub :=
  { h with fe := { h.fe with runs := h.fe.runs.filter fun r => !covers r.unit,
                             droppedRuns := h.fe.droppedRuns ++ h.fe.runs.filter fun r => covers r.unit },
           agents := h.agents.map fun (p : Nat × Agent) =>
             if p.2.powered && covers (unitOf p.1) then (p.1, p.2.dropAll (unitOf p.1) h.pt) else p }

/-- DROP_INFLIGHT is answered: work and reissued runs in its scope are gone, and the count goes to the record of
the reaction (R60, R319). -/
def Hub.droppedWork (h : Hub) (q : FeReq) (count : W16) : Hub :=
  let h := h.dropWork q.covers
  if !q.units.isEmpty then h else
  match q.record with
  | some s => { h with fc := h.fc.modRec s fun r => { r with discarded := count.toNat } }
  | none => h

/-- The executing RUN_PATTERNS. -/
def Hub.patRun (h : Hub) : Option PatRun :=
  match h.slot with
  | some ⟨_, _, _, _, .patterns r, _, _, _, _, _, _, _, _⟩ => some r
  | _ => none

/-- The executing REPLAY, where a unit is the spare whose turn it is. -/
def Hub.replayRun (h : Hub) (u : UnitId) : Option ReplayRun :=
  match h.slot with
  | some ⟨_, _, _, _, .replay r, _, _, _, _, _, _, _, _⟩ => if r.armAt.isNone && r.spares[r.now]? == some u then some r else none
  | _ => none

/-- The executing DUMP, before its units are read. -/
def Hub.waitingDump (h : Hub) : Option DumpRun :=
  match h.slot with
  | some ⟨_, _, _, _, .dump r, _, _, _, _, _, _, _, _⟩ => if r.reading then none else some r
  | _ => none

/-- REISSUE is answered. -/
def Hub.reissueAnswer (h : Hub) (m : SMap Byte) (q : FeReq) (u : UnitId) (ok : Bool) : Hub × SMap Byte :=
  let run : FeRun := { unit := u, engine := q.engine, scratch := q.scratch, startPt := h.pt }
  let h := if ok then { h with fe.runs := h.fe.runs ++ [run] } else h
  match h.replayRun u with
  | some r => (if ok then h else h.replayRefused r, m)
  | none =>
    match h.patRun with
    | some r =>
      if !(r.group.any fun g => g.unit == u && !g.accepted) then (h, m)
      else if ok then
        (h.setProg (.patterns { r with group := r.group.map fun (g : PatUnit) =>
          if g.unit = u then { g with accepted := true, startPt := h.pt } else g }), m)
      else h.runError m r u
    | none => (h, m)

/-- Requests in the order of Table 2-9, from 1, and their bounds in ns. -/
def feCode (r : FeRequest) : Nat :=
  match r with
  | .quiesce => 1
  | .resume => 2
  | .dropInflight => 3
  | .reissue => 4
  | .dumpModeEnter => 5
  | .dumpModeExit => 6

def feBound (r : FeRequest) : Nat :=
  match r with
  | .quiesce => 100000
  | .resume => 10000
  | .dropInflight => 20000
  | .reissue => 2000
  | .dumpModeEnter => 50000
  | .dumpModeExit => 50000

/-- An answer and the request it answers. -/
def FeAnswer.answers (a : FeAnswer) (q : FeReq) : Bool :=
  match a, q.req with
  | .quiesced _, .quiesce => true
  | .resumed, .resume => true
  | .dropped _, .dropInflight => true
  | .reissueAccepted u _, .reissue => q.units == [u]
  | .dumpModeEntered, .dumpModeEnter => true
  | .dumpModeExited, .dumpModeExit => true
  | _, _ => false

/-- A DROP_INFLIGHT that is still outstanding names a unit. -/
def Hub.dropOutstanding (h : Hub) (u : UnitId) : Bool :=
  h.fe.requests.any fun q => q.req == .dropInflight && q.covers u

/-- The units that an answer to QUIESCE shows as quiesced: those it lists, and those that an outstanding DROP_INFLIGHT
names too, on which the drop takes effect first (R60). -/
def Hub.quiescedBy (h : Hub) (q : FeReq) (us : List UnitId) : List UnitId :=
  q.units.filter fun u => us.contains u || h.dropOutstanding u

/-- FRONT_END_ANSWER: the oldest request of its kind is answered, within its bound (R59). With the crossbar in dump mode
every tier-1 controller leaves self-refresh (R190). -/
def opFrontEndAnswer (a : FeAnswer) (m : SMap Byte) (h : Hub) : Hub × SMap Byte :=
  match takeRequest (fun q => FeAnswer.answers a q && decide (h.pt ≤ q.sentPt + feBound q.req)) h.fe.requests with
  | none => (h, m)
  | some (q, rest) =>
    let h := { h with fe.requests := rest }
    match a with
    | .quiesced us =>
      let us := h.quiescedBy q us
      let h := h.dropWork fun u => q.units.contains u && h.dropOutstanding u
      let h := { h with fe.quiesced := h.fe.quiesced ++ us.filter fun u => !h.fe.quiesced.contains u }
      match h.patRun with
      | some r => if r.started then (h, m) else h.beginPatterns m { r with quiesced := us }
      | none => (h, m)
    | .resumed =>
      let h := { h with fe.quiesced := h.fe.quiesced.filter fun u => !q.units.contains u }
      match h.patRun with
      | some r => (if r.finishing then h.endPatterns r else h, m)
      | none => (h, m)
    | .dropped count => (h.droppedWork q count, m)
    | .reissueAccepted u ok => h.reissueAnswer m q u ok
    | .dumpModeEntered =>
      let h := { h with fe.dumpMode := true,
                        agents := h.agents.map fun (p : Nat × Agent) => (p.1, { p.2 with selfRefresh := false }) }
      match h.waitingDump with
      | some r => h.dumpRead m r
      | none => (h, m)
    | .dumpModeExited => ({ h with fe.dumpMode := false }, m)

/-- REPLAY ends at its bound: no verdict, and the tiles found so far, of which none is kept by a model whose
bisection takes no time (Table 16-5). -/
def Hub.replayBound (h : Hub) (run : ReplayRun) : Hub :=
  let st : ReplayStat := { verdict := 0, flags := 4 * (run.spec.options &&& 1), runs := run.results, inputs := run.inputs }
  { h with replayStat := st }.conclude .boundReached st.bytes

/-- A DROP_INFLIGHT for one unit has no answer in its bound: the UNIT_RETIRE or the RUN_PATTERNS that asked for it ends as
at its bound (R59). -/
def Hub.dropFailed (h : Hub) (us : List UnitId) : Hub :=
  match us, h.slot with
  | [u], some e =>
    match e.prog with
    | .retire v => if v = u then h.conclude .boundReached (h.retireBody false) else h
    | .patterns r => if r.units.contains u then h.patternsBound r else h
    | _ => h
  | _, _ => h

/-- The opcode that made a failed request ends as Table 16-5 states. -/
def Hub.requestFailed (h : Hub) (m : SMap Byte) (q : FeReq) : Hub × SMap Byte :=
  match q.req with
  | .quiesce =>
    match h.patRun with
    | some r => (if r.started then h else h.endPatterns { r with bound := true, notRun := r.units }, m)
    | none => (h, m)
  | .resume =>
    match h.patRun with
    | some r => (if r.finishing then h.endPatterns { r with bound := true } else h, m)
    | none => (h, m)
  | .reissue =>
    let u := q.units.headD 0
    match h.replayRun u with
    | some r => (h.replayBound r, m)
    | none =>
      match h.patRun with
      | some r => (if r.group.any fun g => g.unit == u && !g.accepted then h.patternLate r u else h, m)
      | none => (h, m)
  | .dropInflight => (h.dropFailed q.units, m)
  | .dumpModeEnter =>
    match h.waitingDump with
    | some r => (h.conclude .boundReached (le 4 r.dumpId.toNat ++ closeHeader (h.dumpHead r false false 0 0)), m)
    | none => (h, m)
  | _ => (h, m)

/-- FRONT_END_TIMEOUT: a request without an answer within its bound raises 0xFC1 and has failed (R59). -/
def opFrontEndTimeout (r : FeRequest) (m : SMap Byte) (h : Hub) : Hub × SMap Byte :=
  match takeRequest (fun q => q.req == r && decide (q.sentPt + feBound r ≤ h.pt)) h.fe.requests with
  | none => (h, m)
  | some (q, rest) => ({ h with fe.requests := rest }.raise 0xFC1 0 (feCode r)).requestFailed m q

/-- REISSUE_END: the engine's End record, then what the run was for. A gated unit's run does not end. -/
def opReissueEnd (unit : UnitId) (error : Bool) (m : SMap Byte) (h : Hub) : Hub × SMap Byte :=
  match h.fe.runs.find? fun r => r.unit == unit with
  | none => (h, m)
  | some run =>
    if (h.agent unit).engineGated run.engine || !(h.agent unit).powered then (h, m) else
    let h := { h with fe.runs := h.fe.runs.filter fun r => r.unit != unit }
    let h := match ((h.agent unit).engine run.engine).running with
      | some c => h.sourceEnd unit run.engine c.tag error
      | none => h
    match h.replayRun unit with
    | some r => (h.replayRunEnded r, m)
    | none =>
      match h.patRun with
      | some r =>
        match r.group.find? fun g => g.unit == unit && g.accepted with
        | some g => h.patRunEnded m r g error
        | none => (h, m)
      | none => (h, m)

/-! ### Meanings -/

def execFrontEndAnswer (a : FeAnswer) (st : State) : Host.Outcome State Fault Refusal :=
  let r := opFrontEndAnswer a st.mem st.hub
  .next { st with hub := r.1, mem := r.2 }
def execFrontEndTimeout (r : FeRequest) (st : State) : Host.Outcome State Fault Refusal :=
  let r := opFrontEndTimeout r st.mem st.hub
  .next { st with hub := r.1, mem := r.2 }
def execReissueEnd (unit : UnitId) (error : Bool) (st : State) : Host.Outcome State Fault Refusal :=
  let r := opReissueEnd unit error st.mem st.hub
  .next { st with hub := r.1, mem := r.2 }

end Sys2Proof.Machine
end

