-- ==== Sys2Proof/Machine/Redundancy.lean ====
section
/-! DEFINITION. The redundant controllers and the Keystone (R352 to R365): heartbeat and grant words, the
Keystone's decisions, the output stages, synchronization, and the group redundancy (0x0Bxx). -/

namespace Sys2Proof.Machine

/-! ### Words (Tables 15-3 and 15-4) -/

/-- The CRC-8 of bits [63:8] of a word (R87). -/
def wordCrc (v : Nat) : Nat := (crc8 (bitsDown 56 (v / 256))).toNat

/-- A word with its CRC. -/
def sealWord (v : Nat) : W64 := BitVec.ofNat 64 (v + wordCrc v)

/-- A word's CRC is good. -/
def wordGood (w : W64) : Bool := wordCrc w.toNat == w.toNat % 256

/-- ROLE codes (Table 15-1). A Withdrawn controller sends nothing, and has no code. -/
def ctrlRoleCode (r : CtrlRole) : Nat :=
  match r with
  | .booting => 0
  | .active => 1
  | .synchronized => 2
  | .unsynchronized => 3
  | .resynchronizing => 4
  | .withdrawn => 0

/-- A heartbeat word (Table 15-3). -/
def heartbeatWord (side : Half) (c : Ctrl) (withdraw : Bool) (seq : Byte) : W64 :=
  sealWord (2 ^ 60 + halfNat side * 2 ^ 59 + ctrlRoleCode c.role * 2 ^ 56 + b2n c.peerLost * 2 ^ 55 +
    b2n withdraw * 2 ^ 54 + c.claim.toNat * 2 ^ 16 + seq.toNat * 2 ^ 8)

/-- A grant word (Table 15-4): TYPE 2 GRANT or 3 REFRESH. -/
def grantWordOf (typ : Nat) (holder : Half) (cold : Bool) (claim : W32) : W64 :=
  sealWord (typ * 2 ^ 60 + halfNat holder * 2 ^ 59 + b2n cold * 2 ^ 58 + claim.toNat * 2 ^ 24)

/-- Periods since AO power-on (R353): boundaries at every 2,500th AO edge. -/
def Hub.period (h : Hub) : Nat := h.time.edge / 2500

/-- The domain of a controller. -/
def abutmentDomain (s : Half) : Nat := match s with | .west => 2 | .east => 3

def Hub.ctrlOn (h : Hub) (s : Half) : Bool := h.domainOn (abutmentDomain s)
def Hub.setCtrl (h : Hub) (s : Half) (c : Ctrl) : Hub := { h with red := h.red.setCtrl s c }

/-! ### Heartbeats (R353, R354) -/

/-- HEARTBEAT_SEND: one word in the first 50 us of a period; with WITHDRAW at once, after which the
controller is Withdrawn (R353, Table 15-2), but not before the reply to ACTIVE_RELEASE (R364). -/
def opHeartbeatSend (side : Half) (h : Hub) : Hub :=
  let c := h.red.ctrl side
  if !h.ctrlOn side || c.role == .withdrawn then h
  else if c.withdrawing && h.red.heldReplies.any (·.opcode == 0x0B02) then h
  else if c.withdrawing then
    let w := heartbeatWord side c true (c.hbSeq + 1)
    (h.setCtrl side { c with hbSeq := c.hbSeq + 1, sentIn := some h.period, role := .withdrawn, withdrawing := false,
                             solo := false, fast := false }).emit (.heartbeat side w)
  else if c.sentIn = some h.period ∨ 1250 ≤ h.time.edge % 2500 then h
  else
    let w := heartbeatWord side c false (c.hbSeq + 1)
    (h.setCtrl side { c with hbSeq := c.hbSeq + 1, sentIn := some h.period }).emit (.heartbeat side w)

/-- A heartbeat word is valid on the wire of a sender (R354); `last` is the sender's previous valid HB_SEQ. -/
def heartbeatValid (sender : Half) (last : Option Byte) (w : W64) : Bool :=
  let v := w.toNat
  wordGood w && bits v 63 60 == 1 && bits v 59 59 == halfNat sender &&
    (match last with | none => true | some l => laterThan 8 (bits v 15 8) l.toNat)

/-- The Keystone takes a valid word. -/
def KsSide.take (k : KsSide) (w : W64) : KsSide :=
  let v := w.toNat
  { k with seen := true, withdraw := bit v 54, role := BitVec.ofNat 3 (bits v 58 56),
           claim := BitVec.ofNat 32 (bits v 47 16), hbSeq := some (BitVec.ofNat 8 (bits v 15 8)), word := w }

/-- A run of periods with a word in each. -/
def runOn (run seenIn now : Nat) : Nat :=
  if run = 0 then 1 else if seenIn = now then run else if seenIn + 1 = now then run + 1 else 1

/-- The peer takes a valid word. -/
def Ctrl.take (c : Ctrl) (w : W64) (period : Nat) : Ctrl :=
  let v := w.toNat
  { c with peerSeq := some (BitVec.ofNat 8 (bits v 15 8)), peerGood := runOn c.peerGood c.peerSeenIn period,
           peerActive := if bits v 58 56 = 1 then runOn c.peerActive c.peerSeenIn period else 0,
           peerSeenIn := period, peerLost := false }

/-- HEARTBEAT_RECEIVED at the Keystone or at the peer. -/
def opHeartbeatReceived (sender : Half) (wire : BeatWire) (word : W64) (h : Hub) : Hub :=
  match wire with
  | .toKeystone =>
    let k := h.red.ks sender
    if heartbeatValid sender k.hbSeq word then { h with red := h.red.setKs sender (k.take word) } else h
  | .toPeer =>
    let r := otherHalf sender
    let c := h.red.ctrl r
    if h.ctrlOn r && heartbeatValid sender c.peerSeq word then h.setCtrl r (c.take word h.period) else h

/-! ### Roles (Table 15-2) -/

/-- The active counts the standby as Synchronized no longer: an event of source 0xFE8, once (Table 15-6, log entry
163). -/
def Hub.standbyLost (h : Hub) : Hub :=
  if h.red.synced then { h with red.synced := false }.raise 0xFE8 0 0 else h

/-- The standby becomes Unsynchronized (Table 15-2). -/
def Hub.unsync (h : Hub) (s : Half) : Hub :=
  let c := h.red.ctrl s
  { h.setCtrl s { c with role := .unsynchronized } with red.resyncSince := none, red.lastAttempt := none }.standbyLost

/-- A resynchronization attempt ends without success: the next one is due 10 ms after it began (R361). A STANDBY_RESYNC
goes on to its bound, where it ends with ROLE 4 (log entry 32). -/
def Hub.resyncFailed (h : Hub) (s : Half) : Hub :=
  let c := h.red.ctrl s
  { h.setCtrl s { c with role := .unsynchronized } with red.resyncSince := none }

/-- Start a resynchronization attempt (R361). -/
def Hub.startResync (h : Hub) (s : Half) : Hub :=
  let c := h.red.ctrl s
  let h := h.setCtrl s { c with role := .resynchronizing }
  { h with red := { h.red with resyncSince := some h.pt, lastAttempt := some h.pt } }.syncDone

/-- A controller becomes Active without a synchronized set: solo resynchronization, and every session ends
(R361); its fast clock starts (Table 15-7). -/
def Hub.becomeSolo (h : Hub) (s : Half) : Hub :=
  let c := (h.red.ctrl s).atWork h.pt
  { (h.setCtrl s { c with role := .active, solo := true }).endAllSessions with discards := [] }

/-- An attempt can begin: 3 consecutive valid Active heartbeats from the peer, and one firmware on both sides
(R352, R361, R418). -/
def Hub.canResync (h : Hub) (s : Half) : Bool :=
  let c := h.red.ctrl s
  let p := h.red.ctrl (otherHalf s)
  h.ctrlOn s && c.up && decide (c.role = .unsynchronized) && decide (3 ≤ c.peerActive) &&
    decide (h.period ≤ c.peerSeenIn + 1) && c.version == p.version

/-- PEER_HEARTBEAT_MISSED: 3 consecutive periods without a valid word set PEER_LOST; a Resynchronizing
standby leaves at the first one (Table 15-2). At the active it is the standby that has stopped (Table 15-6). -/
def opPeerHeartbeatMissed (side : Half) (h : Hub) : Hub :=
  let c := h.red.ctrl side
  if !h.ctrlOn side || c.role == .withdrawn then h else
  let h1 := if c.role = .resynchronizing ∧ c.peerSeenIn + 1 < h.period then h.resyncFailed side else h
  if c.peerSeenIn + 3 < h.period ∧ c.peerLost = false then
    let c1 := h1.red.ctrl side
    let h2 := h1.setCtrl side { c1 with peerLost := true, peerGood := 0, peerActive := 0 }
    if c.role = .synchronized then h2.unsync side
    else if c.role = .active then h2.standbyLost
    else h2
  else h1

/-- A resynchronization attempt has lasted longer than 2 ms (Table 15-2). -/
def Hub.resyncLate (h : Hub) : Bool := match h.red.resyncSince with | some t => decide (t + 2000000 < h.pt) | none => false

/-- RESYNC_COMPLETE: the snapshot is applied and the stream caught up, within 2 ms (Table 15-2). -/
def opResyncComplete (h : Hub) : Hub :=
  let s := otherHalf h.red.holder
  let c := h.red.ctrl s
  if c.role ≠ .resynchronizing then h
  else if h.resyncLate then h.resyncFailed s
  else
  let h := h.setCtrl s { c with role := .synchronized }
  let h := { h with red := { h.red with resyncSince := none, lastAttempt := none, syncRecv := h.red.syncSent,
                                        synced := true } }
  match h.slot with
  | some ⟨_, _, _, _, .resync, _, _, _, _, _, _, _, _⟩ => h.conclude .ok [2]
  | _ => h

/-- RESYNC_TIMEOUT: a sync-lane error, or 2 ms have elapsed (Table 15-2). -/
def opResyncTimeout (h : Hub) : Hub :=
  let s := otherHalf h.red.holder
  if (h.red.ctrl s).role = .resynchronizing then h.resyncFailed s else h

/-- RESYNC_RETRY: an attempt of an Unsynchronized standby, when its condition first holds and then every
10 ms (R361). -/
def opResyncRetry (h : Hub) : Hub :=
  let s := otherHalf h.red.holder
  let due := match h.red.lastAttempt with | none => true | some t => decide (t + 10000000 ≤ h.pt)
  if h.red.granted && h.canResync s && due then h.startResync s else h

/-- SOLO_RESYNC_COMPLETE: the set is rebuilt and packets are accepted (R361). -/
def opSoloResyncComplete (h : Hub) : Hub :=
  let c := h.red.ctrl h.red.holder
  if c.role = .active ∧ c.solo = true then h.setCtrl h.red.holder { c with solo := false } else h

/-- A controller whose firmware is up takes its role from HOLDER (Table 15-2). -/
def Hub.takeRole (h : Hub) (s : Half) : Hub :=
  let c := h.red.ctrl s
  if c.role ≠ .booting ∨ c.up = false then h
  else if h.red.holder = s then h.becomeSolo s
  else if 3 ≤ c.peerGood ∧ h.period ≤ c.peerSeenIn + 1 ∧ c.version = (h.red.ctrl (otherHalf s)).version then
    h.startResync s
  else { h.setCtrl s { c with role := .unsynchronized } with red.lastAttempt := none }

/-- The start-up grant: claim 1 to West, COLD, with no event and no count (R356). -/
def Hub.startGrant (h : Hub) : Hub :=
  let h := { h with red := { h.red with claim := 1, holder := .west, granted := true, grantPt := h.pt, cause := 0 },
                    power.startUp := .granted }
  ((h.emit (.grant (grantWordOf 2 .west true 1))).takeRole .west).takeRole .east

/-- FIRMWARE_UP: a booting controller's firmware is up, once the ROM loader has passed the image (R417). With both up the Keystone makes the start-up grant
(Table 18-7). -/
def opFirmwareUp (side : Half) (h : Hub) : Hub :=
  let c := h.red.ctrl side
  if !h.ctrlOn side || !h.mayBoot || c.role != .booting || c.up then h else
  let h := h.setCtrl side { c with up := true, version := BitVec.ofNat 32 (imageVersion h.image) }
  if h.red.granted then h.takeRole side
  else if h.power.startUp = .verified ∧ h.red.west.up = true ∧ h.red.east.up = true then h.startGrant
  else h

/-- CONTROLLER_COLD_CYCLE: a Withdrawn controller's domain powers off and on, and it boots (Table 15-2). -/
def opControllerColdCycle (side : Half) (h : Hub) : Hub :=
  let c := h.red.ctrl side
  if c.role ≠ .withdrawn then h else
  let h := { h with power.domains := domainBit h.power.domains (abutmentDomain side) false,
                    fc.linesHigh := h.fc.linesHigh.filter fun s => s != 0xFBB + halfNat side }
  (h.setCtrl side { role := .booting, hbSeq := c.hbSeq }).powerDomain (abutmentDomain side)

/-- A controller withdraws, after one heartbeat with WITHDRAW set (Table 15-2). -/
def Hub.withdraw (h : Hub) (side : Half) : Hub :=
  let c := h.red.ctrl side
  if c.role = .withdrawn then h else h.setCtrl side { c with withdrawing := true }

/-- FAST_CLOCK_LOSS: armed only while the fast clock is requested; the controller withdraws (R58, R413). -/
def opFastClockLoss (side : Half) (h : Hub) : Hub :=
  let c := h.red.ctrl side
  if !h.ctrlOn side || !c.fast || c.role == .withdrawn then h else
  let h := (h.setCtrl side { c with fast := false }).withdraw side
  let s := 0xFBB + halfNat side
  { h with fc.linesHigh := insertNat s h.fc.linesHigh }.raiseLine s 0 h.pt

/-! ### The Keystone (R356 to R358) -/

/-- Count the period that ends now for one controller, where counting runs for it (R354, R355). -/
def KsSide.count (k : KsSide) (edge : Nat) (on : Bool) : KsSide :=
  if on && decide (k.countFrom + 2500 ≤ edge) then
    { k with history := ((k.seen && !k.withdraw) :: k.history).take 3,
             missed := if k.seen then 0 else sat8 (k.missed + 1), seen := false }
  else { k with seen := false }

/-- COLD of the current grant (Table 15-4): it was made to a controller that was not Synchronized, at start-up or as row 4
of Table 15-5 says. -/
def Red.isCold (r : Red) : Bool := r.cause == 0 || r.cause == 3

/-- The REFRESH word of the current grant. -/
def Red.refresh (r : Red) : W64 := grantWordOf 3 r.holder r.isCold r.claim

/-- A GRANT (R358): the claim increases by one, the other controller holds it, and the event is raised. The
command in flight is discarded; after a cold grant no session exists, and no packet is answered DISCARDED (R363). -/
def Hub.grant (h : Hub) (cold : Bool) (cause : Nat) : Hub :=
  let r := h.red
  let claim := r.claim + 1
  let next := otherHalf r.holder
  let h := if cold then { h.discardInFlight with discards := [] } else h.discardInFlight
  let r := h.red
  let red := { r with claim := claim, holder := next, headless := false, synced := false, grants := sat32 (r.grants + 1),
                      grantPt := h.pt, cause := cause }
  let h := { h with red := red }.emit (.grant (grantWordOf 2 next cold claim))
  h.raise 0xFE7 0 claim.toNat

/-- Table 15-5. -/
def Hub.keystoneDecide (h : Hub) : Hub :=
  let r := h.red
  let k := r.ks r.holder
  let o := r.ks (otherHalf r.holder)
  let gone := decide (3 ≤ k.missed) || k.withdraw
  if r.frozen || !r.granted then h
  else if k.alive && !r.headless then
    if k.claim = r.claim then h else h.emit (.grant r.refresh)
  else if gone && o.alive && o.role == 2 then h.grant false (if k.withdraw then 2 else 1)
  else if gone && o.alive && (o.role == 0 || o.role == 3 || o.role == 4) then h.grant true 3
  else if gone && !o.alive then
    if r.headless then h else { h with red.headless := true }.raise 0xFE7 0 r.claim.toNat
  else if r.headless && k.alive then { h with red.headless := false }
  else h

/-- KEYSTONE_DECISION: at a period boundary the periods are counted, the table is applied and a refresh word
goes out; between boundaries the table is applied where the holder has sent WITHDRAW (R358). -/
def opKeystoneDecision (h : Hub) : Hub :=
  let e := h.time.edge
  if e % 2500 = 0 ∧ h.red.boundary < e then
    let r := { h.red with boundary := e, ksWest := h.red.ksWest.count e (h.ctrlOn .west),
                          ksEast := h.red.ksEast.count e (h.ctrlOn .east) }
    let h := { h with red := r }
    let h := if r.granted then h.emit (.grant r.refresh) else h
    h.keystoneDecide
  else if (h.red.ks h.red.holder).withdraw then h.keystoneDecide
  else h

/-- A grant copy mismatch: the claim is frozen and the safe state entered (R54, row 1 of Table 15-5). -/
def Hub.keystoneFault (h : Hub) (data : Nat) : Hub := { h with red.frozen := true }.raise 0xFBD 0 data

/-- KEYSTONE_FAULT: the two copies of a grant word differ at an output stage, or one fails its CRC (R54,
R357). -/
def opKeystoneFault (stage : Nat) (wordA wordB : W64) (h : Hub) : Hub :=
  if stage < stageCount ∧ h.domainOn (stageDomain stage) = true ∧ (wordA ≠ wordB ∨ wordGood wordA = false) then
    h.keystoneFault 1
  else h

/-- The claim and holder of a grant word. -/
def grantClaim (w : W64) : W32 := BitVec.ofNat 32 (bits w.toNat 55 24)
def grantHolder (w : W64) : Half := if bit w.toNat 59 then .east else .west
def grantType (w : W64) : Bool := bits w.toNat 63 60 == 2 || bits w.toNat 63 60 == 3

/-- What an output stage holds after a word (R357). -/
def adopt (held : Option (W32 × Half)) (claim : W32) (holder : Half) : Option (W32 × Half) :=
  match held with
  | none => some (claim, holder)
  | some (c, s) => if laterThan 32 claim.toNat c.toNat then some (claim, holder) else some (c, s)

/-- An Abutment takes a grant word whose claim is the one it holds or a later one (Table 15-2, R83). -/
def Hub.abutmentGrant (h : Hub) (s : Half) (claim : W32) (holder : Half) : Hub :=
  let c := h.red.ctrl s
  if !h.ctrlOn s || c.role == .withdrawn ||
     (c.heard && !(claim == c.claim || laterThan 32 claim.toNat c.claim.toNat)) then h else
  let c := { c with claim := claim, heard := true }
  let h := h.setCtrl s c
  match c.role with
  | .active => if holder = s then h
               else { h.setCtrl s { c with role := .unsynchronized, solo := false } with red.lastAttempt := none }
  | .synchronized => if holder = s then h.setCtrl s { c.atWork h.pt with role := .active } else h
  | .unsynchronized => if holder = s then h.becomeSolo s else h
  | .resynchronizing => if holder = s then { h with red.resyncSince := none }.becomeSolo s else h
  | _ => h

/-- GRANT_WORD at an output stage or an Abutment (R357, Table 15-2). -/
def opGrantWord (rx : GrantRx) (wordA wordB : W64) (h : Hub) : Hub :=
  let good := wordA == wordB && wordGood wordA
  match rx with
  | .stage i =>
    if stageCount ≤ i ∨ h.domainOn (stageDomain i) = false then h
    else if !good then h.keystoneFault 1
    else if !grantType wordA then h
    else
      let held := adopt (mapGet none h.red.stages i) (grantClaim wordA) (grantHolder wordA)
      { h with red.stages := mapSet none h.red.stages i held }
  | .abutment s => if good && grantType wordA then h.abutmentGrant s (grantClaim wordA) (grantHolder wordA) else h

/-- The half an output stage lies in: the transmit mux is West; injectors, collectors and memory ports are in pairs. -/
def stageHalf (i : Nat) : Half := if i = 2 ∨ (19 ≤ i ∧ i < 35) ∨ i = 36 then .east else .west

/-- The level of the safe state at an output stage: in the West half from the collector's front, in the East over SAFE_E
(R53, Table 13-7). -/
def Hub.stageSafe (h : Hub) (i : Nat) : Bool := match stageHalf i with | .west => h.fc.safe | .east => h.safeEHigh

/-- STAGE_ACCESS: performed where side and claim equal what the stage holds; refused and counted otherwise
(R357). A memory-fabric port that holds the level of the safe state starts no access (Table 13-7). -/
def opStageAccess (stage : Nat) (side : Half) (claim : W32) (h : Hub) : Hub :=
  if stageCount ≤ stage ∨ h.domainOn (stageDomain stage) = false then h
  else if h.stageSafe stage && decide (35 ≤ stage) then h
  else if mapGet none h.red.stages stage = some (claim, side) then h
  else h.refuse stage side

/-! ### Synchronization (R360) -/

/-- SYNC_CHANGE: the active sends the next change. `seq` is the SYNC_SEQ the standby receives; a gap makes it
Unsynchronized, and a change it does not acknowledge keeps the active waiting. -/
def opSyncChange (seq : W32) (acked : Bool) (h : Hub) : Hub :=
  let s := otherHalf h.red.holder
  let c := h.red.ctrl s
  if (h.red.ctrl h.red.holder).role ≠ .active then h else
  let h := { h with red.syncSent := h.red.syncSent + 1 }
  if c.role ≠ .synchronized ∨ h.red.synced = false then h
  else if seq ≠ h.red.syncRecv + 1 then h.unsync s
  else
    let h := { h with red.syncRecv := seq }
    if acked then h.syncDone else { h with red.syncWait := some h.pt }

/-- SYNC_ACK_TIMEOUT: 50 us without the acknowledgement; the active treats the standby as Unsynchronized and
proceeds. The standby's own role stays (Table 15-2). -/
def opSyncAckTimeout (h : Hub) : Hub :=
  match h.red.syncWait with
  | none => h
  | some t =>
    if t + 50000 ≤ h.pt then h.syncDone.standbyLost else h

/-! ### Group 0x0Bxx -/

def opRedundancyStatus (hdr : Hdr) (h : Hub) : Hub :=
  h.icp 0x0B00 hdr fun h =>
    h.ok 0x0B00 hdr (h.red.registers ++ le 8 h.red.ksWest.word.toNat ++ le 8 h.red.ksEast.word.toNat)

/-- STANDBY_RESYNC (R361). -/
def opStandbyResync (hdr : Hdr) (h : Hub) : Hub :=
  h.icp 0x0B01 hdr fun h =>
    let s := otherHalf h.red.holder
    let c := h.red.ctrl s
    if c.role = .synchronized ∨ c.role = .resynchronizing then
      h.ok 0x0B01 hdr [BitVec.ofNat 8 (ctrlRoleCode c.role)]
    else if h.canResync s then (h.startResync s).occupy 0x0B01 hdr .resync
    else h.badState 0x0B01 hdr

/-- ACTIVE_RELEASE: the reply, then a heartbeat with WITHDRAW (R364). -/
def opActiveRelease (hdr : Hdr) (h : Hub) : Hub :=
  h.icp 0x0B02 hdr fun h =>
    if !h.red.standbySync || !h.red.synced || decide ((h.red.ctrl (otherHalf h.red.holder)).role ≠ .synchronized) then
      h.badState 0x0B02 hdr
    else
      let h := h.ok 0x0B02 hdr []
      let c := h.red.ctrl h.red.holder
      h.setCtrl h.red.holder { c with withdrawing := true }

/-! ### Meanings -/

def execRedundancyStatus (h : Hdr) (st : State) : Host.Outcome State Fault Refusal :=
  .next { st with hub := opRedundancyStatus h st.hub }
def execStandbyResync (h : Hdr) (st : State) : Host.Outcome State Fault Refusal :=
  .next { st with hub := opStandbyResync h st.hub }
def execActiveRelease (h : Hdr) (st : State) : Host.Outcome State Fault Refusal :=
  .next { st with hub := opActiveRelease h st.hub }
def execHeartbeatSend (side : Half) (st : State) : Host.Outcome State Fault Refusal :=
  .next { st with hub := opHeartbeatSend side st.hub }
def execHeartbeatReceived (sender : Half) (wire : BeatWire) (word : W64) (st : State) :
    Host.Outcome State Fault Refusal :=
  .next { st with hub := opHeartbeatReceived sender wire word st.hub }
def execKeystoneDecision (st : State) : Host.Outcome State Fault Refusal :=
  .next { st with hub := opKeystoneDecision st.hub }
def execGrantWord (rx : GrantRx) (wordA wordB : W64) (st : State) : Host.Outcome State Fault Refusal :=
  .next { st with hub := opGrantWord rx wordA wordB st.hub }
def execStageAccess (stage : Nat) (side : Half) (claim : W32) (st : State) : Host.Outcome State Fault Refusal :=
  .next { st with hub := opStageAccess stage side claim st.hub }
def execSyncChange (seq : W32) (acked : Bool) (st : State) : Host.Outcome State Fault Refusal :=
  .next { st with hub := opSyncChange seq acked st.hub }
def execSyncAckTimeout (st : State) : Host.Outcome State Fault Refusal :=
  .next { st with hub := opSyncAckTimeout st.hub }
def execResyncComplete (st : State) : Host.Outcome State Fault Refusal :=
  .next { st with hub := opResyncComplete st.hub }
def execResyncTimeout (st : State) : Host.Outcome State Fault Refusal :=
  .next { st with hub := opResyncTimeout st.hub }
def execResyncRetry (st : State) : Host.Outcome State Fault Refusal :=
  .next { st with hub := opResyncRetry st.hub }
def execSoloResyncComplete (st : State) : Host.Outcome State Fault Refusal :=
  .next { st with hub := opSoloResyncComplete st.hub }
def execFirmwareUp (side : Half) (st : State) : Host.Outcome State Fault Refusal :=
  .next { st with hub := opFirmwareUp side st.hub }
def execPeerHeartbeatMissed (side : Half) (st : State) : Host.Outcome State Fault Refusal :=
  .next { st with hub := opPeerHeartbeatMissed side st.hub }
def execKeystoneFault (stage : Nat) (wordA wordB : W64) (st : State) : Host.Outcome State Fault Refusal :=
  .next { st with hub := opKeystoneFault stage wordA wordB st.hub }
def execFastClockLoss (side : Half) (st : State) : Host.Outcome State Fault Refusal :=
  .next { st with hub := opFastClockLoss side st.hub }
def execControllerColdCycle (side : Half) (st : State) : Host.Outcome State Fault Refusal :=
  .next { st with hub := opControllerColdCycle side st.hub }

end Sys2Proof.Machine
end

