-- ==== Sys2Proof/Machine/Bounds.lean ====
section
/-! DEFINITION. The completion bounds of the commands that take time, and the partial result with which each of
them ends (R376, Table 16-5). -/

namespace Sys2Proof.Machine

/-- 50 us, or 70 us with list scope. -/
def scopeBound (sc : Scope) : Nat := if sc = .mask then 70000 else 50000

/-- The bound of a command that addresses several agents (Table 16-5). -/
def gatherBound (i : Instr) : Nat :=
  match i with
  | .counterRead _ _ _ => 10000000
  | _ => 500000

/-- The time of a streamed reply of `n` bytes: 2.9 GB/s at the port, 4 MB/s over JTAG (R377, R383). -/
def streamNs (t : Transport) (n : Nat) : Nat := match t with | .jtag => 250 * n | .dpt => 10 * n / 29

/-- The bound of the executing command in ns; none where Table 16-5 says that it always completes within it. -/
def Hub.boundNs (h : Hub) (e : Exec) : Option Nat :=
  match e.prog with
  | .stop => some (scopeBound ((h.stops.newest.map fun (n : StopInfo) => n.scope).getD .chip))
  | .stepCheck _ _ _ => some 150000
  | .cycles _ _ => some 150000
  | .cmdStep _ limit => some (1000 * limit + 100000)
  | .freeze _ id => some (scopeBound (h.arrays.freezeScope id).1)
  | .dump _ => some 2000000000
  | .query _ => some 2000000000
  | .replay _ => some 2000000000
  | .patterns r => some (10000000000 + r.extraNs)
  | .resync => some 3000000
  | .retire _ => some 250000
  | .access _ (.stepCommand _ _ _ _ limit) => some (1000 * limit.toNat + 100000)
  | .access _ (.inspectRead _ _ _ _ length) => some (1000000 + streamNs e.transport length.toNat)
  | .access _ _ => some 1000000
  | .gather _ (.counterSnapshotRead _ _) => none
  | .gather _ i => some (gatherBound i)
  | .cancel | .resume _ | .aggregate _ _ _ | .lifecycle | .inject => none

/-- An access that no agent has answered by the bound: nothing was read or written. -/
def Hub.accessBound (h : Hub) (u : UnitId) (i : Instr) : Hub :=
  let h1 := h.dropAccess u
  match i with
  | .stepCommand _ _ _ _ _ => h1.conclude .boundReached (h.stepBody u)
  | .regWrite _ _ _ => h1.conclude .boundReached (le 2 0)
  | .inspectWrite _ _ _ _ _ => h
  | _ => h1.conclude .boundReached []

/-- The multicasts that a command has out end at its bound: the agents not yet done are reported (R118). -/
def Hub.boundMcasts (h : Hub) : Hub :=
  let left (m : Mcast) : List UnitId := m.lost ++ if m.sent then m.waiting else m.addressed.filter fun u => !m.took.contains u
  h.dcn.mcasts.foldl (fun h m => (h.endCombine m.tag).emit (.multicast m.tag (left m))) { h with dcn.mcasts := [] }

/-- A command that addresses several agents ends while some have not answered: nothing has been staged, cleared or read
(R118, Table 16-5). -/
def Hub.gatherBoundEnd (h : Hub) (us : List UnitId) (i : Instr) : Hub :=
  let h := us.foldl Hub.dropAccess h
  match i with
  | .traceConfig _ _ _ => h.boundMcasts.conclude .boundReached (le 8 0 ++ le 4 0 ++ le 4 us.length)
  | .soundingSet _ _ => h.boundMcasts.conclude .boundReached (le 8 0 ++ le 4 0)
  | .counterClear _ _ => h.conclude .boundReached (le 4 0 ++ le 4 us.length)
  | _ => h.conclude .boundReached []

/-- The executing command ends with BOUND_REACHED and its partial result. -/
def Hub.endAtBound (h : Hub) (m : SMap Byte) (e : Exec) : Hub × SMap Byte :=
  match e.prog with
  | .stop =>
    match h.stops.newest with
    | some n => (h.conclude .boundReached (h.stopBody n), m)
    | none => (h, m)
  | .stepCheck ts d _ => (h.conclude .boundReached (h.cyclesBody e ts d), m)
  | .cycles t d => (h.conclude .boundReached (h.cyclesBody e t d), m)
  | .cmdStep u _ => (h.conclude .boundReached (h.stepBody u), m)
  | .freeze f id => (h.conclude .boundReached (h.freezeBody e f id), m)
  | .dump run => h.dumpTail m run true
  | .query r => (h.conclude .boundReached (r.scan.reply r.cursor false true), m)
  | .replay run => (h.replayBound run, m)
  | .patterns r => (h.patternsBound r, m)
  | .resync => (h.conclude .boundReached [4], m)
  | .retire _ => (h.conclude .boundReached (h.retireBody false), m)
  | .access u i => (h.accessBound u i, m)
  | .gather us i => (h.gatherBoundEnd us i, m)
  | .cancel | .resume _ | .aggregate _ _ _ | .lifecycle | .inject => (h, m)

/-- OPCODE_BOUND_END: the bound is counted from the receipt of the complete packet. -/
def opOpcodeBoundEnd (m : SMap Byte) (h : Hub) : Hub × SMap Byte :=
  match h.slot with
  | none => (h, m)
  | some e =>
    match h.boundNs e with
    | none => (h, m)
    | some n => if h.pt < e.startPt + n then (h, m) else h.endAtBound m e

/-! ### Meanings -/

def execOpcodeBoundEnd (st : State) : Host.Outcome State Fault Refusal :=
  let r := opOpcodeBoundEnd st.mem st.hub
  .next { st with hub := r.1, mem := r.2 }

end Sys2Proof.Machine
end

