-- ==== Sys2Proof/Machine/I3c.lean ====
section
/-! DEFINITION. The I3C target (R45 to R48): common command codes, private reads and writes, the image taken
every 1 ms, in-band interrupts and the wake request (R409). -/

namespace Sys2Proof.Machine

/-- The target is active after the OTP vote (Table 2-1). -/
def Hub.i3cActive (h : Hub) : Bool := decide (h.power.startUp ≠ .powerGood)

/-- ENTDAA and SETDASA give a dynamic address to a target without one (R45). -/
def Hub.takeAddress (h : Hub) (address : BitVec 7) : Hub :=
  if h.i3cActive && h.i3c.dynAddr.isNone then { h with i3c.dynAddr := some address } else h

def opEntdaa (address : BitVec 7) (h : Hub) : Hub := h.takeAddress address
def opSetdasa (address : BitVec 7) (h : Hub) : Hub := h.takeAddress address

/-- RSTDAA also disables target interrupts (R48); an IBI that waits is dropped (log entry 87). -/
def opRstdaa (h : Hub) : Hub :=
  if h.i3cActive then { h with i3c := { h.i3c with dynAddr := none, ibiEnabled := false, ibi := none } } else h

def opEnec (h : Hub) : Hub := if h.i3cActive then { h with i3c.ibiEnabled := true } else h

/-- DISEC disables target interrupts; an IBI that waits is dropped with them, as at RSTDAA (log entry 87). -/
def opDisec (h : Hub) : Hub :=
  if h.i3cActive then { h with i3c := { h.i3c with ibiEnabled := false, ibi := none } } else h

/-- Answer a common command code, most significant octet first as MIPI I3C sends it (log entry 11). -/
def Hub.ccc (h : Hub) (b : List Byte) : Hub := if h.i3cActive then h.emit (.i3c b) else h

/-- GETSTATUS (R45): HUB_STATE [7:0] of the latest image above the low octet. The protocol error clears once it has
been reported (log entry 86). -/
def opGetstatus (h : Hub) : Hub :=
  let b := [h.i3c.image.getD 4 0, BitVec.ofNat 8 (b2n h.i3c.ibi.isSome + 32 * b2n h.i3c.protocolError)]
  if h.i3cActive then { h with i3c.protocolError := false }.emit (.i3c b) else h

def opGetpid (h : Hub) : Hub := h.ccc (be 6 h.provisionedId)
def opGetbcr (h : Hub) : Hub := h.ccc [0x06]
def opGetdcr (h : Hub) : Hub := h.ccc [0x00]
def opGetmwl (h : Hub) : Hub := h.ccc (be 2 2)
def opGetmrl (h : Hub) : Hub := h.ccc (be 2 64)

/-- WAKE: the write of 0x01 to index 0x60 wakes domains 2, 3 and 18 (R409). -/
def opWake (h : Hub) : Hub :=
  if h.i3cActive && decide (h.power.startUp = .ready) then h.wake else h

/-- A private write: one octet sets the index; 0x60 and 0x01 request a wake; any other is ignored (R46). A write
whose parity is wrong is a protocol error of MIPI I3C Basic (TE2): the target ignores it and GETSTATUS [5] shows it
(R45, log entry 86). -/
def opI3cPrivateWrite (bytes : List Byte) (parityGood : Bool) (h : Hub) : Hub :=
  if !h.i3cActive then h
  else if !parityGood then { h with i3c.protocolError := true }
  else match bytes with
  | [i] => { h with i3c.index := i.toNat }
  | [0x60, 0x01] => if h.power.startUp = .ready then h.wake else h
  | _ => h

/-- The octet of the image at an index; an index that Table 2-4 does not list reads zero. -/
def imageAt (image : List Byte) (i : Nat) : Byte := if i < 0x28 then image.getD i 0 else 0

/-- A private read: octets of one image from the index upward, which advances (R46, R47); past index 0xFF it goes on
at 0x00, and a read longer than GETMRL's 64 octets is served whole (log entry 88). -/
def opI3cPrivateRead (count : Nat) (h : Hub) : Hub :=
  if !h.i3cActive then h else
  let b := (List.range count).map fun k => imageAt h.i3c.image ((h.i3c.index + k) % 256)
  { h with i3c.index := (h.i3c.index + count) % 256 }.emit (.i3c b)

/-- IMAGE_SNAPSHOT: a new image each 1 ms (R47). -/
def opImageSnapshot (h : Hub) : Hub :=
  let old := h.i3c.image
  if !old.isEmpty && decide (h.pt < h.i3c.imagePt + 1000000) then h else
  let b := h.imageBytes
  { h with i3c := { h.i3c with image := b, imagePt := h.pt, lowest := 750 } }.noteIbi

/-- IBI_ACCEPTED: the controller takes the waiting byte (R48). -/
def opIbiAccepted (h : Hub) : Hub :=
  match h.i3c.ibi with
  | some b => { h with i3c.ibi := none }.emit (.ibi b)
  | none => h

/-! ### Meanings -/

def execEntdaa (address : BitVec 7) (st : State) : Host.Outcome State Fault Refusal :=
  .next { st with hub := opEntdaa address st.hub }
def execSetdasa (address : BitVec 7) (st : State) : Host.Outcome State Fault Refusal :=
  .next { st with hub := opSetdasa address st.hub }
def execRstdaa (st : State) : Host.Outcome State Fault Refusal :=
  .next { st with hub := opRstdaa st.hub }
def execEnec (st : State) : Host.Outcome State Fault Refusal :=
  .next { st with hub := opEnec st.hub }
def execDisec (st : State) : Host.Outcome State Fault Refusal :=
  .next { st with hub := opDisec st.hub }
def execGetstatus (st : State) : Host.Outcome State Fault Refusal :=
  .next { st with hub := opGetstatus st.hub }
def execGetpid (st : State) : Host.Outcome State Fault Refusal :=
  .next { st with hub := opGetpid st.hub }
def execGetbcr (st : State) : Host.Outcome State Fault Refusal :=
  .next { st with hub := opGetbcr st.hub }
def execGetdcr (st : State) : Host.Outcome State Fault Refusal :=
  .next { st with hub := opGetdcr st.hub }
def execGetmwl (st : State) : Host.Outcome State Fault Refusal :=
  .next { st with hub := opGetmwl st.hub }
def execGetmrl (st : State) : Host.Outcome State Fault Refusal :=
  .next { st with hub := opGetmrl st.hub }
def execI3cPrivateWrite (w : PrivateWrite) (st : State) : Host.Outcome State Fault Refusal :=
  .next { st with hub := opI3cPrivateWrite w.bytes w.parityGood st.hub }
def execI3cPrivateRead (count : Nat) (st : State) : Host.Outcome State Fault Refusal :=
  .next { st with hub := opI3cPrivateRead count st.hub }
def execWake (st : State) : Host.Outcome State Fault Refusal :=
  .next { st with hub := opWake st.hub }
def execImageSnapshot (st : State) : Host.Outcome State Fault Refusal :=
  .next { st with hub := opImageSnapshot st.hub }
def execIbiAccepted (st : State) : Host.Outcome State Fault Refusal :=
  .next { st with hub := opIbiAccepted st.hub }

end Sys2Proof.Machine
end

