-- ==== Sys2Proof/Machine/Operands.lean ====
section
/-! DEFINITION. The operand forms of the opcodes: the payload columns of Table 16-5, read field by field under
the alignment of R371. A payload that cannot be read whole gives the offset of its first faulty field (R373). -/

namespace Sys2Proof.Machine

/-! ### Fields -/

/-- A reader of a payload: the cursor after it, or the offset of the field at fault. -/
abbrev Parse := StateT Rd (Except Nat)

/-- A field of `w` octets at its alignment. -/
def field (w : Nat) : Parse Nat := fun r =>
  match r.get w with
  | some (v, _, r) => .ok (v, r)
  | none => .error (r.skipTo (alignOf w)).off

/-- Fields of the widths the opcodes use. -/
def f8 : Parse Byte := do return BitVec.ofNat 8 (← field 1)
def f16 : Parse W16 := do return BitVec.ofNat 16 (← field 2)
def f32 : Parse W32 := do return BitVec.ofNat 32 (← field 4)
def f64 : Parse W64 := do return BitVec.ofNat 64 (← field 8)

/-- An octet string of `n` octets. -/
def fOctets (n : Nat) : Parse (List Byte) := fun r =>
  match r.octets n with
  | some (b, r) => .ok (b, r)
  | none => .error r.off

/-- All octets that are left. -/
def fRest : Parse (List Byte) := fun r => .ok (r.rest, { r with off := r.bytes.length })

/-- The next multiple of `w`. -/
def skip (w : Nat) : Parse Unit := fun r => .ok ((), r.skipTo w)

/-- A group of fields `n` times; `w` is the width of its widest field (R371). -/
def group {α : Type} (w : Nat) (p : Parse α) : Nat → Parse (List α)
  | 0 => return []
  | n + 1 => do
    skip w
    let x ← p
    skip w
    let xs ← group w p n
    return x :: xs

/-- A count above its limit is itself the field at fault, at offset `o`. -/
def countUpTo (n limit o : Nat) : Parse Unit := if limit < n then throw o else return ()

/-- The payload ends here; excess octets are no single field's fault. The last repetition of a group may end in
skipped octets. -/
def done : Parse Unit := fun r => if r.bytes.length ≤ r.off then .ok ((), r) else .error noOffset

/-- The scope block (R371): units follow for SCOPE 3 only, so a count elsewhere is at fault with no unit read. -/
def scopeBlock : Parse ScopeBlock := do
  let start ← get
  let scope ← f8
  let sel ← f8
  let n ← field 2
  if scope = 3 then
    let units ← group 2 f16 n
    return { scope := scope, sel := sel, units := units }
  else if n = 0 then return { scope := scope, sel := sel, units := [] }
  else throw ((scopeFault { scope := scope, sel := sel, units := [0] } start.off).getD noOffset)

/-! ### The groups of Table 16-5 -/

def parse00 (code : Nat) (h : Hdr) : Option (Parse Instr) :=
  match code with
  | 0x0000 => some (do done; return .identify h)
  | 0x0001 => some (do let r ← f8; let p ← f8; done; return .sessionChallenge h r p)
  | 0x0002 => some (do let r ← f8; let p ← f8; let x ← fOctets 48; done; return .sessionOpen h r p x)
  | 0x0003 => some (do done; return .sessionClose h)
  | 0x0004 => some (do done; return .identityCert h)
  | 0x0100 => some (do done; return .hubStatus h)
  | 0x0101 => some (do let sb ← scopeBlock; done; return .unitStatus h sb)
  | 0x0102 => some (do let c ← f16; done; return .chipIdSet h c)
  | 0x0103 => some (do done; return .retiredMapGet h)
  | 0x0104 => some (do done; return .safeRecordGet h)
  | 0x0200 => some (do done; return .timeGet h)
  | 0x0201 => some (do let r ← f32; let b ← f64; done; return .sightStart h r b)
  | 0x0202 => some (do done; return .sightReset h)
  | 0x0203 => some (do done; return .sightStatus h)
  | _ => none

def parse03 (code : Nat) (h : Hdr) : Option (Parse Instr) :=
  match code with
  | 0x0300 => some (do let r ← f32; done; return .declareHang h r)
  | 0x0301 => some (do let t ← f64; let p ← f8; let sb ← scopeBlock; done; return .hangStop h t p sb)
  | 0x0302 => some (do done; return .stopCancel h)
  | 0x0303 => some (do done; return .hangStatus h)
  | 0x0304 => some (do done; return .hangClear h)
  | 0x0305 => some (do let t ← f64; let d ← f16; let f ← f8; done; return .stepCycles h t d f)
  | 0x0306 => some (do let t ← f64; let u ← f16; let e ← f8; let l ← f16; done; return .stepCommand h t u e l)
  | 0x0307 => some (do let t ← f64; let s ← f8; done; return .resume h t s)
  | 0x0308 => some (do let u ← f16; let s ← f8; let o ← f32; let l ← f32; done; return .inspectRead h u s o l)
  | 0x0309 => some (do let u ← f16; let s ← f8; let o ← f32; let d ← fRest; return .inspectWrite h u s o d)
  | _ => none

/-- A region of DUMP. -/
def region : Parse (W64 × W64) := do let b ← f64; let l ← f64; return (b, l)

def parse04 (code : Nat) (h : Hdr) : Option (Parse Instr) :=
  match code with
  | 0x0400 => some (do let b ← f64; let s ← f64; done; return .dumpRegionSet h b s)
  | 0x0401 => some (do let f ← f8; let n ← field 1; let l ← group 8 region n; done; return .dump h f l)
  | 0x0402 => some (do done; return .dumpStatus h)
  | 0x0403 => some (do let i ← f32; let o ← f64; let l ← f64; done; return .dumpFetch h i o l)
  | 0x0404 => some (do let i ← fOctets 32; let a ← f64; let l ← f64; done; return .dumpImageRegister h i a l)
  | 0x0405 => some (do let i ← f16; done; return .dumpImageRemove h i)
  | 0x0406 => some (do done; return .dumpImageList h)
  | _ => none

/-- An entry of TRACE_CONFIG. -/
def traceEntryF : Parse TraceEntry := do
  let s ← f32; let m ← f32; let v ← f64
  return { source := s, mask := m, set := v }

/-- SOURCE and MASK of TRACE_QUERY. -/
def sourceMask : Parse (W32 × W32) := do let s ← f32; let m ← f32; return (s, m)

def querySpec : Parse QuerySpec := do
  let collectors ← f32; let types ← f16; let always ← f8; let start ← f8
  let ptFrom ← f64; let ptTo ← f64; let tag ← f32; let tagMask ← f32; let line ← f64; let max ← f32
  let n ← field 1
  countUpTo n 16 44
  let sources ← group 4 sourceMask n
  return { collectors := collectors, types := types, always := always, startCollector := start, ptFrom := ptFrom,
           ptTo := ptTo, tag := tag, tagMask := tagMask, startLineSeq := line, maxMatches := max, sources := sources }

def parse05 (code : Nat) (h : Hdr) : Option (Parse Instr) :=
  match code with
  | 0x0500 => some (do
      let b ← f64; let s ← f64; let m ← f8; let f ← f8; let k ← f64; done
      return .traceRegionSet h b s m f k)
  | 0x0501 => some (do
      let t ← f64; let n ← field 2
      countUpTo n 254 8
      let l ← group 8 traceEntryF n
      done
      return .traceConfig h t l)
  | 0x0502 => some (do done; return .traceRestart h)
  | 0x0503 => some (do let t ← f64; let v ← f32; done; return .traceTrigger h t v)
  | 0x0504 => some (do let t ← f64; let v ← f32; done; return .traceMark h t v)
  | 0x0505 => some (do let q ← querySpec; done; return .traceQuery h q)
  | 0x0506 => some (do done; return .traceStatus h)
  | 0x0600 => some (do let w ← f8; let sb ← scopeBlock; done; return .counterRead h w sb)
  | 0x0601 => some (do let q ← f16; let sb ← scopeBlock; done; return .counterAggregate h q sb)
  | 0x0602 => some (do let f ← f64; let m ← f8; let sb ← scopeBlock; done; return .counterFreeze h f m sb)
  | 0x0603 => some (do let sb ← scopeBlock; done; return .counterSnapshotRead h sb)
  | 0x0604 => some (do let sb ← scopeBlock; done; return .counterClear h sb)
  | _ => none

def soundingSpec : Parse SoundingSpec := do
  let number ← f8; let taps ← f8; let format ← f8; let ctrl ← f8; let stats ← f16; let exp ← f8; let shifts ← f8
  let scale ← f8; let depth ← f8; let persist ← f8; let sb ← scopeBlock
  let period ← f32; let a ← f64; let b ← f64; let tc ← f64
  return { number := number, tapMask := taps, format := format, ctrl := ctrl, stats := stats, expBase := exp,
           shifts := shifts, scaleBase := scale, depth := depth, persist := persist, scope := sb, periodUs := period,
           selA := a, selB := b, tc := tc }

/-- An input range of REPLAY. -/
def replayRange : Parse ReplayRange := do
  let b ← f64; let s ← f64; let x ← f64; let n ← f32; let f ← f8
  return { base := b, scaleBase := s, expect := x, elements := n, format := f }

def replaySpec : Parse ReplaySpec := do
  let epoch ← f32; let digest ← f64; let elements ← f32; let beginPt ← f64; let from_ ← f64
  let scratch ← f64; let out ← f64; let outScale ← f64; let unit ← f16; let s0 ← f16; let s1 ← f16
  let engine ← f8; let format ← f8; let options ← f8; let n ← field 1; let tile ← f32; let desc ← field 2
  let ranges ← group 8 replayRange n
  let descriptor ← fOctets desc
  return { epoch := epoch, origDigest := digest, origElements := elements, origBeginPt := beginPt,
           suspectFrom := from_, scratch := scratch, outBase := out, outScaleBase := outScale, origUnit := unit,
           spare0 := s0, spare1 := s1, origEngine := engine, outFormat := format, options := options, tile := tile,
           ranges := ranges, descriptor := descriptor }

def parse07 (code : Nat) (h : Hdr) : Option (Parse Instr) :=
  match code with
  | 0x0700 => some (do let p ← soundingSpec; done; return .soundingSet h p)
  | 0x0701 => some (do let s ← f8; let t ← f64; done; return .soundingClear h s t)
  | 0x0702 => some (do let k ← fOctets 16; done; return .soundingKey h k)
  | 0x0703 => some (do let s ← f8; let m ← f8; let q ← f32; done; return .soundingRead h s m q)
  | 0x0704 => some (do done; return .soundingStatus h)
  | 0x0705 => some (do let p ← replaySpec; done; return .replay h p)
  | 0x0706 => some (do done; return .replayStatus h)
  | 0x0800 => some (do
      let s ← f8; let n ← field 2
      countUpTo n 256 2
      let l ← group 4 f32 n
      done
      return .probeLoad h s l)
  | 0x0801 => some (do let s ← f8; let p ← f32; let t ← f64; done; return .probeStart h s p t)
  | 0x0802 => some (do let s ← f8; done; return .probeStop h s)
  | 0x0803 => some (do let s ← f8; done; return .probeStatus h s)
  | _ => none

/-- An entry of FAULT_CONFIG. -/
def faultEntryF : Parse FaultEntry := do
  let s ← f16; let n ← f8; let w ← f8; let r ← f8; let t ← f8
  return { source := s, nM1 := n, wexp := w, reaction := r, taint := t }

def parse09 (code : Nat) (h : Hdr) : Option (Parse Instr) :=
  match code with
  | 0x0900 => some (do
      let n ← field 2
      countUpTo n 511 0
      let l ← group 2 faultEntryF n
      done
      return .faultConfig h l)
  | 0x0901 => some (do let s ← f32; let m ← f8; done; return .faultRead h s m)
  | 0x0902 => some (do let n ← field 1; let l ← group 4 f32 n; done; return .faultAck h l)
  | 0x0903 => some (do done; return .faultHistoryRead h)
  | 0x0904 => some (do let s ← f16; let u ← f16; let d ← f32; done; return .faultInject h s u d)
  | 0x0905 => some (do
      let n ← field 1
      countUpTo n 4 0
      let l ← group 2 f16 n
      done
      return .taintDestSet h l)
  | 0x0906 => some (do let e ← f32; done; return .taintEpochSet h e)
  | 0x0907 => some (do let u ← f16; done; return .unitRetire h u)
  | _ => none

def parse0A (code : Nat) (h : Hdr) : Option (Parse Instr) :=
  match code with
  | 0x0A00 => some (do
      let o ← f32; let t ← f32; let f ← f8; let d ← fRest
      return .patternLoad h o t f d)
  | 0x0A01 => some (do let i ← f64; done; return .patternRemove h i)
  | 0x0A02 => some (do done; return .patternList h)
  | 0x0A03 => some (do let k ← fOctets 97; done; return .patternKeyRegister h k)
  | 0x0A04 => some (do let s ← f8; done; return .patternKeyRevoke h s)
  | 0x0A05 => some (do
      let i ← f64; let p ← f16; let f ← f8; let l ← f16; let n ← field 2
      let us ← group 2 f16 n
      done
      return .runPatterns h i p f l us)
  | 0x0A06 => some (do let p ← f8; done; return .patternResults h p)
  | 0x0A07 => some (do let p ← f8; done; return .patternResultsClear h p)
  | 0x0A08 => some (do done; return .candidateList h)
  | 0x0A09 => some (do let s ← f32; done; return .candidateExport h s)
  | 0x0A0A => some (do let s ← f32; done; return .candidateRemove h s)
  | _ => none

def parse0B (code : Nat) (h : Hdr) : Option (Parse Instr) :=
  match code with
  | 0x0B00 => some (do done; return .redundancyStatus h)
  | 0x0B01 => some (do done; return .standbyResync h)
  | 0x0B02 => some (do done; return .activeRelease h)
  | 0x0C00 => some (do done; return .lifecycleGet h)
  | 0x0C01 => some (do let t ← f8; let c ← f32; done; return .lifecycleAdvance h t c)
  | 0x0C02 => some (do let r ← f8; let x ← fOctets 48; done; return .roleKeyProgram h r x)
  | 0x0D00 => some (do done; return .firmwareInfo h)
  | 0x0D01 => some (do
      let o ← f32; let t ← f32; let f ← f8; let d ← fRest
      return .firmwareWrite h o t f d)
  | 0x0E00 => some (do let a ← f32; let n ← f16; done; return .regRead h a n)
  | 0x0E01 => some (do
      let a ← f32; let n ← field 2
      countUpTo n 1024 4
      let l ← group 4 f32 n
      done
      return .regWrite h a l)
  | _ => none

/-- The reader of an opcode's payload; none for a reserved number (R378). -/
def payloadOf (code : Nat) (h : Hdr) : Option (Parse Instr) :=
  match code / 0x100 with
  | 0 | 1 | 2 => parse00 code h
  | 3 => parse03 code h
  | 4 => parse04 code h
  | 5 | 6 => parse05 code h
  | 7 | 8 => parse07 code h
  | 9 => parse09 code h
  | 10 => parse0A code h
  | _ => parse0B code h

/-- The command a payload spells, or the offset of its first faulty field. -/
def parsePayload (p : Parse Instr) (bytes : List Byte) : Except Nat Instr :=
  match p { bytes := bytes } with
  | .ok (i, _) => .ok i
  | .error o => .error o

/-! ### Headers (Table 16-2) -/

/-- The fields of a packet's header. -/
structure Header where
  version : Nat
  flags : Nat
  opcode : W16
  hdr : Hdr
  status : Nat
  rsv : Nat
  length : Nat

def parseHeader (b : List Byte) : Header :=
  let f (o n : Nat) : Nat := leNat ((b.drop o).take n)
  { version := f 0 1, flags := f 1 1, opcode := BitVec.ofNat 16 (f 2 2),
    hdr := { sequence := BitVec.ofNat 16 (f 4 2), session := BitVec.ofNat 32 (f 12 4) },
    status := f 6 1, rsv := f 7 1, length := f 8 4 }

/-- Row 5 of Table 16-4 for a packet of `n` octets, but for the opcode. -/
def Header.bad (x : Header) (n : Nat) : Bool :=
  x.version != 1 || decide (4096 < x.length) || x.length + 16 != n || decide (1 < x.flags / 2) || x.rsv != 0 ||
    x.status != 0

end Sys2Proof.Machine
end

