-- ==== Sys2Proof/Machine/Port.lean ====
section
/-! DEFINITION. The Debug Port lane and its link layer (R38 to R41, R366 to R369), and the TAP's transport of
reply words and status (R42 to R44, R381 to R383). Frames that carry packets are in Packet. -/

namespace Sys2Proof.Machine

/-! ### Frames (Table 16-1) -/

/-- A frame's fields, where its length is right. A frame that is not laid out as Table 16-1 says, with its reserved octet
or the FSEQ or LEN of an ACK or NAK not zero, is of no type: 0 stands for it (log entry 164). -/
structure FrameFields where
  ftype : Nat
  fseq : W16
  ack : W16
  payload : List Byte
  crcGood : Bool

def parseFrame (b : List Byte) : Option FrameFields :=
  let len := leNat ((b.drop 6).take 2)
  if b.length < 12 ∨ b.length ≠ 12 + len ∨ 65532 < b.length then none else
  let t := (b.getD 0 0).toNat
  let zero := leNat ((b.drop 2).take 2) = 0 ∧ len = 0
  some { ftype := if b.getD 1 0 = 0 ∧ (t = 1 ∨ zero) then t else 0, fseq := BitVec.ofNat 16 (leNat ((b.drop 2).take 2)),
         ack := BitVec.ofNat 16 (leNat ((b.drop 4).take 2)), payload := (b.drop 8).take len,
         crcGood := leNat (b.drop (8 + len)) == (crc32c (b.take (8 + len))).toNat }

/-- The far end has received every frame before `n`: those are acknowledged (R368). -/
def Hub.acked (h : Hub) (n : W16) : Hub :=
  let rest := h.port.unacked.filter fun f => !laterThan 16 n.toNat f.fseq.toNat
  if rest.length = h.port.unacked.length then h else { h with port := { h.port with unacked := rest, ackPt := h.pt } }

/-- Frames are acknowledged, and waiting packets move up (R368). -/
def Hub.takeAck (h : Hub) (n : W16) : Hub := (h.acked n).pump

/-- Send a NAK with the number expected, but not within 10 us of the one before (R368). -/
def Hub.sendNak (h : Hub) : Hub :=
  match h.port.nakPt with
  | some t => if h.pt < t + 10000 then h
              else { h with port := { h.port with nakPt := some h.pt, naks := sat32 (h.port.naks + 1) } }.emit (.frame (nakFrame h.port.expectFseq))
  | none => { h with port := { h.port with nakPt := some h.pt, naks := sat32 (h.port.naks + 1) } }.emit (.frame (nakFrame h.port.expectFseq))

/-- A frame with a bad CRC is discarded and counted (Table 19-8). -/
def Hub.badFrame (h : Hub) : Hub := { h with port.crc := sat32 (h.port.crc + 1) }.sendNak

/-- Resend every unacknowledged frame (R368). -/
def Hub.resendAll (h : Hub) : Hub :=
  let n := h.port.unacked.length
  let port := { h.port with unacked := h.port.unacked.map fun f => { f with resends := f.resends + 1, sentPt := h.pt },
                            resends := sat32 (h.port.resends + n) }
  h.port.unacked.foldl (fun h f => h.emit (.frame (dataFrame f.fseq h.port.expectFseq f.packet))) { h with port := port }

/-- Frames are received in Up only, and note when the latest came (R39, R40). -/
def Hub.inUp (h : Hub) : Bool := decide (h.port.lane = .up)

def Hub.frameSeen (h : Hub) : Hub := { h with port.lastFramePt := h.pt }

/-- A complete frame, one whose length and CRC are right, wakes the Abutments (R39, log entry 84). -/
def Hub.frameTaken (h : Hub) : Hub := h.frameSeen.wake

/-- ACK_FRAME (R368). -/
def opAckFrame (bytes : List Byte) (h : Hub) : Hub :=
  if !h.inUp then h else
  match parseFrame bytes with
  | none => h.frameSeen.badFrame
  | some f => if !f.crcGood then h.frameSeen.badFrame
              else if f.ftype = 2 then h.frameTaken.takeAck f.ack else h.frameTaken.sendNak

/-- NAK_FRAME: every unacknowledged frame is resent, beginning with the one it names; packets that wait follow them
(R368). -/
def opNakFrame (bytes : List Byte) (h : Hub) : Hub :=
  if !h.inUp then h else
  match parseFrame bytes with
  | none => h.frameSeen.badFrame
  | some f => if !f.crcGood then h.frameSeen.badFrame
              else if f.ftype = 3 then ((h.frameTaken.acked f.ack).resendAll).pump else h.frameTaken.sendNak

/-- ACK_TIMER: 2 us after a DATA frame with none waiting to be sent (R368). -/
def opAckTimer (h : Hub) : Hub :=
  match h.port.ackDue with
  | some t =>
    if h.inUp && h.port.waiting.isEmpty && decide (t + 2000 ≤ h.pt) then
      { h with port.ackDue := none }.emit (.frame (ackFrame h.port.expectFseq))
    else h
  | none => h

/-- RESEND_TIMEOUT: the oldest unacknowledged frame has waited 50 us without ACK advancing (R368). -/
def opResendTimeout (h : Hub) : Hub :=
  match h.port.unacked.head? with
  | some f => if h.inUp && decide (max f.sentPt h.port.ackPt + 50000 ≤ h.pt) then h.resendAll else h
  | none => h

/-! ### Lane (Table 2-2) -/

/-- Leave Up: the exit is counted, the port resets, the sessions end (R41). -/
def Hub.leaveUp (h : Hub) (lane : Lane) : Hub :=
  let h := h.leaveTransport .dpt
  let p := { h.port with retrains := sat32 (h.port.retrains + 1), lane := lane, trainingPt := h.pt }
  { h with port := p.reset }

/-- LINK_RETRAIN_REQUEST: 16 resends of one frame, or 10 ms without progress (R369). -/
def opLinkRetrainRequest (h : Hub) : Hub :=
  let stuck := h.port.unacked.any fun f => decide (16 ≤ f.resends)
  let slow := !h.port.unacked.isEmpty && decide (h.port.ackPt + 10000000 ≤ h.pt)
  if h.inUp && (stuck || slow) then (h.leaveUp .training).emit .retrain else h

/-- The lane enters Training, with its domains. -/
def Hub.startTraining (h : Hub) : Hub :=
  { h with port := { h.port with lane := .training, trainingPt := h.pt, energy := false } }.powerDomains [15, 16]

/-- SIGNAL_DETECT: energy for 1 us while Off, once signal detect is armed; before Ready the port's domains stay off, and
the lane goes to Training at Ready (R38, R421, R422). -/
def opSignalDetect (h : Hub) : Hub :=
  if h.port.lane ≠ .off ∨ h.power.startUp = .powerGood then h
  else if h.power.startUp = .ready then h.startTraining
  else { h with port.energy := true }

/-- Training that has not completed within 250 ms of entry to it leaves to Off (Table 2-2). -/
def Hub.trainingOver (h : Hub) : Hub := { h with port.lane := .off }.domainsOff [16, 15]

/-- TRAINING_COMPLETE: within 250 ms of entry to Training the lane enters Up and DPT is selected; sessions opened
over JTAG end (R38, R43). Until a frame has come, the 10 s of R40 count from the entry to Up (log entry 166). -/
def opTrainingComplete (h : Hub) : Hub :=
  if h.port.lane = .training then
    if h.port.trainingPt + 250000000 < h.pt then h.trainingOver else
    let h := h.leaveTransport .jtag
    let p := { h.port.reset with lane := .up, lastFramePt := h.pt, ackPt := h.pt }
    { h with port := p, tap := { h.tap with tx := [], txWait := [], waitFor := none, fullSince := none } }
  else h

/-- TRAINING_TIMEOUT: 250 ms after entry to Training (R38). -/
def opTrainingTimeout (h : Hub) : Hub :=
  if h.port.lane = .training ∧ h.port.trainingPt + 250000000 ≤ h.pt then h.trainingOver else h

/-- BLOCK_LOCK_LOSS: in Up, a retrain; in Training it changes no lane state (R38, R41). -/
def opBlockLockLoss (h : Hub) : Hub := if h.inUp then h.leaveUp .training else h

/-- LANE_IDLE_TIMEOUT: no session and no frame for 10 s (R40). -/
def opLaneIdleTimeout (h : Hub) : Hub :=
  if h.inUp && h.island.sessions.isEmpty && decide (h.port.lastFramePt + 10000000000 ≤ h.pt) then
    (h.leaveUp .off).domainsOff [16, 15]
  else h

/-! ### TAP -/

/-- TEST_LOGIC_RESET: a partly shifted packet is discarded, HALTED clears, IDCODE is selected; sessions
stay (R44, R381, R383). -/
def opTestLogicReset (h : Hub) : Hub := { h with tap := { h.tap with ir := 0x01, halted := false, rx := [] } }

/-- RX_READY: the hub can take a command word: start-up is over, or the loader is in recovery; not HALTED
(R417, R422, Table 16-6). -/
def Hub.rxReady (h : Hub) : Bool :=
  (decide (h.power.startUp = .ready) || decide (h.power.startUp = .recovery)) && !h.tap.halted

/-- The ICP_STATUS word (Table 16-6). -/
def Hub.icpStatus (h : Hub) : Nat :=
  b2n h.rxReady + 2 * b2n (!h.tap.tx.isEmpty) + 4 * b2n h.tap.dptDiscard + 8 * b2n h.tap.crcErr +
    16 * b2n h.tap.overrun + 32 * b2n h.tap.halted + 64 * b2n h.tap.abandoned +
    128 * b2n (h.transport == .jtag) + 0x10000 * sat16 h.tap.tx.length

/-- TAP instructions (Table 2-3). -/
inductive TapInstr where
  | idcode
  | icpData
  | icpStatus
  | bypass
  deriving DecidableEq, Repr

/-- Every opcode that Table 2-3 does not list selects BYPASS (R42). -/
def tapInstr (op : Byte) : TapInstr :=
  if op = 0x01 then .idcode else if op = 0x20 then .icpData else if op = 0x21 then .icpStatus else .bypass

/-- What Capture-IR loads (R42). -/
def irCapture : W32 := 0x01

/-- The device identification (Table 2-3). -/
def idcode : W32 := 0x090014C3

/-- The TAP is usable after the OTP vote (Table 2-1). -/
def Hub.tapUsable (h : Hub) : Bool := decide (h.power.startUp ≠ .powerGood)

/-- An IR scan, where there is one: the captured value shifts out and the new opcode is selected
(R42). -/
def Hub.scanIr (h : Hub) (ir : Option Byte) : Hub :=
  match ir with
  | none => h
  | some op => { h with tap.ir := op }.emit (.tdo 8 irCapture)

/-- Capture-DR of ICP_STATUS: the sticky bits clear in the Capture-DR that captures them (R382). -/
def Hub.captureStatus (h : Hub) : Hub :=
  let w := BitVec.ofNat 32 h.icpStatus
  { h with tap := { h.tap with dptDiscard := false, crcErr := false, overrun := false, abandoned := false } }.emit (.jtagStatus w)

/-- Capture-DR and Shift-DR of the data register that is selected: IDCODE, one bit of BYPASS (0 as IEEE 1149.1
captures it, log entry 85), ICP_STATUS, or the next word of ICP_DATA, which is delivered only at Update-DR (R42,
R381, R382). -/
def Hub.captureDr (h : Hub) : Hub :=
  match tapInstr h.tap.ir with
  | .idcode => h.emit (.tdo 32 idcode)
  | .bypass => h.emit (.tdo 1 0)
  | .icpStatus => h.captureStatus
  | .icpData => match h.tap.tx with
    | [] => h.emit (.jtag false 0)
    | w :: _ => h.emit (.jtag true w)

/-- ICP_STATUS_CAPTURE: a DR scan that ends without Update-DR; with ICP_STATUS selected it reports the transport's
status (R42, R382). ICP_DATA_UPDATE carries the IR scans that select. -/
def opIcpStatusCapture (h : Hub) : Hub := if h.tapUsable then h.captureDr else h

/-- Deliver the reply word that the scan has shifted out; VALID 0 where none is ready (R381). -/
def Hub.deliverWord (h : Hub) : Hub :=
  match h.tap.tx with
  | [] => h.emit (.jtag false 0)
  | w :: ws => ({ h with tap := { h.tap with tx := ws, fullSince := none } }.fillJtag).emit (.jtag true w)

/-- REPLY_ABANDONED: the reply buffer full and no word delivered for 1 s: the command whose reply it is ends (R383); one
that executes with no reply yet is another. -/
def opReplyAbandoned (h : Hub) : Hub :=
  match h.tap.fullSince with
  | some t =>
    if t + 1000000000 ≤ h.pt then
      { h with tap := { h.tap with tx := [], txWait := [], waitFor := none, fullSince := none, abandoned := true } }
    else h
  | none => h

/-! ### Meanings -/

def execAckFrame (bytes : List Byte) (st : State) : Host.Outcome State Fault Refusal :=
  .next { st with hub := opAckFrame bytes st.hub }
def execNakFrame (bytes : List Byte) (st : State) : Host.Outcome State Fault Refusal :=
  .next { st with hub := opNakFrame bytes st.hub }
def execAckTimer (st : State) : Host.Outcome State Fault Refusal :=
  .next { st with hub := opAckTimer st.hub }
def execResendTimeout (st : State) : Host.Outcome State Fault Refusal :=
  .next { st with hub := opResendTimeout st.hub }
def execLinkRetrainRequest (st : State) : Host.Outcome State Fault Refusal :=
  .next { st with hub := opLinkRetrainRequest st.hub }
def execSignalDetect (st : State) : Host.Outcome State Fault Refusal :=
  .next { st with hub := opSignalDetect st.hub }
def execTrainingComplete (st : State) : Host.Outcome State Fault Refusal :=
  .next { st with hub := opTrainingComplete st.hub }
def execTrainingTimeout (st : State) : Host.Outcome State Fault Refusal :=
  .next { st with hub := opTrainingTimeout st.hub }
def execBlockLockLoss (st : State) : Host.Outcome State Fault Refusal :=
  .next { st with hub := opBlockLockLoss st.hub }
def execLaneIdleTimeout (st : State) : Host.Outcome State Fault Refusal :=
  .next { st with hub := opLaneIdleTimeout st.hub }
def execTestLogicReset (st : State) : Host.Outcome State Fault Refusal :=
  .next { st with hub := opTestLogicReset st.hub }
def execIcpStatusCapture (st : State) : Host.Outcome State Fault Refusal :=
  .next { st with hub := opIcpStatusCapture st.hub }
def execReplyAbandoned (st : State) : Host.Outcome State Fault Refusal :=
  .next { st with hub := opReplyAbandoned st.hub }

end Sys2Proof.Machine
end

