-- ==== Sys2Proof/Machine/Time.lean ====
section
/-! DEFINITION. Group time (0x02xx), the time unit's events (R64 to R66) and sighting (R69 to R80). -/

namespace Sys2Proof.Machine

/-! ### Time unit -/

/-- PLL_LOCK: Interpolated at the next AO edge, unless the pod reference is lost (R64, R65). -/
def opPllLock (h : Hub) : Hub :=
  if !h.domainOn 18 then h else
  { h with time := { h.time with pllLocked := true, nextMode := if h.time.refLost then h.time.nextMode else some .interpolated },
           fc.linesHigh := h.fc.linesHigh.filter fun s => s != 0xFBA }

/-- The time PLL is lost: Dead-reckoned at the next AO edge (R65, R413). -/
def Hub.pllLost (h : Hub) : Hub :=
  { h with time := { h.time with pllLocked := false, nextMode := if h.time.refLost then h.time.nextMode else some .deadReckoned } }

/-- PLL_UNLOCK: a phase error above 1 ns (R413). -/
def opPllUnlock (h : Hub) : Hub :=
  let h := h.pllLost
  { h with fc.linesHigh := insertNat 0xFBA h.fc.linesHigh }.raiseLine 0xFBA 0 h.pt

/-- REFERENCE_LOSS: Holdover at the next edge, Unsighted, sighting Failed with its cause (R66, R70). -/
def opReferenceLoss (h : Hub) : Hub :=
  let h := { h with time := { h.time with refLost := true, nextMode := some .holdover },
                    sight := { h.sight with state := .failed, lostRef := true, starting := false, probe := none },
                    fc.linesHigh := insertNat 0xFB9 h.fc.linesHigh }
  h.raiseLine 0xFB9 0 h.pt

/-- REFERENCE_RETURN: back to the pod reference at an edge; the chip stays Unsighted (R66). -/
def opReferenceReturn (h : Hub) : Hub :=
  if !h.time.refLost then h else
  { h with time := { h.time with refLost := false,
                                 nextMode := some (if h.time.pllLocked then .interpolated else .deadReckoned) },
           fc.linesHigh := h.fc.linesHigh.filter fun s => s != 0xFB9 }

/-! ### Group 0x02xx -/

def opTimeGet (hdr : Hdr) (h : Hub) : Hub :=
  h.icp 0x0200 hdr fun h => h.ok 0x0200 hdr
    ([] |> put 8 h.pt |> put 1 (modeCode h.time.mode) |> put 1 (b2n h.unsighted))

/-- SIGHT_START (R69): BASE is taken at the next AO edge, where the chip enters Committed at depth 0. Until that edge
a second SIGHT_START gets BAD_STATE, an offer is discarded, and SIGHT_RESET cancels the start (log entry 93). -/
def opSightStart (hdr : Hdr) (round : W32) (base : W64) (h : Hub) : Hub :=
  h.icp 0x0201 hdr fun h =>
    let s := h.sight
    let later := match s.lastRound with | none => true | some r => laterThan 32 round.toNat r.toNat
    if !h.ident.assigned || s.state == .committed || s.state == .measuring || s.starting then h.badState 0x0201 hdr
    else if !later then h.badArg 0x0201 hdr 0
    else if base.toNat < h.pt + 1000000 ∨ 2 ^ 62 < base.toNat then h.badArg 0x0201 hdr 8
    else
      let s := { s with lastRound := some round, depth := 0, deep := false, parent := none,
                        ref := h.ident.chipId, lostRef := false, starting := true }
      { h with sight := s, time.nextPt := some base.toNat }.ok 0x0201 hdr []

/-- SIGHT_RESET: Idle; PT and the last round stay (Table 3-2). -/
def opSightReset (hdr : Hdr) (h : Hub) : Hub :=
  h.icp 0x0202 hdr fun h =>
    let s := { h.sight with state := .idle, parent := none, probe := none, sent := 0, echoes := [], fourthPt := none,
                            lostRef := false, starting := false, residuals := [] }
    { h with sight := s, time.nextPt := none }.ok 0x0202 hdr []

def Hub.residual (h : Hub) (l : Nat) : LinkResidual := mapGet {} h.sight.residuals l
def Hub.setResidual (h : Hub) (l : Nat) (r : LinkResidual) : Hub :=
  { h with sight.residuals := mapSet {} h.sight.residuals l r }

/-- A signed value as a two's-complement field of `n` bits. -/
def signedField (n : Nat) (x : Int) : Nat := (BitVec.ofInt n x).toNat

def opSightStatus (hdr : Hdr) (h : Hub) : Hub :=
  h.icp 0x0203 hdr fun h =>
    let s := h.sight
    let parent : Nat := match s.parent with | some l => l | none => (Config.noParent ()).toNat
    let link (l : Nat) : List Byte :=
      let r := h.residual l
      le 4 (signedField 32 r.residual) ++
        le 4 (Config.linkFlags (h.ctl.links.getLsbD l) r.checked r.asym r.unchecked).toNat
    h.ok 0x0203 hdr (le 1 (sightCode s.state) ++ le 1 s.depth ++ le 1 parent ++
      [Config.sightFlags s.deep h.unsighted s.lostRef] ++ le 4 ((s.lastRound.getD 0).toNat) ++ le 8 s.step ++
      (List.range 16).flatMap link)

/-! ### Messages (Table 3-3) -/

def offsetBytes (round : W32) (sender : W16) (depth : Nat) (deep : Bool) (ref : W16) : List Byte :=
  le 4 round.toNat ++ le 2 sender.toNat ++ le 1 depth ++ le 1 (b2n deep) ++ le 2 ref.toNat ++ zeros 2

def probeBytes (round : W32) (sender : W16) (seq : Nat) (check : Bool) : List Byte :=
  le 4 round.toNat ++ le 2 sender.toNat ++ le 1 (seq % 8 + 128 * b2n check) ++ [0]

def echoBytes (m : ProbeMsg) (sender : W16) (committed : Bool) (t2 t3 : Nat) : List Byte :=
  let t2 := if committed then t2 else 0
  let t3 := if committed then t3 else 0
  le 4 m.round.toNat ++ le 2 sender.toNat ++ le 1 (m.seq.toNat + 128 * b2n m.check) ++ le 1 (b2n committed) ++
    le 8 (t2 / 32) ++ le 8 (t3 / 32) ++ le 1 (t2 % 32) ++ le 1 (t3 % 32) ++ zeros 6

/-- Send offers on every link that is up, but the parent's (R74). -/
def Hub.sendOffers (h : Hub) : Hub :=
  let s := h.sight
  h.ctlAll s.parent 0x03 (offsetBytes (s.lastRound.getD 0) h.ident.chipId s.depth s.deep s.ref)

/-- The collector's own records whose PT the step has reached or passed: each Closed and Mark that is due goes ahead of the
step's Fix (R81, R221). -/
def Collector.duePlaced (c : Collector) (holder : Half) (pt : Nat) : Collector :=
  let closed := c.mirrors.filterMap fun m =>
    match m.2.closing with
    | some (reason, t) => if t ≤ pt then some (m.2.closedRec (BitVec.ofNat 20 m.1) reason t) else none
    | none => none
  let marks := (c.marks.filter fun m => decide (m.instant ≤ pt)).map fun m => m.record holder
  { c with intake := c.intake ++ closed ++ marks, marks := c.marks.filter fun m => decide (pt < m.instant),
           mirrors := c.mirrors.map fun (m : Nat × Mirror) =>
             (m.1, if (m.2.closing.any fun x => decide (x.2 ≤ pt)) then { m.2 with closing := none } else m.2) }

/-- A Fix with REASON 4 goes into every stream behind what has been stamped before the step (R221); a gap that is open is
recorded first, because its drops carry PTs from before the step (R81, log entry 94), then what falls due by the step. -/
def Collector.stepFix (c : Collector) (holder : Half) (i pt : Nat) : Collector :=
  if c.frozen || c.safeHalt then c else
  let c := (c.endGap i).duePlaced holder pt
  if c.lineSeq == 0 && c.line.isEmpty && c.intake.isEmpty then c else { c with intake := c.intake ++ [fixDueRec 4 pt] }

/-- Enter Committed at an AO edge, with the step applied there (R69, R70, R73, R74). -/
def Hub.commitSight (h : Hub) (step : Nat) : Hub :=
  let s := { h.sight with state := .committed, step := step, starting := false, probe := none, fourthPt := none,
                          committedPt := h.pt, residuals := [] }
  (collectorNumbers.foldl (fun (x : Hub) i => x.setCollector i ((x.collector i).stepFix h.red.holder i h.pt)) { h with sight := s }).sendOffers

/-! ### Sighting events -/

/-- An offer of the same round in the cycle of the one that was taken, from a link unit with a lower agent ordinal:
it is the one to take (R71). Link units are numbered in ordinal order, and what arrives at one PT counts as of one
cycle (log entry 90). -/
def Sighting.sameCycle (s : Sighting) (link : Nat) (round : W32) (pt : Nat) : Bool :=
  s.state == .measuring && s.offerPt == some pt && s.lastRound == some round && s.sent == 0 &&
    s.parent.any fun l => decide (link < l)

/-- SIGHT_OFFSET: the hub wakes (R410); an offer is taken in Idle, Behind or Failed where its round is later (R70, R74); of two offers in
one cycle the one of the lower ordinal (R71). -/
def opSightOffset (link : Nat) (m : OfferMsg) (h : Hub) : Hub :=
  let s := h.sight
  let later := match s.lastRound with | none => true | some r => laterThan 32 m.round.toNat r.toNat
  let free := s.state == .idle || s.state == .behind || s.state == .failed
  if 16 ≤ link then h else
  let h := h.wakeWork
  if !h.ident.assigned || !((free && later) || s.sameCycle link m.round h.pt) || s.starting then h else
  let depth := min 255 (m.depth.toNat + 1)
  let s := { s with state := .measuring, parent := some link, lastRound := some m.round, depth := depth,
                    deep := m.deep || decide (64 < depth), ref := m.ref, sent := 0, echoes := [], probe := none,
                    offerPt := some h.pt,
                    lastEchoPt := 0, fourthPt := none, lostRef := false, residuals := [] }
  { h with sight := s }

/-- SIGHT_PROBE: answered while Assigned is 1, in any sighting state (R76). -/
def opSightProbe (link : Nat) (m : ProbeMsg) (t2 t3 : Nat) (h : Hub) : Hub :=
  if !h.ident.assigned then h else
  let c := h.sight.state == .committed && h.sight.lastRound == some m.round
  h.emit (.ctl link 0x02 (echoBytes m h.ident.chipId c t2 t3))

/-- A broadcast that the hub has issued is still to be accepted by an agent, or its instant is to come (R104). -/
def Bcast.ahead (b : Bcast) (pt : Nat) : Bool := decide (pt < b.instant) || decide (pt < b.issuePt + 120)

/-- An action is armed at a PT instant, or has not completed (R79): a command, a broadcast on its way or armed at an
agent, a step, a stop before its completion, a freeze before its finalization, a sampling or posting, a Mark or
trigger that waits, and a queued action of a probe. -/
def Hub.actionArmed (h : Hub) : Bool :=
  h.slot.isSome || (h.agents.any fun a => !a.2.armed.isEmpty || a.2.stepRun.isSome) || h.stops.confirming ||
    (h.stops.newest.any fun n => !n.complete && decide (h.pt < n.t + 4000)) ||
    (h.dcn.issued.any fun b => b.ahead h.pt) || !h.dcn.combines.isEmpty ||
    (h.arrays.freezes.any fun f => !f.westDone || !f.eastDone) || (h.soundings.any fun s => s.2.posting.isSome) ||
    (h.trace.collectors.any fun c => !c.2.marks.isEmpty) || !h.probe.queue.isEmpty

/-- PROBE_SEND_DUE: 1 us after the previous echo or time-out; the first only once no action is armed
(R72, R79). -/
def opProbeSendDue (t1 : Nat) (h : Hub) : Hub :=
  let s := h.sight
  match s.parent with
  | none => h
  | some l =>
    if s.state ≠ .measuring ∨ s.probe.isSome ∨ s.fourthPt.isSome ∨ 8 ≤ s.sent ∨
        (0 < s.sent ∧ h.pt < s.lastEchoPt + 1000) ∨ (s.sent = 0 ∧ h.actionArmed) then h
    else
      let p : ProbeOut := { link := l, seq := s.sent, t1 := t1, sentPt := h.pt, check := false }
      let r := s.lastRound.getD 0
      { h with sight := { s with probe := some p, sent := s.sent + 1 } }.emit
        (.ctl l 0x01 (probeBytes r h.ident.chipId p.seq false))

/-- An exchange of R72, in 1/32 ns; division rounds toward negative infinity. -/
def exchangeOf (seq t1 t2 t3 t4 : Nat) : Exchange :=
  { seq := seq, offset := (((t2 : Int) - t1) + ((t3 : Int) - t4)).fdiv 2,
    trip := ((t4 : Int) - t1) - ((t3 : Int) - t2) }

/-- The exchange with the smallest round trip; of equal ones the lower SEQ (R72). -/
def bestExchange (l : List Exchange) : Option Exchange :=
  l.foldl (fun b e => match b with
    | none => some e
    | some x => if e.trip < x.trip ∨ (e.trip = x.trip ∧ e.seq < x.seq) then some e else some x) none

/-- Measuring fails where eight probes gave fewer than four valid echoes (R70). -/
def Sighting.orFail (s : Sighting) : Sighting :=
  if s.probe.isNone && decide (8 ≤ s.sent) && decide (s.echoes.length < 4) then { s with state := .failed } else s

/-- A valid echo of the parent: the fourth decides between Behind and a step (R70, R72). -/
def Sighting.addEcho (s : Sighting) (pt : Nat) (e : Exchange) : Sighting :=
  let s := { s with echoes := s.echoes ++ [e], probe := none, lastEchoPt := pt }
  if s.echoes.length < 4 then s.orFail
  else
    match bestExchange s.echoes with
    | some b => if b.offset < 0 then { s with state := .behind } else { s with fourthPt := some pt }
    | none => s

/-- A residual is measured: ASYM beyond 12.5 ns raises the sighting-residual source (R75). -/
def Hub.residualDone (h : Hub) (l : Nat) (r : LinkResidual) : Hub :=
  match bestExchange r.got with
  | none => h
  | some b =>
    let asym := decide (400 < b.offset.natAbs)
    let h := h.setResidual l { r with residual := b.offset, checked := true, asym := asym, probe := none }
    if asym then
      let v : Int := max (-8388608) (min 8388607 b.offset)
      h.raise 0xFCA 0 (l % 256 + signedField 24 v * 256)
    else h

/-- SIGHT_ECHO: completes an exchange of the measurement, or of a residual check (R72, R75). An echo, whatever its
STATE, that comes after its time-out, or with another SEQ or ROUND than the probe on its way, is ignored (log entry 91). -/
def opSightEcho (link : Nat) (m : EchoMsg) (t4 : Nat) (h : Hub) : Hub :=
  let s := h.sight
  if s.lastRound ≠ some m.round then h
  else if m.check then
    let r := h.residual link
    match r.probe with
    | none => h
    | some p =>
      if p.seq ≠ m.seq.toNat ∨ s.state ≠ .committed ∨ p.sentPt + 50000 ≤ h.pt then h
      else if !m.committed then h.setResidual link { r with probe := none, failedPt := some h.pt, echoPt := some h.pt }
      else
        let r := { r with got := r.got ++ [exchangeOf p.seq p.t1 m.t2 m.t3 t4], probe := none, echoPt := some h.pt }
        if r.got.length < 4 then h.setResidual link r else h.residualDone link r
  else
    match s.probe with
    | none => h
    | some p =>
      if s.state ≠ .measuring ∨ p.link ≠ link ∨ p.seq ≠ m.seq.toNat ∨ p.sentPt + 50000 ≤ h.pt then h
      else if !m.committed then { h with sight := { s with state := .failed, probe := none } }
      else { h with sight := s.addEcho h.pt (exchangeOf p.seq p.t1 m.t2 m.t3 t4) }

/-- ECHO_TIMEOUT: 50 us after a probe left (R72, R75). -/
def opEchoTimeout (h : Hub) : Hub :=
  let s := h.sight
  let s := match s.probe with
    | some p => if p.sentPt + 50000 ≤ h.pt then { s with probe := none, lastEchoPt := h.pt }.orFail else s
    | none => s
  let late (r : LinkResidual) : LinkResidual :=
    match r.probe with
    | some p => if p.sentPt + 50000 ≤ h.pt then { r with probe := none, failedPt := some h.pt, echoPt := some h.pt } else r
    | none => r
  { h with sight := { s with residuals := s.residuals.map fun (x : Nat × LinkResidual) => (x.1, late x.2) } }

/-- SIGHT_STEP: at the first AO edge at least 1 us after the fourth valid echo, the offset's integer part is
added to BASE and its fraction loaded into the PLL's phase; the chip is Committed and sends offers (R73, R74). -/
def opSightStep (h : Hub) : Hub :=
  let s := h.sight
  match s.fourthPt, bestExchange s.echoes with
  | some f, some b =>
    if s.state ≠ .measuring ∨ h.time.sub ≠ 0 ∨ h.time.edgePt < f + 1000 ∨ b.offset < 0 then h
    else
      let step := b.offset.toNat / 32
      let n := { h with time := { h.time with base := h.time.base + step, phase32 := b.offset.toNat % 32 } }.commitSight step
      n.probeSteppedPast h.pt n.pt
  | _, _ => h

/-- Send a check's probe on a link (R75). -/
def Hub.sendCheck (h : Hub) (link t1 : Nat) (r : LinkResidual) : Hub :=
  let p : ProbeOut := { link := link, seq := r.sent % 8, t1 := t1, sentPt := h.pt, check := true }
  let r := { r with probe := some p, sent := r.sent + 1, since := r.since.orElse fun _ => some h.pt, failedPt := none }
  (h.setResidual link r).emit
    (.ctl link 0x01 (probeBytes (h.sight.lastRound.getD 0) h.ident.chipId p.seq true))

/-- A link whose residual is still to be checked, 1 us or more after the previous echo arrived on it or timed out
(R72, R75; the spacing counts link by link, log entry 92). -/
def Hub.checkOpen (h : Hub) (link : Nat) : Bool :=
  let r := h.residual link
  h.sight.state == .committed && decide (link < 16) && h.ctl.links.getLsbD link && h.sight.parent != some link &&
    !r.checked && !r.unchecked && r.probe.isNone && decide (h.sight.committedPt + 10000 ≤ h.pt) &&
    !(r.echoPt.any fun t => decide (h.pt < t + 1000))

/-- RESIDUAL_CHECK: the next probe of a check, from 10 us after entry to Committed (R75). -/
def opResidualCheck (link t1 : Nat) (h : Hub) : Hub :=
  let r := h.residual link
  if h.checkOpen link && r.failedPt.isNone then h.sendCheck link t1 r else h

/-- RESIDUAL_RETRY: 1 ms after a failure the check starts again; after 100 ms the link is recorded as
unchecked (R75). -/
def opResidualRetry (link t1 : Nat) (h : Hub) : Hub :=
  let r := h.residual link
  match r.failedPt with
  | none => h
  | some f =>
    if !h.checkOpen link || decide (h.pt < f + 1000000) then h
    else if r.since.getD h.pt + 100000000 ≤ h.pt then h.setResidual link { r with unchecked := true }
    else h.sendCheck link t1 { r with got := [], sent := 0 }

/-- FOREIGN_MESSAGE: a message of another hub type is discarded and counted (R57). -/
def opForeignMessage (msgType : Byte) (h : Hub) : Hub :=
  if msgType = 0x01 ∨ msgType = 0x02 ∨ msgType = 0x03 ∨ msgType = 0x10 ∨ msgType = 0x20 then h
  else { h with ctl.foreign := sat32 (h.ctl.foreign + 1) }

/-! ### Meanings -/

def execTimeGet (h : Hdr) (st : State) : Host.Outcome State Fault Refusal :=
  .next { st with hub := opTimeGet h st.hub }
def execSightStart (h : Hdr) (round : W32) (base : W64) (st : State) : Host.Outcome State Fault Refusal :=
  .next { st with hub := opSightStart h round base st.hub }
def execSightReset (h : Hdr) (st : State) : Host.Outcome State Fault Refusal :=
  .next { st with hub := opSightReset h st.hub }
def execSightStatus (h : Hdr) (st : State) : Host.Outcome State Fault Refusal :=
  .next { st with hub := opSightStatus h st.hub }
def execPllLock (st : State) : Host.Outcome State Fault Refusal :=
  .next { st with hub := opPllLock st.hub }
def execPllUnlock (st : State) : Host.Outcome State Fault Refusal :=
  .next { st with hub := opPllUnlock st.hub }
def execReferenceLoss (st : State) : Host.Outcome State Fault Refusal :=
  .next { st with hub := opReferenceLoss st.hub }
def execReferenceReturn (st : State) : Host.Outcome State Fault Refusal :=
  .next { st with hub := opReferenceReturn st.hub }
def execSightOffset (link : Nat) (m : OfferMsg) (st : State) : Host.Outcome State Fault Refusal :=
  .next { st with hub := opSightOffset link m st.hub }
def execSightProbe (link : Nat) (m : ProbeMsg) (t2 t3 : Nat) (st : State) : Host.Outcome State Fault Refusal :=
  .next { st with hub := opSightProbe link m t2 t3 st.hub }
def execSightEcho (link : Nat) (m : EchoMsg) (t4 : Nat) (st : State) : Host.Outcome State Fault Refusal :=
  .next { st with hub := opSightEcho link m t4 st.hub }
def execEchoTimeout (st : State) : Host.Outcome State Fault Refusal :=
  .next { st with hub := opEchoTimeout st.hub }
def execProbeSendDue (t1 : Nat) (st : State) : Host.Outcome State Fault Refusal :=
  .next { st with hub := opProbeSendDue t1 st.hub }
def execSightStep (st : State) : Host.Outcome State Fault Refusal :=
  .next { st with hub := opSightStep st.hub }
def execResidualCheck (link : Nat) (t1 : Nat) (st : State) : Host.Outcome State Fault Refusal :=
  .next { st with hub := opResidualCheck link t1 st.hub }
def execResidualRetry (link : Nat) (t1 : Nat) (st : State) : Host.Outcome State Fault Refusal :=
  .next { st with hub := opResidualRetry link t1 st.hub }
def execForeignMessage (msgType : Byte) (st : State) : Host.Outcome State Fault Refusal :=
  .next { st with hub := opForeignMessage msgType st.hub }

end Sys2Proof.Machine
end

