-- ==== Sys2Proof/Machine/Packet.lean ====
section
/-! DEFINITION. Packets as they arrive (R366 to R374, R381 to R383): the checks of Table 16-4 on the octets, DATA
frames of the lane, and command words over JTAG. -/

namespace Sys2Proof.Machine

/-- Run the command of an opcode. Rows that are no opcode do not come from a packet. -/
def runIcp (i : Instr) (m : SMap Byte) (st : Hub) : Hub × SMap Byte :=
  match i with
  | .identify h => (opIdentify h st, m)
  | .sessionChallenge h role partition => (opSessionChallenge h role partition st, m)
  | .sessionOpen h role partition response => (opSessionOpen h role partition response st, m)
  | .sessionClose h => (opSessionClose h st, m)
  | .identityCert h => (opIdentityCert h st, m)
  | .hubStatus h => (opHubStatus h st, m)
  | .unitStatus h sb => (opUnitStatus h sb st, m)
  | .chipIdSet h chip => (opChipIdSet h chip st, m)
  | .retiredMapGet h => (opRetiredMapGet h st, m)
  | .safeRecordGet h => (opSafeRecordGet h st, m)
  | .timeGet h => (opTimeGet h st, m)
  | .sightStart h round base => (opSightStart h round base st, m)
  | .sightReset h => (opSightReset h st, m)
  | .sightStatus h => (opSightStatus h st, m)
  | .declareHang h reason => (opDeclareHang h reason st, m)
  | .hangStop h t pod sb => (opHangStop h t pod sb st, m)
  | .stopCancel h => (opStopCancel h st, m)
  | .hangStatus h => (opHangStatus h st, m)
  | .hangClear h => (opHangClear h st, m)
  | .stepCycles h ts d flags => (opStepCycles h ts d flags st, m)
  | .stepCommand h ts unit engine limit => (opStepCommand h ts unit engine limit st, m)
  | .resume h tr scope => (opResume h tr scope st, m)
  | .inspectRead h unit space offset length => (opInspectRead h unit space offset length st, m)
  | .inspectWrite h unit space offset data => (opInspectWrite h unit space offset data st, m)
  | .dumpRegionSet h base size => (opDumpRegionSet h base size st, m)
  | .dump h flags regions => opDump h flags regions m st
  | .dumpStatus h => (opDumpStatus h st, m)
  | .dumpFetch h dumpId offset length => (opDumpFetch h dumpId offset length m st, m)
  | .dumpImageRegister h imageId address length => (opDumpImageRegister h imageId address length m st, m)
  | .dumpImageRemove h index => (opDumpImageRemove h index st, m)
  | .dumpImageList h => (opDumpImageList h st, m)
  | .traceRegionSet h base size mode flags k => (opTraceRegionSet h base size mode flags k st, m)
  | .traceConfig h tc entries => (opTraceConfig h tc entries st, m)
  | .traceRestart h => (opTraceRestart h st, m)
  | .traceTrigger h tt value => (opTraceTrigger h tt value st, m)
  | .traceMark h instant value => (opTraceMark h instant value st, m)
  | .traceQuery h q => opTraceQuery h q m st
  | .traceStatus h => (opTraceStatus h st, m)
  | .counterRead h which sb => (opCounterRead h which sb st, m)
  | .counterAggregate h quantity sb => (opCounterAggregate h quantity sb st, m)
  | .counterFreeze h f mode sb => (opCounterFreeze h f mode sb st, m)
  | .counterSnapshotRead h sb => (opCounterSnapshotRead h sb st, m)
  | .counterClear h sb => (opCounterClear h sb st, m)
  | .soundingSet h p => (opSoundingSet h p st, m)
  | .soundingClear h s td => (opSoundingClear h s td st, m)
  | .soundingKey h key => (opSoundingKey h key st, m)
  | .soundingRead h s max postSeq => (opSoundingRead h s max postSeq st, m)
  | .soundingStatus h => (opSoundingStatus h st, m)
  | .replay h p => (opReplay h p m st, m)
  | .replayStatus h => (opReplayStatus h st, m)
  | .probeLoad h slot words => (opProbeLoad h slot words st, m)
  | .probeStart h slot p s => (opProbeStart h slot p s st, m)
  | .probeStop h slot => (opProbeStop h slot st, m)
  | .probeStatus h slot => (opProbeStatus h slot st, m)
  | .faultConfig h entries => (opFaultConfig h entries st, m)
  | .faultRead h fromSeq max => (opFaultRead h fromSeq max st, m)
  | .faultAck h seqs => (opFaultAck h seqs st, m)
  | .faultHistoryRead h => (opFaultHistoryRead h st, m)
  | .faultInject h source unit data => (opFaultInject h source unit data st, m)
  | .taintDestSet h chips => (opTaintDestSet h chips st, m)
  | .taintEpochSet h epoch => (opTaintEpochSet h epoch st, m)
  | .unitRetire h unit => (opUnitRetire h unit st, m)
  | .patternLoad h offset total final data => (opPatternLoad h offset total final data st, m)
  | .patternRemove h packId => (opPatternRemove h packId st, m)
  | .patternList h => (opPatternList h st, m)
  | .patternKeyRegister h key => (opPatternKeyRegister h key st, m)
  | .patternKeyRevoke h slot => (opPatternKeyRevoke h slot st, m)
  | .runPatterns h packId pattern flags runLimit units => opRunPatterns h packId pattern flags runLimit units m st
  | .patternResults h pack => (opPatternResults h pack st, m)
  | .patternResultsClear h pack => (opPatternResultsClear h pack st, m)
  | .candidateList h => (opCandidateList h st, m)
  | .candidateExport h candSeq => (opCandidateExport h candSeq st, m)
  | .candidateRemove h candSeq => (opCandidateRemove h candSeq st, m)
  | .redundancyStatus h => (opRedundancyStatus h st, m)
  | .standbyResync h => (opStandbyResync h st, m)
  | .activeRelease h => (opActiveRelease h st, m)
  | .lifecycleGet h => (opLifecycleGet h st, m)
  | .lifecycleAdvance h target confirm => (opLifecycleAdvance h target confirm st, m)
  | .roleKeyProgram h role hash => (opRoleKeyProgram h role hash st, m)
  | .firmwareInfo h => (opFirmwareInfo h st, m)
  | .firmwareWrite h offset total final data => (opFirmwareWrite h offset total final data st, m)
  | .regRead h address count => (opRegRead h address count st, m)
  | .regWrite h address words => (opRegWrite h address words st, m)
  | _ => (st, m)

/-- Rows 2 to 4 of Table 16-4. -/
def Hub.earlyVerdict (h : Hub) (code : Nat) (session : W32) : Option (Status × List Byte) :=
  if h.busy then some (.busy, []) else
  match h.discards.find? fun d => d.1 == session with
  | some d => some (.discarded, le 2 d.2.1.toNat ++ le 2 d.2.2.toNat)
  | none => if h.fc.safe && decide (0x0200 ≤ code) then some (.safeState, []) else none

/-- A packet that fails row 5: rows 2 to 4 come before it. -/
def Hub.malformed (h : Hub) (code : W16) (hdr : Hdr) : Hub :=
  let h := (h.touch hdr.session).wake.working
  match h.earlyVerdict code.toNat hdr.session with
  | none => h.answer code.toNat hdr .badArg (badArgBody noOffset 0)
  | some (st, body) =>
    let h := if st = .busy then { h with port.busy := sat32 (h.port.busy + 1) } else h
    let h := if st = .discarded then { h with discards := h.discards.filter fun d => d.1 != hdr.session } else h
    h.answer code.toNat hdr st body

/-- A payload that is no payload of its opcode (row 8 of Table 16-4); a SESSION_OPEN ends the pending challenge whatever
its outcome (R396). -/
def Hub.argFault (h : Hub) (code : Nat) (hdr : Hdr) (o : Nat) : Hub :=
  (if code = 0x0002 then { h with island.challenge := none } else h).badArg code hdr o

/-- Take one complete packet of the selected transport (R374). -/
def Hub.takePacket (h : Hub) (m : SMap Byte) (bytes : List Byte) : Hub × SMap Byte :=
  let x := parseHeader bytes
  let code := x.opcode.toNat
  if bit x.flags 0 then ({ h with port.errors := sat32 (h.port.errors + 1) }, m)
  else
    match payloadOf code x.hdr with
    | none => (if h.takesPackets then h.malformed x.opcode x.hdr else h, m)
    | some p =>
      if x.bad bytes.length then (if h.takesPackets then h.malformed x.opcode x.hdr else h, m)
      else
        match parsePayload p (bytes.drop 16) with
        | .ok i => runIcp i m h
        | .error o => (h.icp code x.hdr fun h => h.argFault code x.hdr o, m)

/-- PACKET_RECEIVED: a complete packet on a transport; on the one that is not selected it is discarded (R43). -/
def opPacketReceived (transport : Transport) (bytes : List Byte) (m : SMap Byte) (h : Hub) : Hub × SMap Byte :=
  if h.transport ≠ transport then
    (if transport = .jtag then { h with tap.dptDiscard := true } else h, m)
  else if bytes.length < 16 then ({ h with port.errors := sat32 (h.port.errors + 1) }, m)
  else h.takePacket m bytes

/-- DATA_FRAME (R368): accepted where its CRC is good and FSEQ is the number expected. A payload shorter than a
header is accepted and counted (R374). -/
def opDataFrame (bytes : List Byte) (m : SMap Byte) (h : Hub) : Hub × SMap Byte :=
  if !h.inUp then (h, m) else
  match parseFrame bytes with
  | none => (h.frameSeen.badFrame, m)
  | some f =>
    if !f.crcGood then (h.frameSeen.badFrame, m)
    else if f.ftype ≠ 1 ∨ f.fseq ≠ h.port.expectFseq then (h.frameTaken.sendNak, m)
    else
      let due := h.port.ackDue.orElse fun _ => some h.pt
      let h := { h.frameTaken with port.expectFseq := h.port.expectFseq + 1, port.ackDue := due }.takeAck f.ack
      if f.payload.length < 16 then ({ h with port.errors := sat32 (h.port.errors + 1) }, m)
      else h.takePacket m f.payload

/-- Words a packet over JTAG takes, its CRC word with them, once its header is in (R381). -/
def jtagLength (ws : List W32) : Option Nat :=
  if ws.length < 4 then none else some ((16 + (ws.getD 2 0).toNat + 3) / 4 + 1)

/-- Take a command word; the packet's last one runs it. -/
def Hub.takeWord (h : Hub) (m : SMap Byte) (w : W32) : Hub × SMap Byte :=
  let ws := h.tap.rx ++ [w]
  if jtagLength ws ≠ some ws.length then ({ h with tap.rx := ws }, m)
  else
    let h := { h with tap.rx := [] }
    let padded := ws.dropLast.flatMap fun (x : W32) => le 4 x.toNat
    if h.transport ≠ .jtag then ({ h with tap.dptDiscard := true }, m)
    else if crc32c padded ≠ w then ({ h with tap.crcErr := true, tap.halted := true }, m)
    else h.takePacket m (padded.take (16 + (ws.getD 2 0).toNat))

/-- Update-DR of ICP_DATA delivers the reply word of the scan and takes a command word that came with VALID 1,
unless the input is HALTED; a word while RX_READY is 0 is an overrun (R381, R383). -/
def Hub.updateData (valid : Bool) (word : W32) (m : SMap Byte) (h : Hub) : Hub × SMap Byte :=
  let ready := h.rxReady
  let h := h.deliverWord
  if !valid || h.tap.halted then (h, m)
  else if !ready then ({ h with tap.overrun := true, tap.halted := true, tap.rx := [] }, m)
  else h.takeWord m word

/-- ICP_DATA_UPDATE: an IR scan, a DR scan through Update-DR, or the one and then the other. With another instruction
selected its data register shifts, and ICP_DATA is not updated (R42, R381). -/
def opIcpDataUpdate (ir : Option Byte) (scan : Option DrScan) (m : SMap Byte) (h : Hub) : Hub × SMap Byte :=
  if !h.tapUsable then (h, m) else
  let h := h.scanIr ir
  match scan with
  | none => (h, m)
  | some d => if tapInstr h.tap.ir = .icpData then h.updateData d.valid d.word m else (h.captureDr, m)

/-! ### Meanings -/

def execPacketReceived (transport : Transport) (bytes : List Byte) (st : State) :
    Host.Outcome State Fault Refusal :=
  let r := opPacketReceived transport bytes st.mem st.hub
  .next { st with hub := r.1, mem := r.2 }
def execDataFrame (bytes : List Byte) (st : State) : Host.Outcome State Fault Refusal :=
  let r := opDataFrame bytes st.mem st.hub
  .next { st with hub := r.1, mem := r.2 }
def execIcpDataUpdate (ir : Option Byte) (scan : Option DrScan) (st : State) : Host.Outcome State Fault Refusal :=
  let r := opIcpDataUpdate ir scan st.mem st.hub
  .next { st with hub := r.1, mem := r.2 }

end Sys2Proof.Machine
end

