-- ==== Sys2Proof/Machine/Power.lean ====
section
/-! DEFINITION. Power domains, resets and start-up (R406 to R423), and the scrubbing of the hub's SRAMs. -/

namespace Sys2Proof.Machine

/-! ### Conditions of the domains (Table 18-1) -/

/-- A FREEZE without a command is still to be confirmed. -/
def Hub.freezeWaits (h : Hub) : Bool := h.arrays.freezes.any fun f => f.confirming

/-- Work for a controller: a command, a confirmation that is due, an action, resynchronization (Table 18-1). -/
def Hub.dueWork (h : Hub) : Bool :=
  h.busy || h.stops.confirming || h.freezeWaits || !h.probe.queue.isEmpty || h.red.resyncSince.isSome ||
    h.red.west.solo || h.red.east.solo || h.red.west.withdrawing || h.red.east.withdrawing

/-- Domains 2 and 3 are needed. Until start-up is over they stay on. -/
def Hub.abutmentsNeeded (h : Hub) : Bool :=
  h.dueWork || !h.island.sessions.isEmpty || (h.fc.all.any fun r => r.handling) ||
    decide (h.power.startUp ≠ .ready ∧ h.power.startUp ≠ .recovery)

def Hub.soundingArmed (h : Hub) : Bool := h.soundings.any fun s => s.2.isArmed h.pt || s.2.posting.isSome

/-- An agent of a half holds a notice (R308). -/
def Hub.noticeHeld (h : Hub) (s : Half) : Bool := h.agents.any fun a => halfOf (unitOf a.1) == s && !a.2.notices.isEmpty

/-- An aggregate load of a probe runs. -/
def Hub.loadRuns (h : Hub) : Bool := h.probe.slots.any fun s => s.2.waitReg.isSome

/-- A collector holds what is not in a written line yet, or a record of its own is due (R243, log entry 155). -/
def Hub.linesWait (h : Hub) : Bool :=
  h.trace.collectors.any fun c => !c.2.intake.isEmpty || !c.2.line.isEmpty || c.2.gap.isSome ||
    (h.trace.isSet && (!c.2.marks.isEmpty || c.2.mirrors.any fun m => m.2.closing.isSome))

/-- The executing command is of a kind. -/
def Hub.runs (h : Hub) (p : Prog → Bool) : Bool := match h.slot with | some e => p e.prog | none => false

/-- The condition of a domain holds. -/
def Hub.domainNeeded (h : Hub) (d : Nat) : Bool :=
  if d = 1 then true
  else if d = 2 ∨ d = 3 then h.abutmentsNeeded
  else if d = 4 ∨ d = 5 then
    h.domainOn 2 || h.domainOn 3 || h.soundingArmed || h.noticeHeld (if d = 4 then .west else .east) || h.loadRuns || h.probeNeeds d
  else if d = 6 ∨ d = 7 then h.tracing || h.linesWait
  else if d < 12 then h.runs fun p => match p with | .dump _ => true | _ => false
  else if d < 14 then h.soundingArmed || h.probeNeeds d
  else if d = 14 then h.probeNeeds 14
  else if d < 17 then decide (h.port.lane ≠ .off)
  else if d = 17 then (h.pat.changed && !h.pat.reloading) || h.runs fun p => match p with | .patterns _ => true | .replay _ => true | _ => false
  else if d = 18 then h.domainOn 2 || h.domainOn 3 || h.tracing || h.soundingArmed
  else ([6, 7, 8, 9, 10, 11, 17].any fun x => h.domainOn x) || h.runs fun p => match p with | .query _ => true | _ => false

/-- Domains that depend on a domain (R408). -/
def dependents (d : Nat) : List Nat :=
  match d with
  | 4 | 5 => [8, 9, 12, 13]
  | 10 | 11 => [8, 9]
  | 15 => [16]
  | 18 => [6, 7]
  | 19 | 20 => [6, 7, 8, 9, 17]
  | _ => []

/-- It may power off now: its condition does not hold, for an Abutment for 10 ms, and nothing that depends on it is
on (R407, R408). -/
def Hub.mayPowerOff (h : Hub) (d : Nat) : Bool :=
  decide (2 ≤ d) && decide (d ≤ 20) && h.domainOn d && !h.domainNeeded d && !((dependents d).any fun x => h.domainOn x) &&
    (decide (3 < d) || decide (h.power.idleSince + 10000000 ≤ h.pt))

/-! ### What a domain loses (Table 18-1, last column) -/

/-- A place in a half. -/
def childIn (s : Half) (c : Child) : Bool := match c with | .agent u => halfOf u == s | .node n => nodeHalf n == s

/-- The combines as a half loses its DCN (R110, R119): its nodes hold no slot any longer, and what was on its way to them
is gone; where the active root is among them, each combine ends with every agent that was expected in MISSING. -/
def Combine.lost (c : Combine) (s : Half) (root : Bool) : Combine :=
  let top := ((c.slots.find? fun x => x.node == .root s).map fun x => (x.expected.map fun e => e.2).foldl (· + ·) 0).getD 0
  let r := (c.slots.find? fun x => x.node == .root s).map fun x => let t := x.total c.op; { t with missing := t.missing + top }
  { c with slots := c.slots.filter fun x => nodeHalf x.node != s, ups := c.ups.filter fun m => nodeHalf m.node != s,
           result := if root then c.result.orElse fun _ => r else c.result }

/-- A DCN domain: the links of its half, its routes, latches and queues, and its part of the combines are gone; an access
that is outstanding goes unanswered (R92, R119). -/
def Hub.dcnLost (h : Hub) (s : Half) : Hub :=
  let root := s == h.red.holder
  { h with dcn := { h.dcn with
      links := h.dcn.links.filter fun l => h.linkHalf l.1 != s || l.1 == .span,
      adopted := h.dcn.adopted.filter fun a => a.1.1 != s,
      combines := h.dcn.combines.map fun c => c.lost s root,
      nodes := h.dcn.nodes.filter fun q => nodeHalf q.1 != s,
      sources := h.dcn.sources.filter fun x => !childIn s x.1,
      latches := h.dcn.latches.filter fun l => nodeHalf l.node != s,
      bcastWait := h.dcn.bcastWait.filter fun l => nodeHalf l.node != s } }

/-- A collector domain: registers and source mirror are saved; Marks that still wait are not. -/
def Hub.collectorsLost (h : Hub) (s : Half) : Hub :=
  (List.range 16).foldl (fun h i =>
    let k := 16 * halfNat s + i
    h.setCollector k { h.collector k with marks := [] }) h

/-- The store and its counts; the AO copy of its block is refreshed (R427). -/
def Hub.storeLost (h : Hub) : Hub :=
  { h with pat := { h.pat.lose with saved := some (h.pat.block h.patternsRun) } }

/-- What a domain loses as it powers off. -/
def Hub.domainLost (h : Hub) (d : Nat) : Hub :=
  match d with
  | 4 => h.dcnLost .west
  | 5 => h.dcnLost .east
  | 6 => h.collectorsLost .west
  | 7 => h.collectorsLost .east
  | 17 => h.storeLost
  | 18 => h.pllLost
  | _ => h

/-- DOMAIN_POWER_OFF (R407); domains 2 and 3 go together (R355). -/
def opDomainPowerOff (domain : Nat) (h : Hub) : Hub :=
  let ds := if domain = 2 ∨ domain = 3 then [2, 3] else [domain]
  if h.mayPowerOff domain then (ds.foldl Hub.domainLost h).domainsOff ds else h

/-- LOW_SPEED_ENTRY: 100 us without a command or due work (R411). -/
def opLowSpeedEntry (side : Half) (h : Hub) : Hub :=
  let c := h.red.ctrl side
  if h.ctrlOn side && c.fast && !h.dueWork && decide (c.busyPt + 100000 ≤ h.pt) then h.setCtrl side { c with fast := false }
  else h

/-! ### Hub reset (R414, R415, Table 18-4) -/

/-- A probe slot at a hub reset: every slot that holds a program stops with ERROR 3; program and registers stay (R293,
Table 18-4, log entry 108). -/
def ProbeSlot.hubReset (s : ProbeSlot) : ProbeSlot :=
  if s.state = .empty then { program := s.program, regs := s.regs }
  else { program := s.program, regs := s.regs, state := .stopped, error := 3 }

/-- A controller that boots; the heartbeat numbers go on (log entry 31). -/
def Ctrl.cold (c : Ctrl) : Ctrl := { hbSeq := c.hbSeq }

/-- The fault collector at a hub reset: the safe state ends, the event time lists are empty, the fast-clock lines,
which are armed only while a clock is requested, deassert (R411), and records of 0xFBD and 0xFBE whose condition has gone are cleared (R316, R323). -/
def Fc.hubReset (f : Fc) : Fc :=
  let gone (r : FaultRec) : Bool := (r.source == 0xFBD || r.source == 0xFBE) && !f.fixedPresent.contains r.source
  let f := f.clearRecs gone
  { f with safe := false, linesHigh := f.linesHigh.filter fun s => s != 0xFBB && s != 0xFBC,
           sources := f.sources.map fun (s : Nat × FcSource) => (s.1, { s.2 with times := [] }) }

/-- The pair at a hub reset: both controllers boot; claim and HOLDER stay (R356). -/
def Red.hubReset (r : Red) (fault : Bool) : Red :=
  { r with west := r.west.cold, east := r.east.cold, ksWest := { r.ksWest with withdraw := false },
           ksEast := { r.ksEast with withdraw := false }, headless := false, frozen := r.frozen && fault,
           stages := [], syncWait := none, synced := false, heldReplies := [], resyncSince := none, lastAttempt := none }

/-- The port at a hub reset: Off, with its counts. -/
def Port.hubReset (p : Port) : Port :=
  { p.reset with lane := .off, retrains := if p.lane = .up then sat32 (p.retrains + 1) else p.retrains }

/-- A chip-scope drop that the fault collector asked for: its answer is awaited through a hub reset, which keeps records
(R319, Table 18-4, log entry 135). -/
def FeReq.isDrop (q : FeReq) : Bool := q.req == .dropInflight && q.units.isEmpty

/-- Everything that is not AO is lost (Table 18-4). -/
def Hub.resetHub (h : Hub) : Hub :=
  let h := (h.dcnLost .west).dcnLost .east |>.pllLost |>.storeLost
  let h := h.domainsOff ((List.range 19).map fun i => 20 - i)
  let h := { h with slot := none, discards := [], latches := [], soundings := [], soundBudget := 0, replayStat := {},
                    port := h.port.hubReset, tap.txWait := [], tap.waitFor := none, fe.requests := h.fe.requests.filter FeReq.isDrop, fe.quiesced := [] }
  let h := { h with dcn := { h.dcn with txns := [], txnWait := [], combines := [], ended := [], collects := [], mcasts := [],
                                        inbox := [], nextTag := 0, links := [], adopted := [], nodes := [], sources := [],
                                        latches := [], bcastWait := [], enums := [] },
                    probe := { slots := h.probe.slots.map fun (s : Nat × ProbeSlot) => (s.1, s.2.hubReset), queue := [] } }
  let h := { h with pat := { h.pat with part := none, saved := none }, power.fwPart := none, stops.confirming := false }
  let h := { h with island := { h.island with sessions := [], challenge := none },
                    arrays.freezes := h.arrays.freezes.map fun (f : FreezeRun) => { f with confirming := false } }.setGate
  let h := h.restartStreams.allCollectors fun c => { c with wakeLevel := 0x180 }
  let h := { h with fc := h.fc.hubReset, red := h.red.hubReset (h.fc.fixedPresent.contains 0xFBD) }
  { h with power := { h.power with startUp := if h.power.startUp = .powerGood then .powerGood else .voted, idleSince := h.pt } }

/-- Pending drops are requested. -/
def Hub.requestDrops (h : Hub) : Hub := h.fc.pendingDrops.foldl Hub.requestDrop { h with fc.pendingDrops := [] }

/-- The safe state is entered again where a fixed source is still present (R323). -/
def Hub.safeAgain (h : Hub) : Hub := if h.fc.fixedPresent.isEmpty then h else h.enterSafe none

/-- HUB_RESET: pending drops are requested, but those that a standing stop of the front end holds back (Table 13-10, R319,
log entry 72). -/
def opHubReset (h : Hub) : Hub :=
  let h := h.resetHub
  (if h.frontEndStopped then h else h.requestDrops).safeAgain.noteIbi

/-! ### Hub reset of the chip -/

/-- Light counters outlive a reset, with what has still to be pushed (R245, R248). -/
def Cnt.afterReset (c : Cnt) : Cnt :=
  { light := c.light, unpushed := c.unpushed, tagged := c.tagged, loaded := c.loaded, busyFifths := c.busyFifths, busyPt := c.busyPt }

/-- A unit resets: its stop or step ends, ring and shadow are lost; what it held in SRAM stays, and so do its light
counters. -/
def Hub.resetUnit (h : Hub) (u : UnitId) : Hub :=
  let old := (h.agent u).settle h.pt
  let new := h.freshAgent u old
  h.setAgent u { new with sram := old.sram, unreachable := old.unreachable, cnt := old.cnt.afterReset }

/-- No stop stands: hang-stop records whose stop it ends leave Handling (Table 13-4). -/
def Hub.stopsEnd (h : Hub) : Hub :=
  let done := h.fc.all.filter fun r => r.handling && r.performed == 3
  { h with stops := { h.stops with standing := [], newest := none },
           fc := done.foldl (fun (f : Fc) r => f.endHandling h.pt r.seq) h.fc }

/-- Retirements that waited under the stop proceed, and pending drops are requested (R319, R320). -/
def Hub.pendingProceed (h : Hub) : Hub :=
  let us := h.fc.pendingRetire
  let clear (r : FaultRec) : FaultRec := if us.contains r.unit then { r with pendingRet := false } else r
  let h := { h with fc := { h.fc with pendingRetire := [], records := h.fc.records.map clear, safeRecord := h.fc.safeRecord.map clear } }
  (us.foldl Hub.retireNow h).requestDrops

/-- HUB_RESET_OF_THE_CHIP: a hub reset, with a reset of every unit; the crossbar leaves dump mode. -/
def opHubResetOfTheChip (h : Hub) : Hub :=
  let h := h.resetHub.stopsEnd
  let h := if h.fe.dumpMode then h.feRequest .dumpModeExit [] else h
  let h := h.poweredUnits.foldl Hub.resetUnit { h with fe.runs := [] }
  h.pendingProceed.safeAgain.noteIbi

/-! ### AO power-on -/

/-- A unit without power; its SRAM contents are undefined from then on (R391). -/
def lostUnit (p : Nat × Agent) : Nat × Agent := (p.1, { sramLost := p.2.sramLost + 1 })

/-- AO_POWER_ON: everything held in the hub is cleared and PT restarts at 0; OTP and flash stay (Table 18-4). -/
def opAoPowerOn (h : Hub) : Hub :=
  let island : Island := { otp := h.island.otp, cert := h.island.cert, entropyDraws := h.island.entropyDraws, signs := h.island.signs }
  let power : Power := { image := h.power.image, imageGood := h.power.imageGood, fw := h.power.fw }
  { agents := h.agents.map lostUnit, island := island, power := power, pat := { flash := h.pat.flash }, chip := h.chip,
    ctl := { links := h.ctl.links }, i3c := { idDraws := h.i3c.idDraws + 1 }, out := h.out, free := h.free }

/-! ### Start-up (R417, R421, R422) -/

/-- The image in force passes the loader's checks; the one the chip left the factory with does (log entry 6). -/
def Hub.imagePasses (h : Hub) : Bool :=
  h.power.imageGood && (match h.power.image with | some b => firmwarePasses b | none => true)

/-- ROM_VERIFICATION: the loader checks the image in force, and boots both controllers or enters recovery. -/
def opRomVerification (h : Hub) : Hub :=
  if h.power.startUp ≠ .voted then h
  else if h.imagePasses then { h with power.startUp := .verified, power.verified := sha384 h.image }.wake
  else { h with power.startUp := .recovery }

/-- What the agent at a port answers to the ENUM of start-up (R122). -/
def Hub.enumAnswer (h : Hub) (o : Nat) : Option UnitId :=
  if !(h.agent (unitOf o)).powered || !h.linksUp (unitOf o) then none
  else ((h.chip.ports.find? fun p => p.1 == o).map (·.2)).getD (some (unitOf o))

/-- The ENUMs of start-up, one to every populated port but those of retired units (R30); a TAG serves again once its answer is in (R97, R122). -/
def Hub.enumPkts (h : Hub) : List Pkt :=
  ((List.range agentCount).filter fun o => !h.retired (unitOf o)).map fun o => enumPkt (unitOf o) (BitVec.ofNat 8 o)

/-- The answers to the ENUMs of start-up: an agent that does not answer is Unreachable; so is one that answers with another
Unit ID, which is a protocol fault (R122). -/
def Hub.enumerate (h : Hub) : Hub :=
  let wrong := h.agents.filterMap fun (p : Nat × Agent) =>
    (h.enumAnswer p.1).bind fun u => if u = unitOf p.1 then none else some (p.1, u)
  let h := wrong.foldl (fun (h : Hub) x => h.wrongEnum (unitOf x.1) x.2 (BitVec.ofNat 8 x.1)) (h.injectAll h.enumPkts)
  { h with agents := h.agents.map fun (p : Nat × Agent) =>
      if p.2.powered then (p.1, { p.2 with unreachable := h.enumAnswer p.1 != some (unitOf p.1) }) else p }

/-- DCN_ENUMERATION: the map is loaded from the repair fuses, whose units are held powered off, and every populated port is
sent ENUM (R28, R30, R122). -/
def opDcnEnumeration (h : Hub) : Hub :=
  let c := h.red.ctrl h.red.holder
  if !h.red.granted || c.role != .active || !(h.power.startUp == .verified || h.power.startUp == .granted) then h else
  let fused := h.island.otp.repair.filter fun o => decide (o < agentCount) && retirable (unitOf o)
  let h := { h with ident := fused.foldl Ident.retire h.ident }
  let h := (fused.filter fun o => (h.agent (unitOf o)).powered).foldl
    (fun (h : Hub) o => (h.unitGone (unitOf o)).emit (.unitPower (unitOf o) false)) h
  { h with power.startUp := .enumerated }.enumerate

/-- READY: the active controller accepts packets; a lane on which energy was detected goes to Training (R422); domains
whose conditions hold come on. -/
def opReady (h : Hub) : Hub :=
  if h.power.startUp ≠ .enumerated ∨ h.accepting = false then h else
  let h := { h with power.startUp := .ready }
  let h := if h.port.energy && h.port.lane == .off then h.startTraining else h
  if h.tracing then h.powerDomains [18, 19, 20, 6, 7] else h

/-! ### Scrubbing (R419, R420) -/

/-- The structure a number names is on: an array of a domain, or the event ring of an agent. -/
def Hub.structureOn (h : Hub) (n : Nat) : Bool :=
  match bits n 15 12 with
  | 0 => decide (1 ≤ bits n 11 7) && decide (bits n 11 7 ≤ 20) && h.domainOn (bits n 11 7)
  | 1 => decide (bits n 10 0 < agentCount) && n % 0x1000 / 0x800 == 0 && (h.agent (unitOf (bits n 10 0))).powered
  | _ => false

/-- An entry with an uncorrectable error reads with CODE 0. -/
def Agent.loseEntry (a : Agent) (k : Nat) : Agent :=
  { a with ring := mapSet {} a.ring k { mapGet {} a.ring k with code := 0 } }

/-- The controller whose firmware memory a structure number names: the SRAM of domains 2 and 3 (Table 1-8, log entry
136). -/
def firmwareMemory (n : Nat) : Option Half :=
  if bits n 15 12 ≠ 0 then none
  else if bits n 11 7 = 2 then some .west else if bits n 11 7 = 3 then some .east else none

/-- SRAM_SCRUB: an error found in a hub SRAM or an event ring is an event of 0xFD3 or 0xFD4; an uncorrectable one in a
controller's firmware memory makes it withdraw (R419, R420, Table 15-2). -/
def opSramScrub (structureNumber : W16) (uncorrectable : Bool) (h : Hub) : Hub :=
  let n := structureNumber.toNat
  if !h.structureOn n then h
  else if !uncorrectable then h.raise 0xFD3 0 n
  else if bits n 15 12 = 1 then
    let k := (Config.scrubbedSlot h.free).toNat
    (h.drawFree.modAgent (unitOf (bits n 10 0)) fun a => a.loseEntry k).raise 0xFD4 0 n
  else (match firmwareMemory n with | some s => h.withdraw s | none => h).raise 0xFD4 0 n

/-! ### Meanings -/

def execDomainPowerOff (domain : Nat) (st : State) : Host.Outcome State Fault Refusal :=
  .next { st with hub := opDomainPowerOff domain st.hub }
def execLowSpeedEntry (side : Half) (st : State) : Host.Outcome State Fault Refusal :=
  .next { st with hub := opLowSpeedEntry side st.hub }
def execHubReset (st : State) : Host.Outcome State Fault Refusal :=
  .next { st with hub := opHubReset st.hub }
def execHubResetOfTheChip (st : State) : Host.Outcome State Fault Refusal :=
  .next { st with hub := opHubResetOfTheChip st.hub }
def execAoPowerOn (st : State) : Host.Outcome State Fault Refusal :=
  .next { st with hub := opAoPowerOn st.hub }
def execRomVerification (st : State) : Host.Outcome State Fault Refusal :=
  .next { st with hub := opRomVerification st.hub }
def execDcnEnumeration (st : State) : Host.Outcome State Fault Refusal :=
  .next { st with hub := opDcnEnumeration st.hub }
def execReady (st : State) : Host.Outcome State Fault Refusal :=
  .next { st with hub := opReady st.hub }
def execSramScrub (structureNumber : W16) (uncorrectable : Bool) (st : State) : Host.Outcome State Fault Refusal :=
  .next { st with hub := opSramScrub structureNumber uncorrectable st.hub }

end Sys2Proof.Machine
end

