-- ==== Sys2Proof/Machine/Dispatch.lean ====
section
/-! DEFINITION. One arm for each command, in the order of spec/opcode_table.json. -/

namespace Sys2Proof.Machine

def exec (i : Instr) (s : State) : Host.Outcome State Fault Refusal :=
  match i with
  | .identify a0 => Sys2Proof.Machine.execIdentify a0 s
  | .sessionChallenge a0 a1 a2 => Sys2Proof.Machine.execSessionChallenge a0 a1 a2 s
  | .sessionOpen a0 a1 a2 a3 => Sys2Proof.Machine.execSessionOpen a0 a1 a2 a3 s
  | .sessionClose a0 => Sys2Proof.Machine.execSessionClose a0 s
  | .identityCert a0 => Sys2Proof.Machine.execIdentityCert a0 s
  | .hubStatus a0 => Sys2Proof.Machine.execHubStatus a0 s
  | .unitStatus a0 a1 => Sys2Proof.Machine.execUnitStatus a0 a1 s
  | .chipIdSet a0 a1 => Sys2Proof.Machine.execChipIdSet a0 a1 s
  | .retiredMapGet a0 => Sys2Proof.Machine.execRetiredMapGet a0 s
  | .safeRecordGet a0 => Sys2Proof.Machine.execSafeRecordGet a0 s
  | .timeGet a0 => Sys2Proof.Machine.execTimeGet a0 s
  | .sightStart a0 a1 a2 => Sys2Proof.Machine.execSightStart a0 a1 a2 s
  | .sightReset a0 => Sys2Proof.Machine.execSightReset a0 s
  | .sightStatus a0 => Sys2Proof.Machine.execSightStatus a0 s
  | .declareHang a0 a1 => Sys2Proof.Machine.execDeclareHang a0 a1 s
  | .hangStop a0 a1 a2 a3 => Sys2Proof.Machine.execHangStop a0 a1 a2 a3 s
  | .stopCancel a0 => Sys2Proof.Machine.execStopCancel a0 s
  | .hangStatus a0 => Sys2Proof.Machine.execHangStatus a0 s
  | .hangClear a0 => Sys2Proof.Machine.execHangClear a0 s
  | .stepCycles a0 a1 a2 a3 => Sys2Proof.Machine.execStepCycles a0 a1 a2 a3 s
  | .stepCommand a0 a1 a2 a3 a4 => Sys2Proof.Machine.execStepCommand a0 a1 a2 a3 a4 s
  | .resume a0 a1 a2 => Sys2Proof.Machine.execResume a0 a1 a2 s
  | .inspectRead a0 a1 a2 a3 a4 => Sys2Proof.Machine.execInspectRead a0 a1 a2 a3 a4 s
  | .inspectWrite a0 a1 a2 a3 a4 => Sys2Proof.Machine.execInspectWrite a0 a1 a2 a3 a4 s
  | .dumpRegionSet a0 a1 a2 => Sys2Proof.Machine.execDumpRegionSet a0 a1 a2 s
  | .dump a0 a1 a2 => Sys2Proof.Machine.execDump a0 a1 a2 s
  | .dumpStatus a0 => Sys2Proof.Machine.execDumpStatus a0 s
  | .dumpFetch a0 a1 a2 a3 => Sys2Proof.Machine.execDumpFetch a0 a1 a2 a3 s
  | .dumpImageRegister a0 a1 a2 a3 => Sys2Proof.Machine.execDumpImageRegister a0 a1 a2 a3 s
  | .dumpImageRemove a0 a1 => Sys2Proof.Machine.execDumpImageRemove a0 a1 s
  | .dumpImageList a0 => Sys2Proof.Machine.execDumpImageList a0 s
  | .traceRegionSet a0 a1 a2 a3 a4 a5 => Sys2Proof.Machine.execTraceRegionSet a0 a1 a2 a3 a4 a5 s
  | .traceConfig a0 a1 a2 => Sys2Proof.Machine.execTraceConfig a0 a1 a2 s
  | .traceRestart a0 => Sys2Proof.Machine.execTraceRestart a0 s
  | .traceTrigger a0 a1 a2 => Sys2Proof.Machine.execTraceTrigger a0 a1 a2 s
  | .traceMark a0 a1 a2 => Sys2Proof.Machine.execTraceMark a0 a1 a2 s
  | .traceQuery a0 a1 => Sys2Proof.Machine.execTraceQuery a0 a1 s
  | .traceStatus a0 => Sys2Proof.Machine.execTraceStatus a0 s
  | .counterRead a0 a1 a2 => Sys2Proof.Machine.execCounterRead a0 a1 a2 s
  | .counterAggregate a0 a1 a2 => Sys2Proof.Machine.execCounterAggregate a0 a1 a2 s
  | .counterFreeze a0 a1 a2 a3 => Sys2Proof.Machine.execCounterFreeze a0 a1 a2 a3 s
  | .counterSnapshotRead a0 a1 => Sys2Proof.Machine.execCounterSnapshotRead a0 a1 s
  | .counterClear a0 a1 => Sys2Proof.Machine.execCounterClear a0 a1 s
  | .soundingSet a0 a1 => Sys2Proof.Machine.execSoundingSet a0 a1 s
  | .soundingClear a0 a1 a2 => Sys2Proof.Machine.execSoundingClear a0 a1 a2 s
  | .soundingKey a0 a1 => Sys2Proof.Machine.execSoundingKey a0 a1 s
  | .soundingRead a0 a1 a2 a3 => Sys2Proof.Machine.execSoundingRead a0 a1 a2 a3 s
  | .soundingStatus a0 => Sys2Proof.Machine.execSoundingStatus a0 s
  | .replay a0 a1 => Sys2Proof.Machine.execReplay a0 a1 s
  | .replayStatus a0 => Sys2Proof.Machine.execReplayStatus a0 s
  | .probeLoad a0 a1 a2 => Sys2Proof.Machine.execProbeLoad a0 a1 a2 s
  | .probeStart a0 a1 a2 a3 => Sys2Proof.Machine.execProbeStart a0 a1 a2 a3 s
  | .probeStop a0 a1 => Sys2Proof.Machine.execProbeStop a0 a1 s
  | .probeStatus a0 a1 => Sys2Proof.Machine.execProbeStatus a0 a1 s
  | .faultConfig a0 a1 => Sys2Proof.Machine.execFaultConfig a0 a1 s
  | .faultRead a0 a1 a2 => Sys2Proof.Machine.execFaultRead a0 a1 a2 s
  | .faultAck a0 a1 => Sys2Proof.Machine.execFaultAck a0 a1 s
  | .faultHistoryRead a0 => Sys2Proof.Machine.execFaultHistoryRead a0 s
  | .faultInject a0 a1 a2 a3 => Sys2Proof.Machine.execFaultInject a0 a1 a2 a3 s
  | .taintDestSet a0 a1 => Sys2Proof.Machine.execTaintDestSet a0 a1 s
  | .taintEpochSet a0 a1 => Sys2Proof.Machine.execTaintEpochSet a0 a1 s
  | .unitRetire a0 a1 => Sys2Proof.Machine.execUnitRetire a0 a1 s
  | .patternLoad a0 a1 a2 a3 a4 => Sys2Proof.Machine.execPatternLoad a0 a1 a2 a3 a4 s
  | .patternRemove a0 a1 => Sys2Proof.Machine.execPatternRemove a0 a1 s
  | .patternList a0 => Sys2Proof.Machine.execPatternList a0 s
  | .patternKeyRegister a0 a1 => Sys2Proof.Machine.execPatternKeyRegister a0 a1 s
  | .patternKeyRevoke a0 a1 => Sys2Proof.Machine.execPatternKeyRevoke a0 a1 s
  | .runPatterns a0 a1 a2 a3 a4 a5 => Sys2Proof.Machine.execRunPatterns a0 a1 a2 a3 a4 a5 s
  | .patternResults a0 a1 => Sys2Proof.Machine.execPatternResults a0 a1 s
  | .patternResultsClear a0 a1 => Sys2Proof.Machine.execPatternResultsClear a0 a1 s
  | .candidateList a0 => Sys2Proof.Machine.execCandidateList a0 s
  | .candidateExport a0 a1 => Sys2Proof.Machine.execCandidateExport a0 a1 s
  | .candidateRemove a0 a1 => Sys2Proof.Machine.execCandidateRemove a0 a1 s
  | .redundancyStatus a0 => Sys2Proof.Machine.execRedundancyStatus a0 s
  | .standbyResync a0 => Sys2Proof.Machine.execStandbyResync a0 s
  | .activeRelease a0 => Sys2Proof.Machine.execActiveRelease a0 s
  | .lifecycleGet a0 => Sys2Proof.Machine.execLifecycleGet a0 s
  | .lifecycleAdvance a0 a1 a2 => Sys2Proof.Machine.execLifecycleAdvance a0 a1 a2 s
  | .roleKeyProgram a0 a1 a2 => Sys2Proof.Machine.execRoleKeyProgram a0 a1 a2 s
  | .firmwareInfo a0 => Sys2Proof.Machine.execFirmwareInfo a0 s
  | .firmwareWrite a0 a1 a2 a3 a4 => Sys2Proof.Machine.execFirmwareWrite a0 a1 a2 a3 a4 s
  | .regRead a0 a1 a2 => Sys2Proof.Machine.execRegRead a0 a1 a2 s
  | .regWrite a0 a1 a2 => Sys2Proof.Machine.execRegWrite a0 a1 a2 s
  | .wdogStatusWrite a0 a1 => Sys2Proof.Machine.execWdogStatusWrite a0 a1 s
  | .wdogLimitWrite a0 a1 a2 => Sys2Proof.Machine.execWdogLimitWrite a0 a1 a2 s
  | .clearQueues a0 a1 => Sys2Proof.Machine.execClearQueues a0 a1 s
  | .shadowKeepWrite a0 a1 => Sys2Proof.Machine.execShadowKeepWrite a0 a1 s
  | .fcCfgWrite a0 a1 => Sys2Proof.Machine.execFcCfgWrite a0 a1 s
  | .packetReceived a0 a1 => Sys2Proof.Machine.execPacketReceived a0 a1 s
  | .dataFrame a0 => Sys2Proof.Machine.execDataFrame a0 s
  | .ackFrame a0 => Sys2Proof.Machine.execAckFrame a0 s
  | .nakFrame a0 => Sys2Proof.Machine.execNakFrame a0 s
  | .ackTimer => Sys2Proof.Machine.execAckTimer s
  | .resendTimeout => Sys2Proof.Machine.execResendTimeout s
  | .linkRetrainRequest => Sys2Proof.Machine.execLinkRetrainRequest s
  | .signalDetect => Sys2Proof.Machine.execSignalDetect s
  | .trainingComplete => Sys2Proof.Machine.execTrainingComplete s
  | .trainingTimeout => Sys2Proof.Machine.execTrainingTimeout s
  | .blockLockLoss => Sys2Proof.Machine.execBlockLockLoss s
  | .laneIdleTimeout => Sys2Proof.Machine.execLaneIdleTimeout s
  | .testLogicReset => Sys2Proof.Machine.execTestLogicReset s
  | .icpDataUpdate a0 a1 => Sys2Proof.Machine.execIcpDataUpdate a0 a1 s
  | .icpStatusCapture => Sys2Proof.Machine.execIcpStatusCapture s
  | .replyAbandoned => Sys2Proof.Machine.execReplyAbandoned s
  | .entdaa a0 => Sys2Proof.Machine.execEntdaa a0 s
  | .setdasa a0 => Sys2Proof.Machine.execSetdasa a0 s
  | .rstdaa => Sys2Proof.Machine.execRstdaa s
  | .enec => Sys2Proof.Machine.execEnec s
  | .disec => Sys2Proof.Machine.execDisec s
  | .getstatus => Sys2Proof.Machine.execGetstatus s
  | .getpid => Sys2Proof.Machine.execGetpid s
  | .getbcr => Sys2Proof.Machine.execGetbcr s
  | .getdcr => Sys2Proof.Machine.execGetdcr s
  | .getmwl => Sys2Proof.Machine.execGetmwl s
  | .getmrl => Sys2Proof.Machine.execGetmrl s
  | .i3cPrivateWrite a0 => Sys2Proof.Machine.execI3cPrivateWrite a0 s
  | .i3cPrivateRead a0 => Sys2Proof.Machine.execI3cPrivateRead a0 s
  | .wake => Sys2Proof.Machine.execWake s
  | .imageSnapshot => Sys2Proof.Machine.execImageSnapshot s
  | .ibiAccepted => Sys2Proof.Machine.execIbiAccepted s
  | .podTrigInEdge a0 a1 => Sys2Proof.Machine.execPodTrigInEdge a0 a1 s
  | .podTrigOutPulse a0 => Sys2Proof.Machine.execPodTrigOutPulse a0 s
  | .pllLock => Sys2Proof.Machine.execPllLock s
  | .pllUnlock => Sys2Proof.Machine.execPllUnlock s
  | .referenceLoss => Sys2Proof.Machine.execReferenceLoss s
  | .referenceReturn => Sys2Proof.Machine.execReferenceReturn s
  | .sightOffset a0 a1 => Sys2Proof.Machine.execSightOffset a0 a1 s
  | .sightProbe a0 a1 a2 a3 => Sys2Proof.Machine.execSightProbe a0 a1 a2 a3 s
  | .sightEcho a0 a1 a2 => Sys2Proof.Machine.execSightEcho a0 a1 a2 s
  | .echoTimeout => Sys2Proof.Machine.execEchoTimeout s
  | .probeSendDue a0 => Sys2Proof.Machine.execProbeSendDue a0 s
  | .sightStep => Sys2Proof.Machine.execSightStep s
  | .residualCheck a0 a1 => Sys2Proof.Machine.execResidualCheck a0 a1 s
  | .residualRetry a0 a1 => Sys2Proof.Machine.execResidualRetry a0 a1 s
  | .foreignMessage a0 => Sys2Proof.Machine.execForeignMessage a0 s
  | .podStop a0 a1 => Sys2Proof.Machine.execPodStop a0 a1 s
  | .flitReceived a0 a1 a2 => Sys2Proof.Machine.execFlitReceived a0 a1 a2 s
  | .linkControlFlit a0 a1 a2 => Sys2Proof.Machine.execLinkControlFlit a0 a1 a2 s
  | .linkDown a0 a1 => Sys2Proof.Machine.execLinkDown a0 a1 s
  | .linkRetrain a0 a1 => Sys2Proof.Machine.execLinkRetrain a0 a1 s
  | .linkNotice a0 => Sys2Proof.Machine.execLinkNotice a0 s
  | .routeRestore a0 => Sys2Proof.Machine.execRouteRestore a0 s
  | .bcastAccept a0 a1 a2 => Sys2Proof.Machine.execBcastAccept a0 a1 a2 s
  | .stopInstant a0 => Sys2Proof.Machine.execStopInstant a0 s
  | .captureComplete a0 a1 a2 => Sys2Proof.Machine.execCaptureComplete a0 a1 a2 s
  | .cutMarkerArrival a0 a1 a2 => Sys2Proof.Machine.execCutMarkerArrival a0 a1 a2 s
  | .checkerClose a0 a1 a2 a3 a4 a5 => Sys2Proof.Machine.execCheckerClose a0 a1 a2 a3 a4 a5 s
  | .stopComplete => Sys2Proof.Machine.execStopComplete s
  | .stepInstant a0 => Sys2Proof.Machine.execStepInstant a0 s
  | .cycleStepEnd a0 => Sys2Proof.Machine.execCycleStepEnd a0 s
  | .commandStepEnd a0 a1 a2 => Sys2Proof.Machine.execCommandStepEnd a0 a1 a2 s
  | .resumeInstant a0 => Sys2Proof.Machine.execResumeInstant a0 s
  | .commitInstant a0 => Sys2Proof.Machine.execCommitInstant a0 s
  | .collectReceived a0 a1 => Sys2Proof.Machine.execCollectReceived a0 a1 s
  | .combineReceived a0 a1 a2 => Sys2Proof.Machine.execCombineReceived a0 a1 a2 s
  | .combineTimeout a0 a1 => Sys2Proof.Machine.execCombineTimeout a0 a1 s
  | .combineResult a0 => Sys2Proof.Machine.execCombineResult a0 s
  | .regAccess a0 a1 a2 a3 a4 => Sys2Proof.Machine.execRegAccess a0 a1 a2 a3 a4 s
  | .bulkRead a0 a1 a2 a3 => Sys2Proof.Machine.execBulkRead a0 a1 a2 a3 s
  | .bulkWrite a0 a1 a2 a3 a4 => Sys2Proof.Machine.execBulkWrite a0 a1 a2 a3 a4 s
  | .accessTimeout a0 => Sys2Proof.Machine.execAccessTimeout a0 s
  | .multicastComplete a0 => Sys2Proof.Machine.execMulticastComplete a0 s
  | .enumProbe a0 a1 => Sys2Proof.Machine.execEnumProbe a0 a1 s
  | .noticeSend a0 => Sys2Proof.Machine.execNoticeSend a0 s
  | .unitPowerOn a0 => Sys2Proof.Machine.execUnitPowerOn a0 s
  | .replicaLoad a0 => Sys2Proof.Machine.execReplicaLoad a0 s
  | .partitionChange a0 a1 a2 => Sys2Proof.Machine.execPartitionChange a0 a1 a2 s
  | .powerDownRequest a0 => Sys2Proof.Machine.execPowerDownRequest a0 s
  | .unitPowerOff a0 => Sys2Proof.Machine.execUnitPowerOff a0 s
  | .emergencyPowerOff a0 => Sys2Proof.Machine.execEmergencyPowerOff a0 s
  | .unitEvent a0 a1 a2 a3 => Sys2Proof.Machine.execUnitEvent a0 a1 a2 a3 s
  | .watchdogExpiry a0 a1 a2 => Sys2Proof.Machine.execWatchdogExpiry a0 a1 a2 s
  | .watchdogNotice a0 => Sys2Proof.Machine.execWatchdogNotice a0 s
  | .counterPush a0 => Sys2Proof.Machine.execCounterPush a0 s
  | .freezeInstant a0 => Sys2Proof.Machine.execFreezeInstant a0 s
  | .arrayProvisional a0 => Sys2Proof.Machine.execArrayProvisional a0 s
  | .taggedPush a0 => Sys2Proof.Machine.execTaggedPush a0 s
  | .arrayFinalize a0 => Sys2Proof.Machine.execArrayFinalize a0 s
  | .traceRecord a0 a1 => Sys2Proof.Machine.execTraceRecord a0 a1 s
  | .gapClose a0 => Sys2Proof.Machine.execGapClose a0 s
  | .lineWrite a0 => Sys2Proof.Machine.execLineWrite a0 s
  | .periodicFix a0 => Sys2Proof.Machine.execPeriodicFix a0 s
  | .triggerInstant a0 => Sys2Proof.Machine.execTriggerInstant a0 s
  | .collectorWake a0 => Sys2Proof.Machine.execCollectorWake a0 s
  | .sourceClosed a0 => Sys2Proof.Machine.execSourceClosed a0 s
  | .writebackBeat a0 a1 a2 => Sys2Proof.Machine.execWritebackBeat a0 a1 a2 s
  | .postingInstant a0 => Sys2Proof.Machine.execPostingInstant a0 s
  | .postingEdge a0 a1 => Sys2Proof.Machine.execPostingEdge a0 a1 s
  | .postingWrite a0 => Sys2Proof.Machine.execPostingWrite a0 s
  | .reissueEnd a0 a1 => Sys2Proof.Machine.execReissueEnd a0 a1 s
  | .frontEndAnswer a0 => Sys2Proof.Machine.execFrontEndAnswer a0 s
  | .frontEndTimeout a0 => Sys2Proof.Machine.execFrontEndTimeout a0 s
  | .probeEvaluation a0 => Sys2Proof.Machine.execProbeEvaluation a0 s
  | .waitptResume a0 => Sys2Proof.Machine.execWaitptResume a0 s
  | .probeTimer a0 => Sys2Proof.Machine.execProbeTimer a0 s
  | .probeAction => Sys2Proof.Machine.execProbeAction s
  | .faultEvent a0 a1 a2 a3 => Sys2Proof.Machine.execFaultEvent a0 a1 a2 a3 s
  | .pendingRetirement a0 => Sys2Proof.Machine.execPendingRetirement a0 s
  | .keystoneFault a0 a1 a2 => Sys2Proof.Machine.execKeystoneFault a0 a1 a2 s
  | .notifyTimeout a0 => Sys2Proof.Machine.execNotifyTimeout a0 s
  | .reactionWindowClose => Sys2Proof.Machine.execReactionWindowClose s
  | .faultCleared a0 => Sys2Proof.Machine.execFaultCleared a0 s
  | .supplyExcursion a0 a1 a2 a3 => Sys2Proof.Machine.execSupplyExcursion a0 a1 a2 a3 s
  | .vddAoResetLevel a0 => Sys2Proof.Machine.execVddAoResetLevel a0 s
  | .aoPowerOn => Sys2Proof.Machine.execAoPowerOn s
  | .fastClockLoss a0 => Sys2Proof.Machine.execFastClockLoss a0 s
  | .portConfinement a0 a1 => Sys2Proof.Machine.execPortConfinement a0 a1 s
  | .taintSend => Sys2Proof.Machine.execTaintSend s
  | .heartbeatSend a0 => Sys2Proof.Machine.execHeartbeatSend a0 s
  | .heartbeatReceived a0 a1 a2 => Sys2Proof.Machine.execHeartbeatReceived a0 a1 a2 s
  | .keystoneDecision => Sys2Proof.Machine.execKeystoneDecision s
  | .grantWord a0 a1 a2 => Sys2Proof.Machine.execGrantWord a0 a1 a2 s
  | .stageAccess a0 a1 a2 => Sys2Proof.Machine.execStageAccess a0 a1 a2 s
  | .syncChange a0 a1 => Sys2Proof.Machine.execSyncChange a0 a1 s
  | .syncAckTimeout => Sys2Proof.Machine.execSyncAckTimeout s
  | .resyncComplete => Sys2Proof.Machine.execResyncComplete s
  | .resyncTimeout => Sys2Proof.Machine.execResyncTimeout s
  | .resyncRetry => Sys2Proof.Machine.execResyncRetry s
  | .soloResyncComplete => Sys2Proof.Machine.execSoloResyncComplete s
  | .firmwareUp a0 => Sys2Proof.Machine.execFirmwareUp a0 s
  | .domainPowerOff a0 => Sys2Proof.Machine.execDomainPowerOff a0 s
  | .lowSpeedEntry a0 => Sys2Proof.Machine.execLowSpeedEntry a0 s
  | .hubReset => Sys2Proof.Machine.execHubReset s
  | .hubResetOfTheChip => Sys2Proof.Machine.execHubResetOfTheChip s
  | .controllerColdCycle a0 => Sys2Proof.Machine.execControllerColdCycle a0 s
  | .otpVote => Sys2Proof.Machine.execOtpVote s
  | .romVerification => Sys2Proof.Machine.execRomVerification s
  | .dcnEnumeration => Sys2Proof.Machine.execDcnEnumeration s
  | .ready => Sys2Proof.Machine.execReady s
  | .patternReload => Sys2Proof.Machine.execPatternReload s
  | .resultsMirror => Sys2Proof.Machine.execResultsMirror s
  | .challengeExpiry => Sys2Proof.Machine.execChallengeExpiry s
  | .sessionIdleTimeout a0 => Sys2Proof.Machine.execSessionIdleTimeout a0 s
  | .entropyFail => Sys2Proof.Machine.execEntropyFail s
  | .testGateFall => Sys2Proof.Machine.execTestGateFall s
  | .sramScrub a0 a1 => Sys2Proof.Machine.execSramScrub a0 a1 s
  | .unitPresenceChange a0 a1 => Sys2Proof.Machine.execUnitPresenceChange a0 a1 s
  | .opcodeBoundEnd => Sys2Proof.Machine.execOpcodeBoundEnd s
  | .peerHeartbeatMissed a0 => Sys2Proof.Machine.execPeerHeartbeatMissed a0 s
  | .runLimitExpiry a0 => Sys2Proof.Machine.execRunLimitExpiry a0 s
  | .markInstant a0 => Sys2Proof.Machine.execMarkInstant a0 s

end Sys2Proof.Machine
end

