-- ==== Sys2Proof/Machine/Tick.lean ====
section
/-! DEFINITION. What the hub does of itself in one ns, with no command in its queue: PT counts, an AO edge takes
effect, and the engines go on with the executing command (log entry 2). -/

namespace Sys2Proof.Machine

/-! ### Pod Time -/

/-- SIGHT_START takes effect: PT becomes BASE, and the chip is Committed at depth 0 (R69, R296). -/
def Hub.startRound (h : Hub) (old p : Nat) : Hub :=
  let step := p - h.time.edgePt
  let n := { h with time := { h.time with base := h.time.base + step, phase32 := 0 } }.commitSight step
  n.probeSteppedPast old n.pt

/-- The next AO edge (R62, R64, R69). -/
def Hub.atEdge (h : Hub) : Hub :=
  let t := h.time
  let n := { h with time := { t with edge := t.edge + 1, sub := 0, mode := t.nextMode.getD t.mode, nextMode := none,
                                     lockedAtEdge := t.pllLocked, nextPt := none } }
  match t.nextPt with
  | some p => if h.sight.starting then n.startRound h.pt p else n
  | none => n

/-- One ns goes by (R61, R62). -/
def Hub.nanosecond (h : Hub) : Hub :=
  if h.time.sub < 39 then { h with time.sub := h.time.sub + 1 } else h.atEdge

/-! ### What has come due -/

/-- Presence as it is at the stop instant is noted for the dump (Table 8-1), and what was written before it is no write
since the stop (R170). -/
def Hub.noteAway (h : Hub) : Hub :=
  match h.stops.newest with
  | some n =>
    if n.awayAtStop.isSome || decide (h.pt < n.t) then h else
    let away := (List.range agentCount).filterMap fun o =>
      if h.presence (unitOf o) = 0 then none else some (o, h.presence (unitOf o))
    { h with stops.newest := some { n with awayAtStop := some away, written := false },
             agents := h.agents.map fun (p : Nat × Agent) => (p.1, { p.2 with written := false }) }
  | none => h

/-- A FREEZE of a probe or of a bench trigger is confirmed at F + 1.9 us, without a reply (Table 12-5, R257). -/
def Hub.confirmProbeFreeze (h : Hub) : Hub :=
  match h.arrays.freezes.find? fun f => f.confirming && decide (f.instant + 1900 ≤ h.pt) with
  | some f =>
    { h with arrays := h.arrays.setFreeze { f with confirming := false } }.collect 2 0x0400 f.scope (f.instant + 2100) 1 .probeFreeze
  | none => h

/-- The AO arrays are noted at the INSTANT of an aggregate (R261). -/
def Hub.noteArrays (h : Hub) : Hub :=
  { h with dcn.combines := h.dcn.combines.map fun (c : Combine) =>
      if c.issuer = .aggregate ∧ c.arrays = none ∧ c.instant ≤ h.pt then { c with arrays := some h.arrays.totals } else c }

/-- Confirming COLLECTs that are due. -/
def Hub.confirmations (h : Hub) : Hub :=
  h.confirmStop.confirmCycles.confirmResume.confirmFreeze.confirmProbeFreeze

/-- Commands that end at an instant, or with their agent's outcome. -/
def Hub.completions (h : Hub) : Hub := h.completeCycles.completeCommandStep.completeFreeze

/-- Words of postings go out as combine slots come free (R282). -/
def Hub.postings (h : Hub) : Hub := h.soundings.foldl (fun h s => h.issueWords s.1 16) h

/-- A controller with work due stays in fast mode, and the Abutments stay on (R407, R411). -/
def Hub.keepAwake (h : Hub) : Hub :=
  let h := if h.abutmentsNeeded then { h with power.idleSince := h.pt } else h
  if h.dueWork then h.atWork else h

/-- One step of what uses memory: requests held at a fence, a query, the dump, and a pattern whose unit has gone. -/
def Hub.engines (h : Hub) (m : SMap Byte) : Hub × SMap Byte :=
  let l := h.launchHeld m
  let x := (l.1.queryStep l.2).dumpStep l.2
  x.1.patternLost x.2

/-- Staging writes that waited for the end of an apply are performed (R127). -/
def Hub.heldWrites (h : Hub) : Hub :=
  (h.agents.filter fun p => !p.2.held.isEmpty).foldl (fun h p => h.performHeld (unitOf p.1)) h

/-- Everything that happens of itself in one ns. -/
def Hub.tick (h : Hub) (m : SMap Byte) : Hub × SMap Byte :=
  let h := h.nanosecond.noteAway.noteArrays.confirmations.completions
  let h := h.otpStep.requestReplay.clearReplays.postings.heldWrites.keepAwake
  h.engines m

end Sys2Proof.Machine
end

