-- ==== Sys2Proof/Machine/Step.lean ====
section
/-! DEFINITION. One step of the block: the command at the front of the queue, or, with none waiting, one ns of
its own (log entry 2). -/

namespace Sys2Proof.Machine

/-- One ns with an empty queue; R61 defines no PT of 2^64. -/
def State.idle (s : State) : Host.Outcome State Fault Refusal :=
  let x := s.hub.tick s.mem
  if 2 ^ 64 ≤ x.1.pt then .fault .ptOverflow else .next { s with hub := x.1, mem := x.2 }

/-- Take the command at the front and run it with the queue's rest. -/
def step (s : State) : Host.Outcome State Fault Refusal :=
  match s.pending with
  | [] => s.idle
  | c :: rest => exec c { s with pending := rest }

/-- The command a word spells goes to the front of the queue; no word spells one. -/
def State.withFetchWord (s : State) (nbits w : Nat) : State :=
  match decodeTableWord nbits w with
  | some c => { s with pending := c :: s.pending }
  | none => s

end Sys2Proof.Machine
end

