-- ==== Sys2Proof/Safety.lean ====
section
/-! DEFINITION. The terms the statements are made of: when a command packet executes, what taking it does to the
hub, what it means that it is answered, and what counts as a state with memory in order. -/

namespace Sys2Proof

/-! ### Packets -/

/-- The opcode and header of a command that is an ICP packet; none for what happens to the hub otherwise (Table 16-5). -/
def Instr.packet (i : Instr) : Option (Nat × Hdr) :=
  match i with
  | .identify h => some (0x0000, h)
  | .sessionChallenge h _ _ => some (0x0001, h)
  | .sessionOpen h _ _ _ => some (0x0002, h)
  | .sessionClose h => some (0x0003, h)
  | .identityCert h => some (0x0004, h)
  | .hubStatus h => some (0x0100, h)
  | .unitStatus h _ => some (0x0101, h)
  | .chipIdSet h _ => some (0x0102, h)
  | .retiredMapGet h => some (0x0103, h)
  | .safeRecordGet h => some (0x0104, h)
  | .timeGet h => some (0x0200, h)
  | .sightStart h _ _ => some (0x0201, h)
  | .sightReset h => some (0x0202, h)
  | .sightStatus h => some (0x0203, h)
  | .declareHang h _ => some (0x0300, h)
  | .hangStop h _ _ _ => some (0x0301, h)
  | .stopCancel h => some (0x0302, h)
  | .hangStatus h => some (0x0303, h)
  | .hangClear h => some (0x0304, h)
  | .stepCycles h _ _ _ => some (0x0305, h)
  | .stepCommand h _ _ _ _ => some (0x0306, h)
  | .resume h _ _ => some (0x0307, h)
  | .inspectRead h _ _ _ _ => some (0x0308, h)
  | .inspectWrite h _ _ _ _ => some (0x0309, h)
  | .dumpRegionSet h _ _ => some (0x0400, h)
  | .dump h _ _ => some (0x0401, h)
  | .dumpStatus h => some (0x0402, h)
  | .dumpFetch h _ _ _ => some (0x0403, h)
  | .dumpImageRegister h _ _ _ => some (0x0404, h)
  | .dumpImageRemove h _ => some (0x0405, h)
  | .dumpImageList h => some (0x0406, h)
  | .traceRegionSet h _ _ _ _ _ => some (0x0500, h)
  | .traceConfig h _ _ => some (0x0501, h)
  | .traceRestart h => some (0x0502, h)
  | .traceTrigger h _ _ => some (0x0503, h)
  | .traceMark h _ _ => some (0x0504, h)
  | .traceQuery h _ => some (0x0505, h)
  | .traceStatus h => some (0x0506, h)
  | .counterRead h _ _ => some (0x0600, h)
  | .counterAggregate h _ _ => some (0x0601, h)
  | .counterFreeze h _ _ _ => some (0x0602, h)
  | .counterSnapshotRead h _ => some (0x0603, h)
  | .counterClear h _ => some (0x0604, h)
  | .soundingSet h _ => some (0x0700, h)
  | .soundingClear h _ _ => some (0x0701, h)
  | .soundingKey h _ => some (0x0702, h)
  | .soundingRead h _ _ _ => some (0x0703, h)
  | .soundingStatus h => some (0x0704, h)
  | .replay h _ => some (0x0705, h)
  | .replayStatus h => some (0x0706, h)
  | .probeLoad h _ _ => some (0x0800, h)
  | .probeStart h _ _ _ => some (0x0801, h)
  | .probeStop h _ => some (0x0802, h)
  | .probeStatus h _ => some (0x0803, h)
  | .faultConfig h _ => some (0x0900, h)
  | .faultRead h _ _ => some (0x0901, h)
  | .faultAck h _ => some (0x0902, h)
  | .faultHistoryRead h => some (0x0903, h)
  | .faultInject h _ _ _ => some (0x0904, h)
  | .taintDestSet h _ => some (0x0905, h)
  | .taintEpochSet h _ => some (0x0906, h)
  | .unitRetire h _ => some (0x0907, h)
  | .patternLoad h _ _ _ _ => some (0x0A00, h)
  | .patternRemove h _ => some (0x0A01, h)
  | .patternList h => some (0x0A02, h)
  | .patternKeyRegister h _ => some (0x0A03, h)
  | .patternKeyRevoke h _ => some (0x0A04, h)
  | .runPatterns h _ _ _ _ _ => some (0x0A05, h)
  | .patternResults h _ => some (0x0A06, h)
  | .patternResultsClear h _ => some (0x0A07, h)
  | .candidateList h => some (0x0A08, h)
  | .candidateExport h _ => some (0x0A09, h)
  | .candidateRemove h _ => some (0x0A0A, h)
  | .redundancyStatus h => some (0x0B00, h)
  | .standbyResync h => some (0x0B01, h)
  | .activeRelease h => some (0x0B02, h)
  | .lifecycleGet h => some (0x0C00, h)
  | .lifecycleAdvance h _ _ => some (0x0C01, h)
  | .roleKeyProgram h _ _ => some (0x0C02, h)
  | .firmwareInfo h => some (0x0D00, h)
  | .firmwareWrite h _ _ _ _ => some (0x0D01, h)
  | .regRead h _ _ => some (0x0E00, h)
  | .regWrite h _ _ => some (0x0E01, h)
  | _ => none

end Sys2Proof

namespace Sys2Proof.Machine

/-! ### Admission (Table 16-4) -/

/-- The session of a packet, or its absence, permits the opcode (rows 5 to 7 of Table 16-4). -/
def Hub.permits (h : Hub) (r : OpRow) (hdr : Hdr) : Bool :=
  match h.session hdr.session with
  | none => hdr.session == 0 && r.free
  | some s => r.free || (match h.island.decoded with | some l => rolePermits r s.role l | none => false)

/-- A well-formed packet of opcode `code` executes: start-up is over, a controller accepts packets, none executes, no
DISCARDED answer is due to the session, the safe state does not stop it, and its session permits it (Table 16-4). -/
def Hub.admits (h : Hub) (code : Nat) (hdr : Hdr) : Bool :=
  h.takesPackets && !h.busy && !(h.discards.any fun d => d.1 == hdr.session) && !(h.fc.safe && decide (0x0200 ≤ code)) &&
    (match opRow code with | some r => h.permits r hdr | none => false)

/-- The hub as an admitted packet finds it: the session's idle time starts anew, the Abutments with the time PLL and
the DCN wake, and the holder's controller is in fast mode (R399, R407, R411). -/
def Hub.taken (h : Hub) (hdr : Hdr) : Hub := (h.touch hdr.session).wake.working

/-! ### Answers -/

/-- An output stage holds nothing, or the side and the claim that the active controller bears: it refuses none of its
accesses (R357). -/
def Hub.stageOpen (h : Hub) (i : Nat) : Bool :=
  match mapGet none h.red.stages i with
  | none => true
  | some g => g == (h.red.bears h.red.holder, h.red.holder)

/-- The injector of the active root takes the hub's packets. -/
def Hub.rootOpen (h : Hub) : Bool := h.stageOpen (rootStage h.red.holder)

/-- Replies go over the DPT, and its transmit mux refuses the controller that sends them (R357). -/
def Hub.muxRefuses (h : Hub) : Bool := h.transport == .dpt && h.refuses 0

/-- Between two hubs, a packet has been answered. The reply has been put out whole, and nothing put out before has
changed; where the transmit mux refuses it, each of its packets has put out REJECTED (R357); or, while a change of the synchronized
set waits for the standby's acknowledgement, the reply is held whole (R360). -/
def Hub.replied (h h' : Hub) (code : Nat) (hdr : Hdr) (st : Status) (body : List Byte) : Prop :=
  (h.red.syncWait = none → h.muxRefuses = false →
    ∃ l, h'.out = h.out ++ l ∧ ∀ p ∈ replyPackets (BitVec.ofNat 16 code) hdr st body, Out.reply p ∈ l) ∧
  (h.red.syncWait = none → h.muxRefuses = true →
    ∃ l l', h'.out = h.out ++ l ++ ((replyPackets (BitVec.ofNat 16 code) hdr st body).map fun _ => Out.rejected 0 h.red.holder) ++ l') ∧
  (h.red.syncWait ≠ none →
    h'.red.heldReplies = h.red.heldReplies ++ [⟨h.transport, BitVec.ofNat 16 code, hdr, st, body⟩])

/-! ### Frames -/

/-- The blocks of the hub, one for each field. -/
inductive Block where
  | time | sight | ident | port | tap | i3c | trig | ctl | dcn | agents | stops | dump | trace | arrays
  | soundings | soundBudget | replayStat | probe | fc | pat | red | island | power | fe | chip | slot
  | discards | latches | out | free
  deriving DecidableEq, Repr

/-- Two hubs agree in a block. -/
def Hub.agree (h h' : Hub) (b : Block) : Prop :=
  match b with
  | .time => h'.time = h.time
  | .sight => h'.sight = h.sight
  | .ident => h'.ident = h.ident
  | .port => h'.port = h.port
  | .tap => h'.tap = h.tap
  | .i3c => h'.i3c = h.i3c
  | .trig => h'.trig = h.trig
  | .ctl => h'.ctl = h.ctl
  | .dcn => h'.dcn = h.dcn
  | .agents => h'.agents = h.agents
  | .stops => h'.stops = h.stops
  | .dump => h'.dump = h.dump
  | .trace => h'.trace = h.trace
  | .arrays => h'.arrays = h.arrays
  | .soundings => h'.soundings = h.soundings
  | .soundBudget => h'.soundBudget = h.soundBudget
  | .replayStat => h'.replayStat = h.replayStat
  | .probe => h'.probe = h.probe
  | .fc => h'.fc = h.fc
  | .pat => h'.pat = h.pat
  | .red => h'.red = h.red
  | .island => h'.island = h.island
  | .power => h'.power = h.power
  | .fe => h'.fe = h.fe
  | .chip => h'.chip = h.chip
  | .slot => h'.slot = h.slot
  | .discards => h'.discards = h.discards
  | .latches => h'.latches = h.latches
  | .out => h'.out = h.out
  | .free => h'.free = h.free

/-- Between two hubs, at most the blocks listed have changed. -/
def Hub.onlyIn (h : Hub) (bs : List Block) (h' : Hub) : Prop := ∀ b, b ∉ bs → h.agree h' b

/-- The blocks a reply passes through: the Debug Port, the TAP, the replies that the standby holds up, and what has been
put out. -/
def replyBlocks : List Block := [.port, .tap, .red, .out]

/-- The blocks that taking a packet touches: sessions, domains, the DCN's counts, the controllers. -/
def takenBlocks : List Block := [.island, .power, .dcn, .red]

/-- The blocks of a command that is taken and answered. -/
def icpBlocks : List Block := replyBlocks ++ takenBlocks

/-- The blocks an event at the fault collector may reach, through the reaction it causes (Tables 13-4, 13-7). -/
def faultBlocks : List Block :=
  [.ident, .port, .tap, .i3c, .dcn, .agents, .stops, .trace, .soundings, .probe, .fc, .pat, .red, .power, .fe, .slot, .out,
    .free]

/-- Between two hubs, one event of a source has been counted, now (R311). -/
def Hub.counted (h h' : Hub) (source : Nat) : Prop :=
  (h'.fc.source source).count = sat32 ((h.fc.source source).count + 1) ∧ (h'.fc.source source).lastPt = h.pt

/-- Between two hubs, every agent but one unit's is unchanged. -/
def Hub.othersKeep (h h' : Hub) (u : UnitId) : Prop :=
  ∀ v, ordinalOf v ≠ ordinalOf u → h'.agent v = h.agent v

/-- The pattern store is up and its flash is sound: domain 17 is on, no reload runs, no block is worn or fails. -/
def Hub.storeSound (h : Hub) : Bool :=
  h.domainOn 17 && !h.pat.reloading && h.pat.flash.bad.isEmpty && h.pat.flash.worn.isEmpty

/-! ### Completion -/

/-- A command completes: exec answers a next state, in which the queue and memory are as before, the hub has changed
at most in the blocks listed, and `q` holds of it. -/
def State.completes (s : State) (i : Instr) (bs : List Block) (q : Hub → Prop) : Prop :=
  ∃ t, exec i s = .next t ∧ t.pending = s.pending ∧ t.mem = s.mem ∧ s.hub.onlyIn bs t.hub ∧ q t.hub

/-- A command packet completes with status OK: as `completes`, where beside the blocks listed only the reply path and
what taking a packet touches may have changed, and the whole reply is put out. -/
def State.answers (s : State) (i : Instr) (code : Nat) (hdr : Hdr) (bs : List Block) (body : List Byte)
    (q : Hub → Prop) : Prop :=
  s.completes i (icpBlocks ++ bs) fun h => s.hub.replied h code hdr .ok body ∧ q h

/-- A command packet is refused: it is answered with a status other than OK, and nothing but the reply path and what
taking a packet touches has changed. -/
def State.refuses (s : State) (i : Instr) (code : Nat) (hdr : Hdr) (st : Status) (body : List Byte) : Prop :=
  s.completes i icpBlocks fun h => s.hub.replied h code hdr st body

/-! ### Memory in order -/

/-- Memory has its canonical form: addresses strictly rising, and no byte listed that reads as an unlisted one. -/
def State.memoryWf (s : State) : Bool := memWf s.mem

end Sys2Proof.Machine
end

