-- ==== Sys2Proof/Certificates/Slice0/Obligations.lean ====
section
/-! DEFINITION. The statements for the provers: what the spec's rules say each command and the machine do, one
definition for each. The docstrings name the rules. -/

open Sys2Proof Sys2Proof.Machine

/-- SESSION_CHALLENGE draws 48 octets from the DRBG and remembers them with ROLE, PARTITION and PT; before SI_HOLD_PT it
is DENIED, after an entropy failure and without a DRBG it is BAD_STATE (R395, R396, R398). SESSION_OPEN with the
right response opens a session of the role under a tag drawn from the DRBG that is not zero and that no session has,
answers the tag and the attestation, uses the challenge up and clears FAIL_COUNT; past four sessions, or one of the
Vendor, it is BAD_STATE, and only the challenge is used up (R397 to R399). SESSION_OPEN with any other response is
denied, uses the challenge up, adds one to FAIL_COUNT, and from the fourth failure on sets SI_HOLD_PT, to 1 s on and
twice as far each time, at most 256 s (R397, R398). -/
def Obligations.SessionsOpenOnAGoodResponse : Prop :=
  (∀ (s : State) (hdr : Hdr) (role partition : Byte), s.hub.admits 0x0001 hdr = true →
    roleOf role.toNat ≠ none → partition.toNat ≤ (if role = 1 then 63 else 0) →
    (∀ d, s.hub.island.holdPt ≤ s.hub.pt → s.hub.island.entropyFail = false → s.hub.island.drbg = some d →
      s.answers (.sessionChallenge hdr role partition) 0x0001 hdr [] (drbgDraw (d.k, d.v) 48).1 fun h =>
        h.island.challenge = some { bytes := (drbgDraw (d.k, d.v) 48).1, role := role, partition := partition, pt := s.hub.pt } ∧
        h.island.sessions = (s.hub.taken hdr).island.sessions ∧ h.island.otp = s.hub.island.otp) ∧
    (s.hub.pt < s.hub.island.holdPt → s.refuses (.sessionChallenge hdr role partition) 0x0001 hdr .denied []) ∧
    (s.hub.island.holdPt ≤ s.hub.pt → s.hub.island.entropyFail = true ∨ s.hub.island.drbg = none →
      s.refuses (.sessionChallenge hdr role partition) 0x0001 hdr .badState [])) ∧
  (∀ (s : State) (hdr : Hdr) (role partition : Byte) (response : List Byte) (r : Role) (c : Challenge),
    s.hub.admits 0x0002 hdr = true → s.hub.responseGood role partition response = true → roleOf role.toNat = some r →
    s.hub.island.challenge = some c → let old := (s.hub.taken hdr).island
    let full := 4 ≤ s.hub.island.sessions.length ∨ (r = .vendor ∧ s.hub.island.sessions.any (fun x => x.role == .vendor) = true)
    (∀ tag i, ¬ full → drawTag 16 (old.sessions.map (·.tag)) old = some (tag, i) →
      s.answers (.sessionOpen hdr role partition response) 0x0002 hdr []
        (le 4 tag.toNat ++ (s.hub.taken hdr).attestation c tag) fun h =>
          h.island.sessions = old.sessions ++ [{
            tag := tag, role := r, partition := partition.setWidth 6
            transport := s.hub.transport, soundKey := List.replicate 16 0, lastPt := s.hub.pt }] ∧
          tag ≠ 0 ∧ (∀ x ∈ s.hub.island.sessions, x.tag ≠ tag) ∧
          h.island.challenge = none ∧ h.island.failCount = 0 ∧ h.island.otp = s.hub.island.otp) ∧
    (full → s.completes (.sessionOpen hdr role partition response) icpBlocks fun h =>
      s.hub.replied h 0x0002 hdr .badState [] ∧ h.island = { old with challenge := none })) ∧
  (∀ (s : State) (hdr : Hdr) (role partition : Byte) (response : List Byte), s.hub.admits 0x0002 hdr = true →
    s.hub.responseGood role partition response = false → let n := min (s.hub.island.failCount + 1) 255
    s.completes (.sessionOpen hdr role partition response) icpBlocks fun h =>
      s.hub.replied h 0x0002 hdr .denied [] ∧ h.island = { (s.hub.taken hdr).island with
        challenge := none, failCount := n,
        holdPt := if 4 ≤ n then s.hub.pt + 1000000000 * min 256 (2 ^ (n - 4)) else s.hub.island.holdPt })

/-- IDENTIFY, IDENTITY_CERT, HUB_STATUS, RETIRED_MAP_GET and SAFE_RECORD_GET answer what the hub holds, and change
nothing; SESSION_CLOSE ends its session after the reply, and no other (Tables 16-5, 17-8, 17-9, 13-3). UNIT_STATUS
answers PRESENCE and STATE of every unit of the scope in ordinal order, STATE 0xFF where it is not known; a faulty
scope block is BAD_ARG at its first faulty field (R371, Table 16-5). TIME_GET answers PT, MODE and UNSIGHTED;
SIGHT_STATUS the engine's state (Table 16-5, R64, R80). -/
def Obligations.StatusCommandsAnswer : Prop :=
  (∀ (s : State) (hdr : Hdr), let h := s.hub.taken hdr
    (s.hub.admits 0x0000 hdr = true → s.answers (.identify hdr) 0x0000 hdr []
      ([0x09, BitVec.ofNat 8 s.hub.lcNat] ++ le 2 s.hub.ident.chipId.toNat ++ le 4 s.hub.fwVersion ++ le 4 h.hubState) fun _ => True) ∧
    (s.hub.admits 0x0003 hdr = true → s.answers (.sessionClose hdr) 0x0003 hdr [.agents, .soundings, .pat] [] fun t =>
      t.session hdr.session = none ∧
      ∀ tag, tag ≠ hdr.session → t.session tag = s.hub.session tag) ∧
    (s.hub.admits 0x0004 hdr = true → s.answers (.identityCert hdr) 0x0004 hdr [] s.hub.certificate fun _ => True) ∧
    (s.hub.admits 0x0100 hdr = true → s.answers (.hubStatus hdr) 0x0100 hdr []
      (fit 40 s.hub.i3c.image ++ le 4 s.hub.fc.state ++ le 4 h.red.ksState ++ le 2 0x0100) fun _ => True) ∧
    (s.hub.admits 0x0103 hdr = true → s.answers (.retiredMapGet hdr) 0x0103 hdr []
      (le 4 s.hub.ident.retiredGen.toNat ++ s.hub.ident.mapBytes) fun _ => True) ∧
    (s.hub.admits 0x0104 hdr = true → s.answers (.safeRecordGet hdr) 0x0104 hdr []
      (s.hub.fc.slotBytes 64 ++ s.hub.fc.historyBytes) fun _ => True)) ∧
  (∀ (s : State) (hdr : Hdr) (sb : ScopeBlock), s.hub.admits 0x0101 hdr = true →
    let h := s.hub.taken hdr
    let sc := scopeOf sb (h.session hdr.session)
    (scopeFault sb 0 = none → s.answers (.unitStatus hdr sb) 0x0101 hdr [] ((h.scopeUnits sc.1 sc.2).flatMap fun u =>
      le 2 u.toNat ++ le 1 (h.presence u) ++
        le 1 (if h.presence u = 0 then agStateCode (h.agent u).state else 0xFF)) fun _ => True) ∧
    (∀ o, scopeFault sb 0 = some o → s.refuses (.unitStatus hdr sb) 0x0101 hdr .badArg (badArgBody o 0))) ∧
  (∀ (s : State) (hdr : Hdr),
    (s.hub.admits 0x0200 hdr = true → s.answers (.timeGet hdr) 0x0200 hdr []
      (le 8 s.hub.pt ++ [BitVec.ofNat 8 (modeCode s.hub.time.mode), BitVec.ofNat 8 (b2n s.hub.unsighted)]) fun _ => True) ∧
    (s.hub.admits 0x0203 hdr = true → ∃ body, s.answers (.sightStatus hdr) 0x0203 hdr [] body (fun _ => True) ∧
      body.length = 144 ∧ body.take 2 = [BitVec.ofNat 8 (sightCode s.hub.sight.state), BitVec.ofNat 8 s.hub.sight.depth] ∧
      (body.drop 4).take 4 = le 4 (s.hub.sight.lastRound.getD 0).toNat ∧ (body.drop 8).take 8 = le 8 s.hub.sight.step))

/-- CHIP_ID_SET gives a chip without an ID one, once; while Assigned is 1 a different value is BAD_STATE and the same
one changes nothing; and no step but AO power-on, which clears both, changes the ID or un-retires a unit (R22, R28). -/
def Obligations.ChipIdIsSetOnce : Prop :=
  ∀ (s : State),
    (∀ (hdr : Hdr) (c : W16), s.hub.admits 0x0102 hdr = true →
      (s.hub.ident.assigned = false → s.answers (.chipIdSet hdr c) 0x0102 hdr [.ident, .fc] [] fun h =>
        h.ident.assigned = true ∧ h.ident.chipId = c ∧ c ∉ h.fc.dests) ∧
      (s.hub.ident.assigned = true → s.hub.ident.chipId = c → s.answers (.chipIdSet hdr c) 0x0102 hdr [] [] fun _ => True) ∧
      (s.hub.ident.assigned = true → s.hub.ident.chipId ≠ c → s.refuses (.chipIdSet hdr c) 0x0102 hdr .badState [])) ∧
    (∀ t, step s = .next t →
      (s.pending.head? ≠ some .aoPowerOn → (∀ o ∈ s.hub.ident.retired, o ∈ t.hub.ident.retired) ∧
        (s.hub.ident.assigned = true → t.hub.ident.assigned = true ∧ t.hub.ident.chipId = s.hub.ident.chipId)) ∧
      (s.pending.head? = some .aoPowerOn → t.hub.ident.assigned = false ∧ t.hub.ident.chipId = 0))

/-- SIGHT_START under R69's conditions sets PT to BASE at the next AO edge, where the chip is Committed at depth 0; and
SIGHT_RESET makes the engine Idle (Table 3-2). The idle step that reaches the edge stands for the edge. SIGHT_RESET:
Idle, with PT and the last round as they were (Table 3-2). The time unit's modes: the PLL's lock and its loss, and
the loss and return of the pod reference, each name the mode of the next AO edge, where it takes effect; PT and BASE
stay, and the loss of the reference fails the sighting (R64 to R66, R70, Table 3-1). -/
def Obligations.TimeChangesAtTheNextEdge : Prop :=
  (∀ (s : State) (hdr : Hdr) (round : W32) (base : W64), s.hub.admits 0x0201 hdr = true → s.hub.ident.assigned = true →
    s.hub.sight.state ≠ .committed → s.hub.sight.state ≠ .measuring → s.hub.sight.starting = false →
    (∀ r, s.hub.sight.lastRound = some r → laterThan 32 round.toNat r.toNat = true) →
    s.hub.pt + 1000000 ≤ base.toNat → base.toNat ≤ 2 ^ 62 →
    s.answers (.sightStart hdr round base) 0x0201 hdr [.sight, .time] [] fun h =>
      h.sight.lastRound = some round ∧ h.sight.depth = 0 ∧
        (h.time.sub = 39 → h.nanosecond.pt = base.toNat ∧ h.nanosecond.sight.state = .committed ∧
          h.nanosecond.sight.depth = 0)) ∧
  (∀ (s : State) (hdr : Hdr), s.hub.admits 0x0202 hdr = true →
    s.answers (.sightReset hdr) 0x0202 hdr [.sight, .time] [] fun h =>
      h.sight.state = .idle ∧ h.sight.lastRound = s.hub.sight.lastRound ∧ h.pt = s.hub.pt) ∧
  (∀ (s : State),
    (s.hub.domainOn 18 = true → s.completes .pllLock [.time, .fc] fun h =>
      h.time = { s.hub.time with
        pllLocked := true, nextMode := if s.hub.time.refLost then s.hub.time.nextMode else some .interpolated }) ∧
    (s.completes .pllUnlock (.time :: faultBlocks) fun h =>
      h.time = { s.hub.time with
        pllLocked := false, nextMode := if s.hub.time.refLost then s.hub.time.nextMode else some .deadReckoned } ∧ s.hub.counted h 0xFBA) ∧
    (s.completes .referenceLoss ([.time, .sight] ++ faultBlocks) fun h =>
      h.time = { s.hub.time with refLost := true, nextMode := some .holdover } ∧
      h.sight.state = .failed ∧ h.sight.lostRef = true ∧ h.unsighted = true ∧ s.hub.counted h 0xFB9) ∧
    (s.hub.time.refLost = true → s.completes .referenceReturn [.time, .fc] fun h =>
      h.time = { s.hub.time with
        refLost := false, nextMode := some (if s.hub.time.pllLocked then .interpolated else .deadReckoned) } ∧ h.unsighted = s.hub.unsighted) ∧
    (∀ m, s.hub.time.sub = 39 → s.hub.time.nextMode = some m → s.hub.nanosecond.time.mode = m))

/-- An offer of a later round is taken in Idle, Behind or Failed: Measuring, one deeper than the sender (R70, R74). An
Assigned chip answers every SIGHT_PROBE; STATE is 1, with the stamps, only while it is Committed in the probe's
round (R76). A measuring chip sends its first probe to its parent once no action is armed, and each later one, up to
the eighth, 1 us after the echo or the time-out of the one before (R72, R79). The parent's echo within 50 us ends
the probe, and its offset and round trip are kept; the fourth valid echo decides by the best exchange: Behind where
its offset is negative, else the step is to come. An echo with STATE 0 fails the sighting. Without an echo the probe
is given up after 50 us; when the eighth has ended with fewer than four valid echoes, the sighting fails (R70, R72;
what else may come as an echo is ignored, log entry 91). A control-class message of a type this manual does not give
is counted and has no other effect (Table 2-8). -/
def Obligations.SightingMessagesAreExchanged : Prop :=
  (∀ (s : State) (link : Nat) (m : OfferMsg), s.hub.ident.assigned = true → link < 16 → s.hub.sight.starting = false →
    (s.hub.sight.state = .idle ∨ s.hub.sight.state = .behind ∨ s.hub.sight.state = .failed) →
    (∀ r, s.hub.sight.lastRound = some r → laterThan 32 m.round.toNat r.toNat = true) →
    s.completes (.sightOffset link m) [.sight, .power, .red, .dcn] fun h =>
      h.sight.state = .measuring ∧ h.sight.parent = some link ∧ h.sight.lastRound = some m.round ∧
      h.sight.depth = min 255 (m.depth.toNat + 1) ∧ h.sight.deep = (m.deep || decide (64 < h.sight.depth))) ∧
  (∀ (s : State) (link : Nat) (m : ProbeMsg) (t2 t3 : Nat), s.hub.ident.assigned = true →
    let c := decide (s.hub.sight.state = .committed ∧ s.hub.sight.lastRound = some m.round)
    s.completes (.sightProbe link m t2 t3) [.out] fun h =>
      h.out = s.hub.out ++ [.ctl link 0x02 (le 4 m.round.toNat ++ le 2 s.hub.ident.chipId.toNat ++
        le 1 (m.seq.toNat + 128 * b2n m.check) ++ le 1 (b2n c) ++ le 8 ((if c then t2 else 0) / 32) ++
        le 8 ((if c then t3 else 0) / 32) ++ le 1 ((if c then t2 else 0) % 32) ++ le 1 ((if c then t3 else 0) % 32) ++
        List.replicate 6 0)]) ∧
  (∀ (s : State) (l : Nat), s.hub.sight.state = .measuring → s.hub.sight.parent = some l →
    (∀ t1, s.hub.sight.probe = none → s.hub.sight.fourthPt = none → s.hub.sight.sent = 0 → s.hub.actionArmed = false →
      s.completes (.probeSendDue t1) [.sight, .out] fun h => h.sight.sent = 1 ∧
        h.sight.probe = some { link := l, seq := 0, t1 := t1, sentPt := s.hub.pt, check := false } ∧
        h.out = s.hub.out ++ [.ctl l 0x01 (probeBytes (s.hub.sight.lastRound.getD 0) s.hub.ident.chipId 0 false)]) ∧
    (∀ t1, s.hub.sight.probe = none → s.hub.sight.fourthPt = none → 0 < s.hub.sight.sent → s.hub.sight.sent < 8 →
      s.hub.sight.lastEchoPt + 1000 ≤ s.hub.pt → s.completes (.probeSendDue t1) [.sight, .out] fun h =>
        h.sight = { s.hub.sight with
          sent := s.hub.sight.sent + 1
          probe := some { link := l, seq := s.hub.sight.sent, t1 := t1, sentPt := s.hub.pt, check := false } }) ∧
    (∀ p, s.hub.sight.probe = some p → p.sentPt + 50000 ≤ s.hub.pt → s.completes .echoTimeout [.sight] fun h =>
      h.sight.probe = none ∧ h.sight.lastEchoPt = s.hub.pt ∧ h.sight.sent = s.hub.sight.sent ∧
      h.sight.state = if 8 ≤ s.hub.sight.sent ∧ s.hub.sight.echoes.length < 4 then .failed else .measuring) ∧
    (∀ p m t4, s.hub.sight.probe = some p → s.hub.sight.lastRound = some m.round → m.check = false → p.link = l →
      p.seq = m.seq.toNat → s.hub.pt < p.sentPt + 50000 →
      (m.committed = true → let es := s.hub.sight.echoes ++ [exchangeOf p.seq p.t1 m.t2 m.t3 t4]
        s.completes (.sightEcho l m t4) [.sight] fun h =>
          h.sight.probe = none ∧ h.sight.lastEchoPt = s.hub.pt ∧ h.sight.echoes = es ∧
          (es.length < 4 → h.sight.state = (if 8 ≤ s.hub.sight.sent then .failed else .measuring) ∧
            h.sight.fourthPt = s.hub.sight.fourthPt) ∧
          (∀ b, 4 ≤ es.length → bestExchange es = some b →
            h.sight.state = (if b.offset < 0 then .behind else .measuring) ∧
            h.sight.fourthPt = if b.offset < 0 then s.hub.sight.fourthPt else some s.hub.pt)) ∧
      (m.committed = false → s.completes (.sightEcho l m t4) [.sight] fun h =>
        h.sight = { s.hub.sight with state := .failed, probe := none }))) ∧
  (∀ (s : State) (msgType : Byte), msgType ∉ [0x01, 0x02, 0x03, 0x10, 0x20] →
    s.completes (.foreignMessage msgType) [.ctl] fun h =>
      h.ctl.foreign = min (s.hub.ctl.foreign + 1) 0xFFFFFFFF ∧ h.ctl.links = s.hub.ctl.links)

/-- SIGHT_STEP adds the integer part of the best offset to BASE and loads its fraction into the PLL's phase, at an AO
edge at least 1 us after the fourth echo; PT moves forward by it, the chip is Committed, and offers go out on every
link that is up but the parent's (R73, R74). A link's residual check sends probe after probe from 10 us after entry
to Committed, begins anew 1 ms after a failure, and 100 ms after its first probe the link is recorded as unchecked;
the other links' checks stay as they are (R75). -/
def Obligations.SightStepsAndResiduals : Prop :=
  (∀ (s : State) (f : Nat) (b : Exchange), s.hub.sight.state = .measuring → s.hub.sight.fourthPt = some f →
    bestExchange s.hub.sight.echoes = some b → s.hub.time.sub = 0 → f + 1000 ≤ s.hub.time.edgePt → 0 ≤ b.offset →
    s.completes .sightStep [.time, .sight, .trace, .probe, .out] fun h =>
      h.time = { s.hub.time with base := s.hub.time.base + b.offset.toNat / 32, phase32 := b.offset.toNat % 32 } ∧
      h.pt = s.hub.pt + b.offset.toNat / 32 ∧ h.sight.state = .committed ∧ h.sight.step = b.offset.toNat / 32 ∧
      ∀ l, l < 16 → s.hub.ctl.links.getLsbD l = true → s.hub.sight.parent ≠ some l →
        .ctl l 0x03 (offsetBytes (s.hub.sight.lastRound.getD 0) s.hub.ident.chipId s.hub.sight.depth s.hub.sight.deep
          s.hub.sight.ref) ∈ h.out) ∧
  (∀ (s : State) (link t1 : Nat), s.hub.checkOpen link = true →
    (∀ r, s.hub.residual link = r →
      (r.failedPt = none → s.completes (.residualCheck link t1) [.sight, .out] fun h => h.residual link =
        { r with
          sent := r.sent + 1, since := some (r.since.getD s.hub.pt)
          probe := some { link := link, seq := r.sent % 8, t1 := t1, sentPt := s.hub.pt, check := true } }) ∧
      (∀ f, r.failedPt = some f → f + 1000000 ≤ s.hub.pt →
        ((∀ z, r.since = some z → s.hub.pt < z + 100000000) →
          s.completes (.residualRetry link t1) [.sight, .out] fun h => (h.residual link).sent = 1 ∧
            (h.residual link).got = [] ∧ (h.residual link).failedPt = none ∧ (h.residual link).probe.isSome = true) ∧
        (∀ z, r.since = some z → z + 100000000 ≤ s.hub.pt → s.completes (.residualRetry link t1) [.sight] fun h =>
          h.residual link = { r with unchecked := true }))) ∧
    (∀ t l, exec (.residualCheck link t1) s = .next t ∨ exec (.residualRetry link t1) s = .next t → l ≠ link →
      t.hub.residual l = s.hub.residual l))

/-- The vote over the three OTP copies: the state two of them agree in, else Locked (R385). What happens in the security
island by itself: the start-up vote (R385, R415), a challenge's end after 1 s (R396), a session's end after 600 s
idle (R399), which ends no other, the entropy source's failure (R400), and the end of test mode, in which a unit's
SRAM contents become undefined (R391). -/
def Obligations.LifeCycleVotesAndAdvances : Prop :=
  (∀ (a b c : W32) (l : LifeCycle),
    ((copyState a = some l ∧ copyState b = some l) ∨ (copyState a = some l ∧ copyState c = some l) ∨
      (copyState b = some l ∧ copyState c = some l) → vote a b c = l) ∧
    ((∀ m, ¬ (copyState a = some m ∧ copyState b = some m) ∧ ¬ (copyState a = some m ∧ copyState c = some m) ∧
      ¬ (copyState b = some m ∧ copyState c = some m)) → vote a b c = .locked)) ∧
  (∀ (s : State),
    (s.hub.power.startUp = .powerGood → s.completes .otpVote [.i3c, .pat, .island, .power, .out] fun h =>
      h.power.startUp = .voted ∧ h.island.decoded = some s.hub.island.otp.vote) ∧
    (∀ c, s.hub.island.challenge = some c → c.pt + 1000000000 ≤ s.hub.pt → s.completes .challengeExpiry [.island] fun h =>
      h.island = { s.hub.island with challenge := none }) ∧
    (∀ tag x, s.hub.session tag = some x → x.lastPt + 600000000000 ≤ s.hub.pt →
      s.completes (.sessionIdleTimeout tag) [.dcn, .agents, .soundings, .pat, .red, .island, .power, .out] fun h =>
        h.session tag = none ∧ (∀ x, x ≠ tag → h.session x = s.hub.session x) ∧ h.island.otp = s.hub.island.otp) ∧
    (s.completes .entropyFail [.island] fun h =>
      h.island = { s.hub.island with entropyFail := true, drbg := none }) ∧
    (s.hub.island.testGate = false → s.completes .testGateFall [.agents] fun h =>
      ∀ u, h.agent u = if (s.hub.agent u).testMode
        then { s.hub.agent u with testMode := false, sram := [], sramLost := (s.hub.agent u).sramLost + 1 } else s.hub.agent u))

/-- LIFECYCLE_GET answers the three copies and DECODED. LIFECYCLE_ADVANCE under every condition of Table 17-3 records
the side work as pending and starts writing copy A, then B, then C, bit by bit, with the vote at the end (R386 to
R389); with a condition unmet it is refused and writes nothing: BAD_ARG for the target or the confirmation, else
BAD_STATE. ROLE_KEY_PROGRAM burns the hash into the role's blank, unsealed field and seals it, and touches no other
field; on a sealed field it is BAD_STATE (R394). -/
def Obligations.LifeCycleAndKeysAreBurnt : Prop :=
  (∀ (s : State) (hdr : Hdr) (target : Byte) (confirm : W32),
    (s.hub.admits 0x0C00 hdr = true → s.answers (.lifecycleGet hdr) 0x0C00 hdr []
      (le 4 s.hub.island.otp.copyA.toNat ++ le 4 s.hub.island.otp.copyB.toNat ++ le 4 s.hub.island.otp.copyC.toNat ++
        le 1 s.hub.lcNat) fun _ => True) ∧
    (s.hub.admits 0x0C01 hdr = true → ∀ l, advanceTarget s.hub.island.decoded target.toNat = some l →
      let ready := (l = .test → s.hub.island.otp.vendor.sealed = true) ∧
        (l = .production → s.hub.island.otp.operator.sealed = true ∧ s.hub.island.certificate.isSome = true) ∧
        s.hub.island.sessions.length ≤ 1 ∧ s.hub.island.entropyFail = false
      (confirm = stateCode l ^^^ 0x4C435346 → ready →
        s.completes (.lifecycleAdvance hdr target confirm) (icpBlocks ++ [.slot]) fun h =>
          (h.slot.map (·.prog)) = some .lifecycle ∧ h.island.jobTarget = some l ∧
          h.island.job = copyJob s.hub.island.otp (stateCode l) 0 ++ copyJob s.hub.island.otp (stateCode l) 1 ++
            copyJob s.hub.island.otp (stateCode l) 2 ++ [.vote] ∧
          h.island.otp = { s.hub.island.otp with
            sidePending := s.hub.island.otp.sidePending || l == .test,
            wipePending := s.hub.island.otp.wipePending || l == .endOfLife }) ∧
      (confirm = stateCode l ^^^ 0x4C435346 → ¬ ready →
        s.refuses (.lifecycleAdvance hdr target confirm) 0x0C01 hdr .badState []) ∧
      (confirm ≠ stateCode l ^^^ 0x4C435346 →
        s.refuses (.lifecycleAdvance hdr target confirm) 0x0C01 hdr .badArg (badArgBody 4 0))) ∧
    (s.hub.admits 0x0C01 hdr = true → advanceTarget s.hub.island.decoded target.toNat = none →
      s.refuses (.lifecycleAdvance hdr target confirm) 0x0C01 hdr .badArg (badArgBody 0 0))) ∧
  (∀ (s : State) (hdr : Hdr) (role : Byte) (hash : List Byte) (r : Role), s.hub.admits 0x0C02 hdr = true →
    roleOf role.toNat = some r → hash.length = 48 →
    ((s.hub.island.otp.keyField r).sealed = false → fit 48 (s.hub.island.otp.keyField r).hash = List.replicate 48 0 →
      s.hub.island.otp.keyBad = false → s.answers (.roleKeyProgram hdr role hash) 0x0C02 hdr [] [] fun h =>
        h.island.otp = s.hub.island.otp.setKeyField r { hash := hash, sealed := true } ∧
        h.island.sessions = (s.hub.taken hdr).island.sessions) ∧
    ((s.hub.island.otp.keyField r).sealed = true →
      s.refuses (.roleKeyProgram hdr role hash) 0x0C02 hdr .badState []))

/-- REG_READ of the hub's own ranges answers the words; an address outside every range, and a count over 1,024 or past
the range's end, name the field at fault. REG_WRITE answers OK whatever the words are, and changes writable fields
alone: the time-out of the DCN, the bench trigger controls, the collectors' wake levels, the sources' configurations
and RX_WINDOW; it may wake a domain, with those it needs (R408, R424, R425, R427, R429). Registers of an agent
window are read and written by the rules of inspection (R434, R435): where the agent answers, REG_READ answers the
words it gives, and REG_WRITE's words reach its registers in ascending order, where each is one it may write (R169);
a write with any other is refused whole, naming ADDRESS (log entry 165). At a fenced word the access ends with
BAD_STATE. -/
def Obligations.RegistersReadAndWrite : Prop :=
  (∀ (s : State) (hdr : Hdr) (address : W32) (count : W16) (words : List W32),
    (s.hub.admits 0x0E00 hdr = true →
      (∀ lo top, regRange address.toNat = some (lo, top, none) → count.toNat ≤ 1024 → address.toNat + 4 * count.toNat ≤ top →
        s.completes (.regRead hdr address count) (icpBlocks ++ [.latches]) fun h => s.hub.replied h 0x0E00 hdr .ok
          (readWords count.toNat address.toNat
            ((s.hub.taken hdr).powerDomains (((accessWords address.toNat count.toNat).filterMap wordDomain).flatMap withNeeds))).1) ∧
      (regRange address.toNat = none → s.refuses (.regRead hdr address count) 0x0E00 hdr .badArg (badArgBody 0 0)) ∧
      (∀ lo top u, regRange address.toNat = some (lo, top, u) → 1024 < count.toNat ∨ top < address.toNat + 4 * count.toNat →
        s.refuses (.regRead hdr address count) 0x0E00 hdr .badArg (badArgBody 4 0))) ∧
    (s.hub.admits 0x0E01 hdr = true →
      (∀ v, s.answers (.regWrite hdr 0x100 [v]) 0x0E01 hdr [] [] fun h =>
        h.dcn.timeoutM1 = v.setWidth 6 ∧ h.dcn.links = s.hub.dcn.links) ∧
      (∀ v, s.answers (.regWrite hdr 0x200 [v]) 0x0E01 hdr [.trig] [] fun h =>
        h.trig = { s.hub.trig with inCtrl := v.setWidth 4 }) ∧
      (∀ v, s.answers (.regWrite hdr 0x000 [v]) 0x0E01 hdr [] [] fun _ => True) ∧
      (∀ lo top, regRange address.toNat = some (lo, top, none) → words.length ≤ 1024 →
        address.toNat + 4 * words.length ≤ top →
        s.answers (.regWrite hdr address words) 0x0E01 hdr [.trig, .trace, .fc, .pat] [] fun h =>
          (∀ i, { h.collector i with wakeLevel := 0 } = { s.hub.collector i with wakeLevel := 0 }) ∧
          (∀ i, { h.fc.source i with cfg := none } = { s.hub.fc.source i with cfg := none }) ∧
          h.fc.records = s.hub.fc.records ∧ h.fc.safe = s.hub.fc.safe ∧ h.fc.log = s.hub.fc.log ∧
          h.pat = { s.hub.pat with reloading := h.pat.reloading }) ∧
      (∀ lo top u, regRange address.toNat = some (lo, top, u) → 1024 < words.length ∨ top < address.toNat + 4 * words.length →
        s.refuses (.regWrite hdr address words) 0x0E01 hdr .badArg (badArgBody 4 0)) ∧
      (regRange address.toNat = none → s.refuses (.regWrite hdr address words) 0x0E01 hdr .badArg (badArgBody 0 0)))) ∧
  (∀ (s : State) (hdr : Hdr) (u : UnitId) (off n : Nat) (words : List W32), unitHasAgent u = true → off % 4 = 0 →
    0 < n → n ≤ 1024 → off + 4 * n ≤ 0x1000 → (s.hub.taken hdr).answers u = true →
    let a : W32 := BitVec.ofNat 32 (0x1000000 + u.toNat * 0x1000 + off)
    (s.hub.admits 0x0E00 hdr = true → (∀ x, (s.hub.taken hdr).session hdr.session = some x →
        (s.hub.taken hdr).mayInspect x u 0 off (4 * n) = true) →
      let r := inspectAll (Hub.inspectWord u) (wordsOf off (4 * n)) ⟨.done, [], s.hub.taken hdr⟩
      (r.status ≠ .fenced → r.status ≠ .powering →
        s.answers (.regRead hdr a (BitVec.ofNat 16 n)) 0x0E00 hdr [.agents] r.data fun h => h.agents = r.hub.agents) ∧
      (r.status = .fenced → s.completes (.regRead hdr a (BitVec.ofNat 16 n)) (icpBlocks ++ [.agents]) fun h =>
        s.hub.replied h 0x0E00 hdr .badState [] ∧ h.agents = r.hub.agents)) ∧
    (s.hub.admits 0x0E01 hdr = true → words.length = n → ((wordsOf off (4 * n)).any fun w => !regWritable w.1) = true →
      s.refuses (.regWrite hdr a words) 0x0E01 hdr .badArg (badArgBody 0 0)) ∧
    (s.hub.admits 0x0E01 hdr = true → words.length = n → ((wordsOf off (4 * n)).all fun w => regWritable w.1) = true →
      let r := inspectAll (Hub.pokeWord words off u) (wordsOf off (4 * n)) ⟨.done, [], s.hub.taken hdr⟩
      (r.status ≠ .fenced → r.status ≠ .powering →
        s.answers (.regWrite hdr a words) 0x0E01 hdr [.agents, .arrays, .stops] [] fun h => h.agents = r.hub.agents) ∧
      (r.status = .fenced → s.completes (.regWrite hdr a words) (icpBlocks ++ [.agents, .arrays, .stops]) fun h =>
        s.hub.replied h 0x0E01 hdr .badState [] ∧ h.agents = r.hub.agents)))

/-- FIRMWARE_INFO answers version, length and digest of the image. A piece of FIRMWARE_WRITE that is not the last begins
the load or is added to it, and the image stays; a piece out of order, or of another length than the load's, is
refused and drops the load; a last piece that makes no image of the length stated that the loader accepts is
refused, and the image stays (R379, R416 to R418). The loader boots both controllers with an image that passes, and
enters recovery without one; enumeration loads the map from the repair fuses, whose units are held off, and sends
ENUM to the others: a powered agent that does not give its own Unit ID in answer is Unreachable, and another ID is
an event of its half. Then the hub is Ready, the domains that tracing needs come on, and a lane on which energy was
detected goes to Training (R28, R29, R30, R122, R417, R422). -/
def Obligations.FirmwareLoadsAndStartUpEnds : Prop :=
  (∀ (s : State) (hdr : Hdr) (offset total : W32) (data : List Byte),
    (s.hub.admits 0x0D00 hdr = true → s.answers (.firmwareInfo hdr) 0x0D00 hdr []
      (le 4 s.hub.fwVersion ++ le 4 s.hub.image.length ++ sha384 s.hub.image) fun _ => True) ∧
    (s.hub.admits 0x0D01 hdr = true →
      (offset = 0 → s.answers (.firmwareWrite hdr offset total 0 data) 0x0D01 hdr [] [] fun h =>
        h.power.fwPart = some { session := hdr.session, total := total.toNat, bytes := data } ∧
        h.power.image = s.hub.power.image) ∧
      (∀ p, s.hub.power.fwPart = some p → p.session = hdr.session → offset.toNat = p.bytes.length → offset ≠ 0 →
        total.toNat = p.total →
        s.answers (.firmwareWrite hdr offset total 0 data) 0x0D01 hdr [] [] fun h =>
          h.power.fwPart = some { p with bytes := p.bytes ++ data } ∧ h.power.image = s.hub.power.image) ∧
      (∀ p final, s.hub.power.fwPart = some p → p.session = hdr.session → offset ≠ 0 → offset.toNat ≠ p.bytes.length →
        s.completes (.firmwareWrite hdr offset total final data) icpBlocks fun h =>
          s.hub.replied h 0x0D01 hdr .badArg (badArgBody 0 0) ∧ h.power.fwPart = none ∧ h.power.image = s.hub.power.image) ∧
      (∀ p final, s.hub.power.fwPart = some p → p.session = hdr.session → offset ≠ 0 → offset.toNat = p.bytes.length →
        total.toNat ≠ p.total → s.completes (.firmwareWrite hdr offset total final data) icpBlocks fun h =>
          s.hub.replied h 0x0D01 hdr .badArg (badArgBody 4 0) ∧ h.power.fwPart = none ∧ h.power.image = s.hub.power.image) ∧
      (∀ final, offset = 0 → final ≠ 0 → data.length ≠ total.toNat ∨ firmwarePasses data = false →
        (data.take 8 == ascii "IXYCERT1") = false →
        s.completes (.firmwareWrite hdr offset total final data) icpBlocks fun h =>
          s.hub.replied h 0x0D01 hdr .badArg (badArgBody noOffset 0) ∧ h.power.fwPart = none ∧
          h.power.image = s.hub.power.image ∧ h.island.cert = s.hub.island.cert))) ∧
  (∀ (s : State),
    (s.hub.power.startUp = .voted → s.hub.imagePasses = true → s.completes .romVerification [.power, .dcn, .red] fun h =>
      h.power.startUp = .verified ∧ h.power.verified = sha384 s.hub.image ∧ ∀ d ∈ [2, 3, 18, 4, 5], h.domainOn d = true) ∧
    (s.hub.power.startUp = .voted → s.hub.imagePasses = false → s.completes .romVerification [.power] fun h =>
      h.power = { s.hub.power with startUp := .recovery }) ∧
    (s.hub.power.startUp ≠ .voted → s.completes .romVerification [] fun _ => True) ∧
    (s.hub.red.granted = true → (s.hub.red.ctrl s.hub.red.holder).role = .active →
      (s.hub.power.startUp = .verified ∨ s.hub.power.startUp = .granted) →
      let fused (u : UnitId) : Prop := retirable u = true ∧ ordinalOf u ∈ s.hub.island.otp.repair
      let wrong := s.hub.agents.filterMap fun p =>
        (s.hub.enumAnswer p.1).bind fun v => if v = unitOf p.1 then none else some (p.1, v)
      (wrong = [] → s.completes .dcnEnumeration [.power, .ident, .trace, .soundings, .agents, .arrays, .dcn, .red, .out] fun h =>
        h.power.startUp = .enumerated ∧
        (∀ u, unitHasAgent u = true → fused u → h.retired u = true ∧ (h.agent u).powered = false) ∧
        (∀ u, unitHasAgent u = true → ¬ fused u → h.agent u = if (s.hub.agent u).powered
          then { s.hub.agent u with unreachable := s.hub.enumAnswer (ordinalOf u) != some u } else s.hub.agent u) ∧
        ∀ o ∈ s.hub.ident.retired, o ∈ h.ident.retired) ∧
      (∀ o v, wrong = [(o, v)] → o < agentCount → ¬ fused (unitOf o) →
        s.completes .dcnEnumeration (faultBlocks ++ [.arrays]) fun h => h.power.startUp = .enumerated ∧
          (h.agent (unitOf o)).unreachable = true ∧ s.hub.counted h (0xFC6 + halfNat (halfOf (unitOf o))))) ∧
    ((s.hub.red.granted = false ∨ (s.hub.red.ctrl s.hub.red.holder).role ≠ .active ∨
      (s.hub.power.startUp ≠ .verified ∧ s.hub.power.startUp ≠ .granted)) → s.completes .dcnEnumeration [] fun _ => True) ∧
    (s.hub.power.startUp = .enumerated → s.hub.accepting = true →
      let waits := s.hub.port.energy = true ∧ s.hub.port.lane = .off
      (¬ waits → s.hub.tracing = false → s.completes .ready [.power] fun h =>
        h.power = { s.hub.power with startUp := .ready } ∧ h.takesPackets = true) ∧
      (¬ waits → s.hub.tracing = true → s.completes .ready [.power] fun h =>
        h.power.startUp = .ready ∧ h.takesPackets = true ∧ ∀ d ∈ [6, 7, 18, 19, 20], h.domainOn d = true) ∧
      (waits → s.completes .ready [.power, .port] fun h => h.power.startUp = .ready ∧ h.takesPackets = true ∧
        h.port.lane = .training ∧ h.domainOn 15 = true ∧ h.domainOn 16 = true ∧
        (s.hub.tracing = true → ∀ d ∈ [6, 7, 18, 19, 20], h.domainOn d = true))) ∧
    ((s.hub.power.startUp ≠ .enumerated ∨ s.hub.accepting = false) → s.completes .ready [] fun _ => True))

/-- A packet on the selected transport, with a good header and a payload that reads whole, runs the command it spells;
on the other transport it has no effect but DPT_DISCARD (R43, R371, Table 16-4). A packet whose header is malformed,
and one whose payload has a field at fault, are BAD_ARG and run nothing, where no earlier row of Table 16-4 answers
them (R373). -/
def Obligations.PacketsRunOrAreBadArg : Prop :=
  (∀ (s : State) (tr : Transport) (bytes : List Byte),
    (∀ p i, s.hub.transport = tr → 16 ≤ bytes.length → bit (parseHeader bytes).flags 0 = false →
      (parseHeader bytes).bad bytes.length = false →
      payloadOf (parseHeader bytes).opcode.toNat (parseHeader bytes).hdr = some p →
      parsePayload p (bytes.drop 16) = .ok i →
      ∃ t, exec (.packetReceived tr bytes) s = .next t ∧ exec i s = .next t) ∧
    (s.hub.transport ≠ tr → s.completes (.packetReceived tr bytes) [.tap] fun h =>
      h.tap = if tr = .jtag then { s.hub.tap with dptDiscard := true } else s.hub.tap)) ∧
  (∀ (s : State) (bytes : List Byte), let x := parseHeader bytes
    16 ≤ bytes.length → bit x.flags 0 = false → s.hub.takesPackets = true → s.hub.earlyVerdict x.opcode.toNat x.hdr.session = none →
    (payloadOf x.opcode.toNat x.hdr = none ∨ x.bad bytes.length = true →
      s.completes (.packetReceived s.hub.transport bytes) icpBlocks fun h =>
        s.hub.replied h x.opcode.toNat x.hdr .badArg (badArgBody noOffset 0)) ∧
    (∀ p o, payloadOf x.opcode.toNat x.hdr = some p → x.bad bytes.length = false →
      parsePayload p (bytes.drop 16) = .error o → s.hub.admits x.opcode.toNat x.hdr = true →
      s.completes (.packetReceived s.hub.transport bytes) icpBlocks fun h =>
        s.hub.replied h x.opcode.toNat x.hdr .badArg (badArgBody o 0)))

/-- A packet is answered at the first row of Table 16-4 that applies: BUSY while a command executes, DISCARDED where
that answer is due to its session, SAFE_STATE, or DENIED; and for none of these rows is anything carried out (R374,
R375, R378, R390). -/
def Obligations.RefusedPacketsDoNothing : Prop :=
  ∀ (s : State) (i : Instr) (code : Nat) (hdr : Hdr), i.packet = some (code, hdr) → s.hub.takesPackets = true →
    let due := s.hub.discards.find? fun d => d.1 == hdr.session
    (s.hub.busy = true → s.refuses i code hdr .busy []) ∧
    (s.hub.busy = false → ∀ d, due = some d → s.completes i (icpBlocks ++ [.discards]) fun h =>
      s.hub.replied h code hdr .discarded (le 2 d.2.1.toNat ++ le 2 d.2.2.toNat) ∧
      h.discards = s.hub.discards.filter fun d => d.1 != hdr.session) ∧
    (s.hub.busy = false → due = none → s.hub.fc.safe = true → 0x0200 ≤ code → s.refuses i code hdr .safeState []) ∧
    (s.hub.busy = false → due = none → (s.hub.fc.safe = true → code < 0x0200) →
      ∀ r, opRow code = some r → s.hub.permits r hdr = false → s.refuses i code hdr .denied [])

/-- In Up, a good DATA frame with the FSEQ expected advances the number, an acknowledgement is due, and its packet is
received; a payload shorter than a header is counted. Any other frame number gets a NAK, at most every 10 us, and a
bad CRC is counted and gets one too (R368, R374); a frame with a good CRC, of whatever type, wakes the Abutments,
and one with a bad CRC wakes nothing (R39, log entry 84), nor does any before the loader has passed the image
(R417). ACK names the next frame expected: those before it leave the resend buffer; NAK does so and every one left
goes out again; the same happens 50 us after the oldest with no advance; an acknowledgement goes out 2 us after a
DATA frame for which none has gone (R368). Frames are laid out as R366 says; one that is not, with its reserved
octet or an ACK's FSEQ or LEN not zero, is of no type (log entry 164). The lane's states (R38, Table 2-2): signal
starts Training in Off, before Ready at the latter (R422); block lock within 250 ms makes it Up, later or not at all
Off; Up is left for Training at a retrain or a loss of block lock, and for Off after 10 s idle without a session. A
change of transport ends the sessions of the one left (R41, R43). -/
def Obligations.TheLaneAndItsFrames : Prop :=
  (∀ (s : State) (bytes : List Byte) (f : FrameFields), s.hub.port.lane = .up → parseFrame bytes = some f →
    (f.crcGood = true → f.ftype = 1 → f.fseq = s.hub.port.expectFseq →
      (16 ≤ f.payload.length → ∃ t h, exec (.dataFrame bytes) s = .next t ∧
        exec (.packetReceived .dpt f.payload) { s with hub := h } = .next t ∧
        s.hub.onlyIn [.port, .out, .power, .red, .dcn] h ∧ h.port.expectFseq = s.hub.port.expectFseq + 1 ∧
        (s.hub.mayBoot = true → h.domainOn 2 = true ∧ h.domainOn 3 = true) ∧
        (s.hub.port.waiting = [] → h.port.ackDue.isSome = true)) ∧
      (f.payload.length < 16 → s.completes (.dataFrame bytes) [.port, .out, .power, .red, .dcn] fun h =>
        h.port.errors = sat32 (s.hub.port.errors + 1) ∧ h.port.expectFseq = s.hub.port.expectFseq + 1)) ∧
    (∀ t, s.hub.port.nakPt = some t → s.hub.pt < t + 10000 → f.crcGood = true → f.fseq ≠ s.hub.port.expectFseq →
      s.completes (.dataFrame bytes) [.port, .power, .red, .dcn] fun h => h.port = { s.hub.port with lastFramePt := s.hub.pt }) ∧
    ((∀ t, s.hub.port.nakPt = some t → t + 10000 ≤ s.hub.pt) →
      (f.crcGood = true → f.fseq ≠ s.hub.port.expectFseq → s.completes (.dataFrame bytes) [.port, .out, .power, .red, .dcn] fun h =>
        h.out = s.hub.out ++ [.frame (nakFrame s.hub.port.expectFseq)] ∧ h.port.nakPt = some s.hub.pt ∧
        (s.hub.mayBoot = true → h.domainOn 2 = true ∧ h.domainOn 3 = true) ∧
        h.port.expectFseq = s.hub.port.expectFseq ∧ h.port.naks = sat32 (s.hub.port.naks + 1)) ∧
      (f.crcGood = false → s.completes (.dataFrame bytes) [.port, .out] fun h =>
        h.out = s.hub.out ++ [.frame (nakFrame s.hub.port.expectFseq)] ∧ h.port.nakPt = some s.hub.pt ∧
        h.port.expectFseq = s.hub.port.expectFseq ∧ h.port.crc = sat32 (s.hub.port.crc + 1)))) ∧
  (∀ (s : State) (bytes : List Byte) (f : FrameFields), s.hub.port.lane = .up →
    let rest := s.hub.port.unacked.filter fun x => !laterThan 16 f.ack.toNat x.fseq.toNat
    let again := fun (l : List TxFrame) => l.map fun x => Out.frame (dataFrame x.fseq s.hub.port.expectFseq x.packet)
    (parseFrame bytes = some f → f.crcGood = true → s.hub.port.waiting = [] →
      (f.ftype = 2 → s.completes (.ackFrame bytes) [.port, .power, .red, .dcn] fun h =>
        h.port.unacked = rest ∧ h.port.lastFramePt = s.hub.pt ∧
        (s.hub.mayBoot = true → h.domainOn 2 = true ∧ h.domainOn 3 = true)) ∧
      (f.ftype = 3 → s.completes (.nakFrame bytes) [.port, .out, .power, .red, .dcn] fun h =>
        h.out = s.hub.out ++ again rest ∧
        h.port.unacked = rest.map (fun x => { x with resends := x.resends + 1, sentPt := s.hub.pt }) ∧
        h.port.resends = sat32 (s.hub.port.resends + rest.length))) ∧
    (∀ t, s.hub.port.ackDue = some t → t + 2000 ≤ s.hub.pt → s.hub.port.waiting = [] →
      s.completes .ackTimer [.port, .out] fun h => h.port.ackDue = none ∧ h.out = s.hub.out ++ [.frame (ackFrame s.hub.port.expectFseq)]) ∧
    (∀ x l, s.hub.port.unacked = x :: l → max x.sentPt s.hub.port.ackPt + 50000 ≤ s.hub.pt →
      s.completes .resendTimeout [.port, .out] fun h => h.out = s.hub.out ++ again (x :: l) ∧
        h.port.unacked = (x :: l).map (fun x => { x with resends := x.resends + 1, sentPt := s.hub.pt }) ∧
        h.port.resends = sat32 (s.hub.port.resends + (x :: l).length))) ∧
  (∀ (s : State),
    (s.hub.port.lane = .off → s.hub.power.startUp = .ready → s.completes .signalDetect [.port, .power] fun h =>
      h.port.lane = .training ∧ h.domainOn 15 = true ∧ h.domainOn 16 = true) ∧
    (s.hub.port.lane = .off → s.hub.power.startUp ≠ .ready → s.hub.power.startUp ≠ .powerGood →
      s.completes .signalDetect [.port] fun h => h.port.lane = .off ∧ h.port.energy = true) ∧
    (s.hub.port.lane ≠ .off ∨ s.hub.power.startUp = .powerGood → s.completes .signalDetect [] fun _ => True) ∧
    (s.hub.port.lane = .training → s.hub.pt ≤ s.hub.port.trainingPt + 250000000 → s.completes .trainingComplete
      [.port, .tap, .dcn, .agents, .soundings, .pat, .red, .island, .power, .slot, .out] fun h =>
        h.port.lane = .up ∧ h.transport = .dpt ∧ ∀ x ∈ h.island.sessions, x.transport ≠ .jtag) ∧
    (s.hub.port.lane = .training → s.hub.port.trainingPt + 250000000 < s.hub.pt →
      s.completes .trainingComplete [.port, .red, .power] fun h => h.port.lane = .off) ∧
    (s.hub.port.lane = .training → s.hub.port.trainingPt + 250000000 ≤ s.hub.pt →
      s.completes .trainingTimeout [.port, .red, .power] fun h =>
        h.port.lane = .off ∧ h.domainOn 15 = false ∧ h.domainOn 16 = false) ∧
    (s.hub.port.lane = .up → s.completes .blockLockLoss
      [.port, .dcn, .agents, .soundings, .pat, .red, .island, .power, .slot, .out] fun h => h.port.lane = .training ∧
        h.port.retrains = sat32 (s.hub.port.retrains + 1) ∧ ∀ x ∈ h.island.sessions, x.transport ≠ .dpt) ∧
    (s.hub.port.lane = .training → s.completes .blockLockLoss [] fun _ => True) ∧
    (s.hub.port.lane = .up → (∃ x ∈ s.hub.port.unacked, 16 ≤ x.resends) ∨
        (s.hub.port.unacked ≠ [] ∧ s.hub.port.ackPt + 10000000 ≤ s.hub.pt) → s.completes .linkRetrainRequest
      [.port, .dcn, .agents, .soundings, .pat, .red, .island, .power, .slot, .out] fun h => h.port.lane = .training ∧
        h.port.unacked = [] ∧ h.port.retrains = sat32 (s.hub.port.retrains + 1) ∧ Out.retrain ∈ h.out) ∧
    (s.hub.port.lane = .up → s.hub.island.sessions = [] → s.hub.port.lastFramePt + 10000000000 ≤ s.hub.pt →
      s.completes .laneIdleTimeout [.port, .dcn, .agents, .soundings, .pat, .island, .power, .red, .slot, .out] fun h =>
        h.port.lane = .off ∧ h.domainOn 15 = false ∧ h.domainOn 16 = false))

/-- The TAP: Test-Logic-Reset selects IDCODE and discards a partly shifted packet (R42, R44); an IR scan selects an
instruction and shifts 0x01 out; a DR scan shifts the selected register: with ICP_STATUS it reports the status word
and clears the sticky bits it reported (R382), with IDCODE the chip's; BYPASS captures 0 (log entry 85); before the
OTP vote the TAP does nothing; a full reply buffer untouched for 1 s is dropped (R383). ICP_DATA: a scan delivers
the next reply word; a word with VALID 0 is not taken; a word while RX_READY is 0 is an overrun and halts the input,
which takes no more; a word inside a packet is kept; the last word, the CRC, runs the packet, or halts the input
where it is wrong; with another instruction selected no word is taken (R42, R381, R383). -/
def Obligations.JtagWordsAndTap : Prop :=
  (∀ (s : State) (ir : Option Byte),
    let now := tapInstr s.hub.tap.ir
    (s.completes .testLogicReset [.tap] fun h => h.tap = { s.hub.tap with ir := 0x01, halted := false, rx := [] }) ∧
    (s.hub.tapUsable = true → s.completes (.icpDataUpdate ir none) [.tap, .out] fun h =>
      h.tap = { s.hub.tap with ir := ir.getD s.hub.tap.ir } ∧ h.out = s.hub.out ++ (if ir.isSome then [.tdo 8 0x01] else [])) ∧
    (s.hub.tapUsable = true → s.completes .icpStatusCapture [.tap, .out] fun h =>
      (now = .icpStatus → h.out = s.hub.out ++ [.jtagStatus (BitVec.ofNat 32 s.hub.icpStatus)] ∧ h.tap = { s.hub.tap with
        dptDiscard := false, crcErr := false, overrun := false, abandoned := false }) ∧
      (now ≠ .icpStatus → h.tap = s.hub.tap) ∧
      (now = .idcode → h.out = s.hub.out ++ [.tdo 32 0x090014C3]) ∧ (now = .bypass → h.out = s.hub.out ++ [.tdo 1 0])) ∧
    (s.hub.tapUsable = false → s.completes .icpStatusCapture [] (fun _ => True) ∧
      ∀ scan, s.completes (.icpDataUpdate ir scan) [] fun _ => True) ∧
    (∀ t, s.hub.tap.fullSince = some t → t + 1000000000 ≤ s.hub.pt → s.completes .replyAbandoned [.tap] fun h =>
      h.tap = { s.hub.tap with tx := [], txWait := [], waitFor := none, fullSince := none, abandoned := true })) ∧
  (∀ (s : State) (ir : Option Byte) (w : W32), s.hub.tapUsable = true →
    let ws := s.hub.tap.rx ++ [w]
    let octets := ws.dropLast.flatMap fun (x : W32) => le 4 x.toNat
    let out := s.hub.out ++ (if ir.isSome then [.tdo 8 0x01] else [])
    (tapInstr (ir.getD s.hub.tap.ir) ≠ .icpData → ∀ valid, s.completes (.icpDataUpdate ir (some ⟨valid, w⟩)) [.tap, .out] fun h =>
      h.tap.rx = s.hub.tap.rx ∧ h.tap.tx = s.hub.tap.tx ∧ h.tap.halted = s.hub.tap.halted) ∧
    (tapInstr (ir.getD s.hub.tap.ir) = .icpData →
      (s.completes (.icpDataUpdate ir (some ⟨false, w⟩)) [.tap, .out] fun h =>
        h.tap.rx = s.hub.tap.rx ∧ h.tap.halted = s.hub.tap.halted ∧
        (s.hub.tap.tx = [] → h.out = out ++ [.jtag false 0]) ∧
        (∀ x l, s.hub.tap.tx = x :: l → h.out = out ++ [.jtag true x])) ∧
      (s.hub.tap.halted = true → s.completes (.icpDataUpdate ir (some ⟨true, w⟩)) [.tap, .out] fun h =>
        h.tap.rx = s.hub.tap.rx ∧ h.tap.halted = true) ∧
      (s.hub.tap.halted = false → s.hub.rxReady = false → s.completes (.icpDataUpdate ir (some ⟨true, w⟩)) [.tap, .out] fun h =>
        h.tap.overrun = true ∧ h.tap.halted = true ∧ h.tap.rx = []) ∧
      (s.hub.rxReady = true → jtagLength ws ≠ some ws.length → s.completes (.icpDataUpdate ir (some ⟨true, w⟩)) [.tap, .out] fun h =>
        h.tap.rx = ws ∧ h.tap.halted = false) ∧
      (s.hub.rxReady = true → jtagLength ws = some ws.length → s.hub.transport = .jtag → crc32c octets ≠ w →
        s.completes (.icpDataUpdate ir (some ⟨true, w⟩)) [.tap, .out] fun h => h.tap.crcErr = true ∧ h.tap.halted = true ∧ h.tap.rx = []) ∧
      (s.hub.rxReady = true → jtagLength ws = some ws.length → s.hub.transport = .jtag → crc32c octets = w →
        ∃ t h, exec (.icpDataUpdate ir (some ⟨true, w⟩)) s = .next t ∧ s.hub.onlyIn [.tap, .out] h ∧ h.tap.rx = [] ∧
          exec (.packetReceived .jtag (octets.take (16 + (ws.getD 2 0).toNat))) { s with hub := h } = .next t) ∧
      (s.hub.rxReady = true → jtagLength ws = some ws.length → s.hub.transport = .dpt →
        s.completes (.icpDataUpdate ir (some ⟨true, w⟩)) [.tap, .out] fun h => h.tap.dptDiscard = true ∧ h.tap.rx = [])))

/-- The I3C target takes a dynamic address where it has none, gives it up at RSTDAA, and answers the fixed direct CCCs,
once the first image exists (R45, R48, Table 2-4). The octet order of GETPID, GETSTATUS, GETMWL and GETMRL is the
family's (log entry 11). That RSTDAA and DISEC drop an IBI that waits, and that GETSTATUS clears the protocol error
it has reported, are the model's choices (log entries 86, 87). Private reads return octets of one image from the
index on, zero where Table 2-4 lists none, and the index advances (past 0xFF and past 64 octets as log entry 88
chooses); one octet written sets the index; 0x60 0x01 wakes domains 2, 3 and 18; a write of any other length is
ignored, and one with wrong parity is a protocol error (log entry 86); an image is taken each 1 ms; a change of the
pending reaction or of SAFE raises an IBI where target interrupts are enabled (R46 to R48, R409). POD_TRIG_IN counts
a rising edge, from Ready on, that was long enough low and high, at most one each 1 us; awake, the edge does what
CTRL selects, which is nothing where CTRL is 0, and a STOP in Production is denied. POD_TRIG_OUT pulses for 100 ns
within 5 ns of the instant of an event (R432) that its CTRL selects, and a pulse in progress is extended without
being counted; before Ready and asleep it stays low (R49 to R51, Table 2-1). -/
def Obligations.I3cAndBenchPins : Prop :=
  (∀ (s : State) (a : BitVec 7), s.hub.power.startUp ≠ .powerGood →
    (let named (h : Hub) : Prop := h.i3c = { s.hub.i3c with dynAddr := some a };
      (s.hub.i3c.dynAddr = none → s.completes (.entdaa a) [.i3c] named ∧ s.completes (.setdasa a) [.i3c] named) ∧
      (s.hub.i3c.dynAddr ≠ none → ∀ i ∈ [Instr.entdaa a, .setdasa a], s.completes i [] fun _ => True)) ∧
    (s.completes .rstdaa [.i3c] fun h => h.i3c = { s.hub.i3c with dynAddr := none, ibiEnabled := false, ibi := none }) ∧
    (s.completes .enec [.i3c] fun h => h.i3c = { s.hub.i3c with ibiEnabled := true }) ∧
    (s.completes .disec [.i3c] fun h => h.i3c = { s.hub.i3c with ibiEnabled := false, ibi := none }) ∧
    (s.completes .getstatus [.i3c, .out] fun h => h.i3c = { s.hub.i3c with protocolError := false } ∧
      h.out = s.hub.out ++ [.i3c [s.hub.i3c.image.getD 4 0,
        BitVec.ofNat 8 (b2n s.hub.i3c.ibi.isSome + 32 * b2n s.hub.i3c.protocolError)]]) ∧
    (s.completes .getpid [.out] fun h => h.out = s.hub.out ++ [.i3c (be 6 s.hub.provisionedId)]) ∧
    (s.completes .getbcr [.out] fun h => h.out = s.hub.out ++ [.i3c [0x06]]) ∧
    (s.completes .getdcr [.out] fun h => h.out = s.hub.out ++ [.i3c [0x00]]) ∧
    (s.completes .getmwl [.out] fun h => h.out = s.hub.out ++ [.i3c [0, 2]]) ∧
    (s.completes .getmrl [.out] fun h => h.out = s.hub.out ++ [.i3c [0, 64]])) ∧
  (∀ (s : State),
    (s.hub.i3cActive = true →
      (∀ n, s.completes (.i3cPrivateRead n) [.i3c, .out] fun h =>
        h.i3c = { s.hub.i3c with index := (s.hub.i3c.index + n) % 256 } ∧
        h.out = s.hub.out ++ [.i3c ((List.range n).map fun k =>
          let i := (s.hub.i3c.index + k) % 256
          if i < 0x28 then s.hub.i3c.image.getD i 0 else 0)]) ∧
      (∀ i : Byte, s.completes (.i3cPrivateWrite ⟨[i], true⟩) [.i3c] fun h => h.i3c = { s.hub.i3c with index := i.toNat }) ∧
      (∀ bs, bs.length ≠ 1 → bs ≠ [0x60, 0x01] → s.completes (.i3cPrivateWrite ⟨bs, true⟩) [] fun _ => True) ∧
      (∀ bs, s.completes (.i3cPrivateWrite ⟨bs, false⟩) [.i3c] fun h => h.i3c = { s.hub.i3c with protocolError := true })) ∧
    (s.hub.power.startUp = .ready →
      (s.completes .wake [.power, .red, .dcn] fun h => ∀ d ∈ [2, 3, 4, 5, 18], h.domainOn d = true) ∧
      (s.completes (.i3cPrivateWrite ⟨[0x60, 0x01], true⟩) [.power, .red, .dcn] fun h =>
        ∀ d ∈ [2, 3, 4, 5, 18], h.domainOn d = true)) ∧
    (s.hub.i3c.imagePt + 1000000 ≤ s.hub.pt → s.completes .imageSnapshot [.i3c] fun h =>
      h.i3c.image = s.hub.imageBytes ∧ h.i3c.imagePt = s.hub.pt ∧
      (s.hub.i3c.ibiEnabled = true → s.hub.ibiByte ≠ s.hub.i3c.ibiSeen → h.i3c.ibi = some s.hub.ibiByte) ∧
      (s.hub.ibiByte = s.hub.i3c.ibiSeen → h.i3c.ibi = s.hub.i3c.ibi)) ∧
    (∀ b, s.hub.i3c.ibi = some b → s.completes .ibiAccepted [.i3c, .out] fun h =>
      h.i3c = { s.hub.i3c with ibi := none } ∧ h.out = s.hub.out ++ [.ibi b])) ∧
  (∀ (s : State) (low high event : Nat),
    (s.hub.power.startUp = .ready → s.hub.edgeCounts low high = true → s.hub.edgeEarly = false →
      (s.completes (.podTrigInEdge low high) [.trig, .dcn, .agents, .stops, .trace, .arrays, .red, .out] fun h =>
        h.trig.inCount = s.hub.trig.inCount + 1 ∧ h.trig.inPt = s.hub.pt ∧
        (s.hub.trig.inCtrl.getLsbD 3 = true → s.hub.asleep = false → s.hub.canIssue = true → s.hub.inBlankOrTest = false →
          h.trig.inDenied = sat32 (s.hub.trig.inDenied + 1) ∧ h.stops = s.hub.stops)) ∧
      (s.hub.asleep = true ∨ s.hub.trig.inCtrl = 0 → s.completes (.podTrigInEdge low high) [.trig] fun h =>
        h.trig = { s.hub.trig with inCount := s.hub.trig.inCount + 1, inPt := s.hub.pt })) ∧
    (s.hub.power.startUp = .ready → s.hub.edgeCounts low high = true → s.hub.edgeEarly = true →
      s.completes (.podTrigInEdge low high) [.trig] fun h =>
        h.trig = { s.hub.trig with inOverrun := sat32 (s.hub.trig.inOverrun + 1) }) ∧
    (s.hub.power.startUp ≠ .ready ∨ s.hub.edgeCounts low high = false →
      s.completes (.podTrigInEdge low high) [] fun _ => True) ∧
    (s.hub.eventNow event = true → s.hub.trig.outCtrl.getLsbD event = true → s.hub.power.startUp = .ready → s.hub.asleep = false →
      (s.hub.trigOutHigh = false → s.completes (.podTrigOutPulse event) [.trig, .out] fun h =>
        h.trig.outUntil = s.hub.pt + 100 ∧ h.trig.outCount = sat32 (s.hub.trig.outCount + 1) ∧ h.out = s.hub.out ++ [.pulse]) ∧
      (s.hub.trigOutHigh = true → s.completes (.podTrigOutPulse event) [.trig] fun h =>
        h.trig = { s.hub.trig with outUntil := s.hub.pt + 100 })) ∧
    (s.hub.eventNow event = false ∨ s.hub.trig.outCtrl.getLsbD event = false ∨ s.hub.power.startUp ≠ .ready ∨ s.hub.asleep = true →
      s.completes (.podTrigOutPulse event) [] fun _ => True))

/-- FAULT_CONFIG sets N, W, reaction and taint of each source it lists, of a fixed source the taint alone, and empties
its event times, and leaves every other source. A reserved number, a reaction that is not allowed (of a fixed source
any but 4) and a value out of range are BAD_ARG, and leave all as they were. FC_CFG takes a write of a source's
word, of a fixed source the taint bit alone; a reserved number takes nothing. Whatever is written, N lies from 1 to
16, WEXP from 10 to 42, and for a reaction that is not allowed notify is performed (R310, Table 13-9). -/
def Obligations.FaultSourcesAreConfigured : Prop :=
  (∀ (e : FaultEntry), entryFault e = none ↔ ∃ r, sourceRow e.source.toNat = some r ∧ e.taint.toNat ≤ 1 ∧
    if r.fixed then e.reaction = 4
    else e.nM1.toNat ≤ 15 ∧ 10 ≤ e.wexp.toNat ∧ e.wexp.toNat ≤ 42 ∧ e.reaction.toNat ∈ r.allowed) ∧
  (∀ (o : Nat) (l : List FaultEntry), entriesFault o l = none ↔ ∀ e ∈ l, entryFault e = none) ∧
  (∀ (f : Fc) (x : Nat) (r : SourceRow), sourceRow x = some r → let w := f.cfg x
    1 ≤ cfgN w ∧ cfgN w ≤ 16 ∧ 10 ≤ cfgWexp w ∧ cfgWexp w ≤ 42 ∧
    cfgReaction r w = if bits w.toNat 12 10 ∈ r.allowed then bits w.toNat 12 10 else 1) ∧
  (∀ (f : Fc) (e : FaultEntry) (r : SourceRow), sourceRow e.source.toNat = some r → entryFault e = none →
    (f.configure e).cfg e.source.toNat = if r.fixed then cfgWord 0 10 4 (e.taint == 1)
      else cfgWord e.nM1.toNat e.wexp.toNat e.reaction.toNat (e.taint == 1)) ∧
  (∀ (f : Fc) (e : FaultEntry) (x : Nat), entryFault e = none →
    (f.configure e).source x = if x = e.source.toNat
      then { f.source x with cfg := some (cfgWord e.nM1.toNat e.wexp.toNat e.reaction.toNat (e.taint == 1)), times := [] }
      else f.source x) ∧
  (∀ (s : State) (hdr : Hdr) (l : List FaultEntry), s.hub.admits 0x0900 hdr = true → l.length ≤ 511 →
    (entriesFault 2 l = none → s.answers (.faultConfig hdr l) 0x0900 hdr [.fc] [] fun h =>
      h.fc = l.foldl Fc.configure s.hub.fc) ∧
    (∀ o, entriesFault 2 l = some o → s.refuses (.faultConfig hdr l) 0x0900 hdr .badArg (badArgBody o 0))) ∧
  (∀ (s : State) (x : Nat) (v : W32) (r : SourceRow), sourceRow x = some r → s.completes (.fcCfgWrite x v) [.fc] fun h =>
    h.fc.cfg x = (if r.fixed then cfgWord 0 10 4 (v.getLsbD 13) else v &&& 0x3FFF) ∧
      ∀ y, y ≠ x → h.fc.source y = s.hub.fc.source y) ∧
  (∀ (s : State) (x : Nat) (v : W32), sourceRow x = none → s.completes (.fcCfgWrite x v) [] fun _ => True)

/-- Every event of a source is counted. Outside the safe state, an event that no reaction window holds and no data-path
record merges joins the times of the last N; fewer than N of them, or N within no W, open no record; N within W
empty the times, and, for a reaction other than none, add a repeat to the unread record there is, or open one with
the next RECORD_SEQ: for notify, Handling and unread. In a window, or merged, an event opens none. A change of what
an I3C target shows raises an IBI (R48, R311 to R314, Table 13-2). In a life-cycle state that performs it, a record
whose reaction is retire unit discards the command that executes and opens the reaction window. It retires a present
unit that runs: the bit in the map, the drop on the unit, and its power off; of a Stopped unit the retirement is
pending; of one that is Absent, or of a class that cannot be retired, Handling ends at once (log entry 89). One
whose reaction is hang-stop declares a hang of cause 5 and issues a chip stop for 250 ns on, or for the earliest
instant where that is later, and its drop is left pending; with the whole chip stopped already it issues none, and
Handling ends (R150, R318 to R321, Table 13-4). -/
def Obligations.EventsBecomeRecords : Prop :=
  (∀ (s : State) (src : Nat) (u : UnitId) (data : W32) (r : SourceRow) (origin : Option Nat), sourceRow src = some r →
    r.fixed = false → s.hub.fc.safe = false →
    let i := Instr.faultEvent src u data origin
    let n := cfgN (s.hub.fc.cfg src)
    let all := (s.hub.fc.source src).times ++ [s.hub.pt]
    let times := all.drop (all.length - n)
    let severe := times.length = n ∧ s.hub.pt - times.headD s.hub.pt < 2 ^ cfgWexp (s.hub.fc.cfg src)
    let react := cfgReaction r (s.hub.fc.cfg src)
    (s.hub.fc.windowFor s.hub.pt src = none → (r.dataPath = true → s.hub.fc.oldestHandling = none) →
      (¬ severe → s.completes i [.fc, .i3c] fun h =>
        s.hub.counted h src ∧ h.fc.records = s.hub.fc.records ∧ (h.fc.source src).times = times) ∧
      (severe → react = 0 → s.completes i [.fc, .i3c] fun h =>
        s.hub.counted h src ∧ h.fc.records = s.hub.fc.records ∧ (h.fc.source src).times = []) ∧
      (severe → react = 1 → (∀ q ∈ s.hub.fc.all, q.source = src → q.read = true) → s.hub.fc.slotFor.isSome = true →
        s.completes i [.fc, .i3c] fun h => s.hub.counted h src ∧ (h.fc.source src).times = [] ∧
          h.fc.nextSeq = s.hub.fc.nextSeq + 1 ∧ ∃ q ∈ h.fc.records, q.seq = s.hub.fc.nextSeq ∧ q.source = src ∧ q.unit = u ∧
            q.data = data ∧ q.performed = 1 ∧ q.handling = true ∧ q.read = false ∧ q.firstPt = times.headD s.hub.pt ∧
            q.severePt = s.hub.pt) ∧
      (severe → 2 ≤ react → (∀ q ∈ s.hub.fc.all, q.source = src → q.read = true) → s.hub.fc.slotFor.isSome = true →
        s.completes i faultBlocks fun h => s.hub.counted h src ∧ (h.fc.source src).times = [] ∧
          h.fc.nextSeq = s.hub.fc.nextSeq + 1 ∧ ∃ q, (q ∈ h.fc.records ∨ h.fc.safeRecord = some q) ∧
            q.seq = s.hub.fc.nextSeq ∧ q.source = src ∧ q.unit = u ∧ q.data = data ∧
            q.performed = s.hub.performed react) ∧
      (severe → react ≠ 0 → (∃ q ∈ s.hub.fc.all, q.source = src ∧ q.read = false) →
        s.completes i [.fc, .i3c] fun h => s.hub.counted h src ∧ h.fc.nextSeq = s.hub.fc.nextSeq ∧
          h.fc.records = s.hub.fc.records.map fun q =>
            if q.source = src ∧ q.read = false then { q with repeats := sat16 (q.repeats + 1) } else q)) ∧
    (s.hub.fc.windowFor s.hub.pt src ≠ none ∨ (r.dataPath = true ∧ s.hub.fc.oldestHandling ≠ none) →
      s.completes i [.fc, .i3c] fun h => s.hub.counted h src ∧ h.fc.nextSeq = s.hub.fc.nextSeq ∧
        (h.fc.source src).times = (s.hub.fc.source src).times ∧ h.fc.records.length = s.hub.fc.records.length) ∧
    (∀ t, exec i s = .next t → t.hub.ibiByte ≠ s.hub.i3c.ibiSeen → t.hub.i3c.ibiEnabled = true →
      t.hub.i3c.ibi = some t.hub.ibiByte)) ∧
  (∀ (s : State) (src : Nat) (u : UnitId) (data : W32) (r : SourceRow) (origin : Option Nat), sourceRow src = some r →
    r.fixed = false → s.hub.fc.safe = false → s.hub.lcNat < 3 → s.hub.fc.windowFor s.hub.pt src = none →
    (r.dataPath = true → s.hub.fc.oldestHandling = none) → (∀ q ∈ s.hub.fc.all, q.source = src → q.read = true) →
    s.hub.fc.slotFor.isSome = true →
    let i := Instr.faultEvent src u data origin
    let w := s.hub.fc.cfg src
    let all := (s.hub.fc.source src).times ++ [s.hub.pt]
    let times := all.drop (all.length - cfgN w)
    let seq := s.hub.fc.nextSeq
    let reacts (hangStop : Bool) (h : Hub) : Prop := h.slot = none ∧
      ∃ x ∈ h.fc.windows, x.record = some seq ∧ x.unit = u ∧ x.hangStop = hangStop ∧ x.openPt = s.hub.pt
    let ended (h : Hub) : Prop := ∃ q ∈ h.fc.records, q.seq = seq ∧ q.handling = false ∧ q.done = true ∧ q.donePt = s.hub.pt
    let present := retirable u = true ∧ (s.hub.presence u = 0 ∨ s.hub.presence u = 3)
    let T := max (s.hub.pt + 250) (s.hub.stopIssueAt + 200)
    times.length = cfgN w → s.hub.pt - times.headD s.hub.pt < 2 ^ cfgWexp w →
    (cfgReaction r w = 2 →
      (present → (s.hub.agent u).state ≠ .stopped → s.completes i faultBlocks fun h => reacts false h ∧
        h.retired u = true ∧ h.ident.retiredGen = s.hub.ident.retiredGen + 1 ∧ Out.unitPower u false ∈ h.out ∧
        ∃ q ∈ h.fe.requests, q.req = .dropInflight ∧ q.units = [u]) ∧
      (present → (s.hub.agent u).state = .stopped → s.completes i faultBlocks fun h => reacts false h ∧
        h.ident = s.hub.ident ∧ u ∈ h.fc.pendingRetire ∧
        ∃ q ∈ h.fc.records, q.seq = seq ∧ q.handling = true ∧ q.pendingRet = true) ∧
      (¬ present → s.completes i faultBlocks fun h => reacts false h ∧ h.ident = s.hub.ident ∧ ended h)) ∧
    (cfgReaction r w = 3 →
      (s.hub.chipStopped = false → s.completes i faultBlocks fun h => reacts true h ∧
        h.stops.hangId = s.hub.stops.hangId + 1 ∧ h.stops.declared = true ∧ h.stops.stopId = s.hub.stops.stopId + 1 ∧
        h.stops.newest.map (fun n => (n.t, n.scope, n.cause)) = some (T, .chip, 5) ∧ h.stops.confirming = true ∧
        some seq ∈ h.fc.pendingDrops ∧
        (s.hub.rootOpen = true → ∃ b, Out.bcast b ∈ h.out ∧ b.cls = 0 ∧ b.scope = .chip ∧ b.instant = T)) ∧
      (s.hub.chipStopped = true → s.completes i faultBlocks fun h => reacts true h ∧ ended h ∧
        h.stops.hangId = s.hub.stops.hangId + 1 ∧ h.stops.declared = true ∧ h.stops.stopId = s.hub.stops.stopId ∧
        some seq ∈ h.fc.pendingDrops)))

/-- One event of a fixed source enters the safe state: its record in the slot of its own, every probe slot stopped, and
a SAFE broadcast from the DCN roots that have power (R323, Table 13-7). In the safe state an event is counted and
opens no record (Table 13-2). An uncorrectable error in Keystone state freezes the claim (Table 15-5). A supply
warning of a powered domain, which is no event again while it goes on; VDD_AO below its reset level; and an access
outside the regions as they were when it was issued, which is counted for its half: each one event of its source;
VDD_AO's enters the safe state (R56, R327, Table 13-1). -/
def Obligations.SevereSourcesAndMonitors : Prop :=
  (∀ (s : State) (src : Nat) (u : UnitId) (data : W32) (r : SourceRow) (origin : Option Nat), sourceRow src = some r →
    (r.fixed = true → s.hub.fc.safe = false → s.completes (.faultEvent src u data origin) faultBlocks fun h =>
      s.hub.counted h src ∧ h.fc.safe = true ∧ h.fc.safePt = s.hub.pt ∧
      h.fc.safeRecord.map (fun q => (q.slot, q.source, q.performed)) = some (64, src, 4) ∧
      (∀ p ∈ h.probe.slots, p.2.state.active = false) ∧ (src = 0xFBD → data = 2 → h.red.frozen = true) ∧
      (s.hub.dcnOn .west = true ∨ s.hub.dcnOn .east = true → ∃ b, Out.bcast b ∈ h.out ∧ b.cls = 7)) ∧
    (s.hub.fc.safe = true → s.completes (.faultEvent src u data origin) [.fc, .i3c, .red] fun h =>
      h.red = (if src = 0xFBD ∧ data = 2 then { s.hub.red with frozen := true } else s.hub.red) ∧
      s.hub.counted h src ∧ h.fc.safeEvents = sat32 (s.hub.fc.safeEvents + 1) ∧ h.fc.records = s.hub.fc.records ∧
      h.fc.safeRecord = s.hub.fc.safeRecord)) ∧
  (∀ (s : State),
    (∀ (d : Nat) (code : BitVec 10) (ns : Nat) (ongoing : Bool), 2 ≤ d → d ≤ 20 → s.hub.domainOn d = true → code.toNat < 705 →
      ((mapGet {} s.hub.power.excursions d).ongoing = false →
        s.completes (.supplyExcursion d code ns ongoing) faultBlocks fun h => s.hub.counted h (0xFA6 + d - 2) ∧
          (mapGet {} h.power.excursions d).ongoing = ongoing) ∧
      ((mapGet {} s.hub.power.excursions d).ongoing = true →
        s.completes (.supplyExcursion d code ns ongoing) [.power, .fc] fun h => h.fc.sources = s.hub.fc.sources ∧
          (mapGet {} h.power.excursions d).ongoing = ongoing)) ∧
    (∀ (code : BitVec 10) (ns : Nat) (ongoing : Bool), s.hub.domainOn 1 = true →
      code.toNat < 705 → (mapGet {} s.hub.power.excursions 1).ongoing = false →
      s.completes (.supplyExcursion 1 code ns ongoing) faultBlocks fun h =>
        s.hub.counted h 0xFA4 ∧ h.i3c.excursions = sat16 (s.hub.i3c.excursions + 1)) ∧
    (∀ code : BitVec 10, code.toNat < 675 → s.completes (.vddAoResetLevel code) faultBlocks fun h =>
      s.hub.counted h 0xFA5 ∧ h.fc.safe = true) ∧
    (∀ (k : Half) (a : W64) (n issued : Nat),
      (s.hub.inRegions a.toNat n issued = false →
        s.completes (.portConfinement k ⟨a, n, issued⟩) (faultBlocks ++ [.ctl]) fun h => s.hub.counted h (0xFBF + halfNat k) ∧
          h.ctl = match k with
            | .west => { s.hub.ctl with confineWest := sat32 (s.hub.ctl.confineWest + 1) }
            | .east => { s.hub.ctl with confineEast := sat32 (s.hub.ctl.confineEast + 1) }) ∧
      (s.hub.inRegions a.toNat n issued = true → s.completes (.portConfinement k ⟨a, n, issued⟩) [] fun _ => True)))

/-- FAULT_READ lists the records from FROM_SEQ; FAULT_ACK marks the listed ones read, leaves the others, and answers how
many stay unread; FAULT_HISTORY_READ answers the history; FAULT_INJECT is an event like any other, then OK, unless
its reaction discards it; a reserved source and a UNIT that is none are BAD_ARG (R314 to R317, R319). Handling of a
notify record ends 1 ms after it opened; a reaction window closes after its length; a monitor line's records read as
cleared once it has deasserted, another source's once W has passed without an event; the condition of a fixed source
is gone (R316, R321). -/
def Obligations.FaultRecordsAreReadAndAge : Prop :=
  (∀ (s : State) (hdr : Hdr) (from_ : W32) (max : Byte) (l : List W32),
    (s.hub.admits 0x0901 hdr = true → let r := s.hub.fc.all.filter fun r => decide (from_.toNat ≤ r.seq.toNat)
      s.answers (.faultRead hdr from_ max) 0x0901 hdr []
        ((if max = 0 then r else r.take max.toNat).flatMap FaultRec.bytes) fun _ => True) ∧
    (s.hub.admits 0x0902 hdr = true → ∃ n, s.answers (.faultAck hdr l) 0x0902 hdr [.fc, .i3c] (le 2 (sat16 n)) fun h =>
      h.fc.unread.length = n ∧ (∀ r ∈ h.fc.all, r.seq ∈ l → r.read = true) ∧
      (∀ r ∈ s.hub.fc.all, r.seq ∉ l → r ∈ h.fc.all) ∧ h.fc.sources = s.hub.fc.sources) ∧
    (s.hub.admits 0x0903 hdr = true →
      s.answers (.faultHistoryRead hdr) 0x0903 hdr [] s.hub.fc.historyBytes fun _ => True) ∧
    (s.hub.admits 0x0904 hdr = true → ∀ (src : W16) (u : UnitId) (d : W32),
      (sourceRow src.toNat = none → s.refuses (.faultInject hdr src u d) 0x0904 hdr .badArg (badArgBody 0 0)) ∧
      (∀ r, sourceRow src.toNat = some r → u ≠ 0 → unitValid u = false →
        s.refuses (.faultInject hdr src u d) 0x0904 hdr .badArg (badArgBody 2 0)) ∧
      (∀ r, sourceRow src.toNat = some r → (u = 0 ∨ unitValid u = true) →
        (s.completes (.faultInject hdr src u d) (icpBlocks ++ faultBlocks) fun h => s.hub.counted h src.toNat ∧ h.slot = none) ∧
        (r.fixed = false → cfgReaction r (s.hub.fc.cfg src.toNat) ≤ 1 →
          s.answers (.faultInject hdr src u d) 0x0904 hdr [.fc, .i3c, .slot] [] fun h =>
            s.hub.counted h src.toNat ∧ h.slot = none)))) ∧
  (∀ (s : State) (q : W32) (src : Nat),
    (∀ r, s.hub.fc.all.find? (fun x => x.seq == q) = some r → r.performed = 1 → r.handling = true →
      r.severePt + 1000000 ≤ s.hub.pt → s.completes (.notifyTimeout q) [.fc] fun h =>
        (∀ x ∈ h.fc.all, x.seq = q → x.handling = false) ∧ h.fc.all.length = s.hub.fc.all.length) ∧
    (s.completes .reactionWindowClose [.fc] fun h =>
      ∀ w, w ∈ h.fc.windows ↔ w ∈ s.hub.fc.windows ∧ s.hub.pt < w.openPt + w.lengthNs) ∧
    (lineSource src = true → src ≠ 0xFA5 → src ∉ s.hub.fc.linesHigh → s.completes (.faultCleared src) [.fc] fun h =>
      (∀ r ∈ h.fc.records, r.source = src → r.cleared = true) ∧ h.fc.sources = s.hub.fc.sources) ∧
    (src ∈ [0xFA5, 0xFBD, 0xFBE] → s.completes (.faultCleared src) [.fc] fun h =>
      src ∉ h.fc.fixedPresent ∧ (∀ x, x ≠ src → (x ∈ h.fc.fixedPresent ↔ x ∈ s.hub.fc.fixedPresent))) ∧
    (lineSource src = false → src ∉ [0xFBD, 0xFBE] → s.completes (.faultCleared src) [.fc] fun h => ∀ r ∈ h.fc.records, r.source = src →
      max r.severePt (s.hub.fc.source src).lastPt + 2 ^ r.wexp ≤ s.hub.pt → r.cleared = true))

/-- TAINT_DEST_SET sets the destinations; the chip's own among them is BAD_ARG; TAINT_EPOCH_SET starts an epoch now and
keeps the one before it. A pending notice goes once to every destination, or is held while there is none (R328 to
R330). UNIT_RETIRE of a present unit that runs sets its bit in the retired map, which counts once, drops its work
and asks for its power off; of a Stopped unit it is pending, and proceeds once the unit runs; of one that is off it
ends at once; of a unit that cannot be retired it is BAD_ARG (R28, R320). -/
def Obligations.TaintsGoOutAndUnitsRetire : Prop :=
  (∀ (s : State) (hdr : Hdr),
    (∀ l : List W16, s.hub.admits 0x0905 hdr = true → l.length ≤ 4 →
      ((s.hub.ident.assigned = true → s.hub.ident.chipId ∉ l) →
        s.answers (.taintDestSet hdr l) 0x0905 hdr [.fc] [] fun h => ∀ c, c ∈ h.fc.dests ↔ c ∈ l) ∧
      (s.hub.ident.assigned = true → s.hub.ident.chipId ∈ l → ∃ o,
        s.refuses (.taintDestSet hdr l) 0x0905 hdr .badArg (badArgBody o 0))) ∧
    (∀ e : W32, s.hub.admits 0x0906 hdr = true →
      s.answers (.taintEpochSet hdr e) 0x0906 hdr [.fc] (le 8 s.hub.pt) fun h =>
        h.fc = { s.hub.fc with epochPrev := s.hub.fc.epoch, epochPrevPt := s.hub.fc.epochPt, hasPrev := true,
                               epoch := e, epochPt := s.hub.pt }) ∧
    (∀ t, s.hub.fc.taints = [t] → s.hub.taintFree = true → s.hub.taintDue t = true → s.completes .taintSend [.fc, .out] fun h =>
      h.out = s.hub.out ++ s.hub.fc.dests.map (fun d => .taint d (s.hub.taintBytes t (s.hub.fc.noticeSeq + 1))) ∧
      h.fc.taints = [] ∧ h.fc.noticeSeq = s.hub.fc.noticeSeq + 1) ∧
    (s.hub.taintFree = false → s.completes .taintSend [.fc] fun h => h.fc.taints = [] ∧
      (s.hub.fc.heldTaints.length ≤ 16 →
        h.fc.heldTaints.length = min 16 (s.hub.fc.heldTaints.length + s.hub.fc.taints.length)))) ∧
  (∀ (s : State) (hdr : Hdr) (u : UnitId),
    (s.hub.admits 0x0907 hdr = true → retirable u = false →
      s.refuses (.unitRetire hdr u) 0x0907 hdr .badArg (badArgBody 0 0)) ∧
    (retirable u = true → s.hub.retired u = false →
    (s.hub.admits 0x0907 hdr = true → s.hub.presence u = 0 ∨ s.hub.presence u = 3 → (s.hub.agent u).state ≠ .stopped → u ∉ s.hub.fc.pendingRetire →
      s.completes (.unitRetire hdr u) (icpBlocks ++ [.ident, .fc, .fe, .slot]) fun h => h.retired u = true ∧
        h.ident.retiredGen = s.hub.ident.retiredGen + 1 ∧ Out.unitPower u false ∈ h.out ∧
        (h.slot.map (·.prog)) = some (.retire u)) ∧
    (s.hub.admits 0x0907 hdr = true → s.hub.presence u = 2 →
      s.completes (.unitRetire hdr u) (icpBlocks ++ [.fc]) fun h =>
        s.hub.replied h 0x0907 hdr .ok (le 4 s.hub.ident.retiredGen.toNat ++ [0])) ∧
    (s.hub.admits 0x0907 hdr = true → s.hub.presence u = 0 ∨ s.hub.presence u = 3 → (s.hub.agent u).state = .stopped →
      s.completes (.unitRetire hdr u) (icpBlocks ++ [.fc]) fun h => u ∈ h.fc.pendingRetire ∧ h.ident = s.hub.ident ∧
        s.hub.replied h 0x0907 hdr .ok (le 4 s.hub.ident.retiredGen.toNat ++ [1])) ∧
    (u ∈ s.hub.fc.pendingRetire → (s.hub.agent u).state = .running →
      s.completes (.pendingRetirement u) [.ident, .port, .tap, .fc, .fe, .red, .slot, .out] fun h => h.retired u = true ∧
        u ∉ h.fc.pendingRetire ∧ h.ident.retiredGen = s.hub.ident.retiredGen + 1)))

/-- On a link that runs, with no NAK due against the flits that wait there, the next flit of a direction goes: a new one
takes the next sequence number and stays for replay, one sent again does not. A good one that is next in order is
taken, and ends a run of CRC failures; one that fails its CRC is not taken, makes a NAK due where it is the next in
order, and is counted as an event of the half's source; a head that no packet type has is a protocol error, and
every later flit of its packet is discarded with it. Other links stay up or down (R88 to R92, R94). A good link-
control flit tells the other direction's transmitter what was received: with all acknowledged the replay buffer is
empty, a NAK has what is left sent again, credits come back, and the NAK that was due has been told; a bad one is a
CRC failure and tells nothing. A link that is silent for 1 us (before the first flit since its domain powered on, 10
us later, log entry 143) or fails thrice goes down, which its node reports and which is one event; DOWN counts the
links that are down. A retrain 100 us later brings it up, with the latches that are free at its ends, or is tried
again (R89 to R92, R119). -/
def Obligations.LinksCarryFlits : Prop :=
  (∀ (s : State) (n : LinkName) (d : Dir) (f : Flit), s.hub.linkRuns n = true → flitLane f ≠ 0 →
    ((s.hub.link n).dir (oppositeDir d)).nakDue = false →
    let e := (s.hub.link n).dir d
    let k := s.hub.linkHalf n
    (s.hub.nextFlit (n, d) = none → s.completes (.flitReceived n d f) [] fun _ => True) ∧
    (∀ x, s.hub.nextFlit (n, d) = some x →
      let sent := fun (h : Hub) => let e' := (h.link n).dir d
        (∀ m, (h.link m).up = (s.hub.link m).up) ∧
        (∀ c, x = .again c → e'.txSeq = e.txSeq ∧ e'.replay = e.replay ∧ e'.resend = e.resend - 1) ∧
        ((∀ c, x ≠ .again c) → e'.txSeq = e.txSeq + 1 ∧ e'.replay = e.replay ++ [x.cell])
      let good := headGood (flitLane f) (e.headOf x.cell f)
      (flitGood f = true → e.nextSeq = e.rxSeq + 1 → good = true → s.completes (.flitReceived n d f) [.dcn] fun h =>
        sent h ∧ ((h.link n).dir d).rxSeq = e.nextSeq ∧ ((h.link n).dir d).crcRun = 0) ∧
      (flitGood f = true → e.nextSeq = e.rxSeq + 1 → good = false → x.cell.index = 0 →
        s.completes (.flitReceived n d f) faultBlocks fun h =>
          sent h ∧ ((h.link n).dir d).rxSeq = e.nextSeq ∧ s.hub.counted h (0xFC6 + halfNat k) ∧
          (h.dcn.half k).proto = sat32 ((s.hub.dcn.half k).proto + 1)) ∧
      (flitGood f = true → e.nextSeq = e.rxSeq + 1 → good = false → x.cell.index ≠ 0 →
        s.completes (.flitReceived n d f) [.dcn] fun h => sent h ∧ ((h.link n).dir d).rxSeq = e.nextSeq ∧
          ((h.link n).dir d).ctl = e.ctl ∧ ((h.link n).dir d).bulk = e.bulk ∧ ((h.link n).dir d).bcast = e.bcast) ∧
      (flitGood f = true → e.nextSeq ≠ e.rxSeq + 1 → s.completes (.flitReceived n d f) [.dcn] fun h =>
        sent h ∧ ((h.link n).dir d).rxSeq = e.rxSeq) ∧
      (flitGood f = false → s.completes (.flitReceived n d f) faultBlocks fun h =>
        sent h ∧ ((h.link n).dir d).rxSeq = e.rxSeq ∧
        (e.nextSeq = e.rxSeq + 1 → ((h.link n).dir d).nakDue = true ∧ ((h.link n).dir d).crcRun = e.crcRun + 1) ∧
        s.hub.counted h (0xFC2 + halfNat k) ∧ (h.dcn.half k).crc = sat32 ((s.hub.dcn.half k).crc + 1)))) ∧
  (∀ (s : State) (n : LinkName), linkExists n = true → s.hub.linkPowered n = true → let k := s.hub.linkHalf n
    (∀ d f, (s.hub.link n).up = true → flitLane f = 0 →
      let e := (s.hub.link n).dir (oppositeDir d)
      let v := f.data.toNat
      (flitGood f = true → s.completes (.linkControlFlit n d f) [.dcn] fun h => let e' := (h.link n).dir (oppositeDir d)
        ((h.link n).dir d).ctlPt = s.hub.pt ∧ e'.txSeq = e.txSeq ∧
        (bits v 63 58 = e.txSeq.toNat → e'.replay = []) ∧ (bit v 57 = true → e'.resend = e'.replay.length) ∧
        e'.ctlCredit = min 8 (e.ctlCredit + bits v 56 53) ∧ e'.bulkCredit = min 16 (e.bulkCredit + bits v 52 47) ∧
        e'.nakDue = false ∧ ∀ m, m ≠ n → h.link m = s.hub.link m) ∧
      (flitGood f = false → s.completes (.linkControlFlit n d f) faultBlocks fun h =>
        (∀ x, (h.link n).dir x = (s.hub.link n).dir x) ∧ s.hub.counted h (0xFC2 + halfNat k))) ∧
    (∀ c, (s.hub.link n).up = true → (s.hub.link n).fails c (s.hub.linkOnPt n) s.hub.pt = true →
      s.completes (.linkDown n c) faultBlocks fun h => (h.link n).up = false ∧ s.hub.counted h (0xFC4 + halfNat k) ∧
        ((∀ l ∈ s.hub.dcn.links, l.1 = n → l.2.up = true) → h.linksDown k = s.hub.linksDown k + 1) ∧
        ((s.hub.nodeQueue (s.hub.reporter n)).notices.length < 8 →
          ∃ x ∈ (h.nodeQueue (s.hub.reporter n)).notices, x.link = some (n, false))) ∧
    ((s.hub.link n).up = false → (s.hub.link n).downPt + 100000 ≤ s.hub.pt →
      (s.completes (.linkRetrain n true) [.dcn] fun h => (h.link n).up = true ∧
        (h.link n).downward = { ctlPt := s.hub.pt, latchFree := BitVec.ofNat 8 (s.hub.latchesFree (n, .down)) } ∧
        (h.link n).upward = { ctlPt := s.hub.pt, latchFree := BitVec.ofNat 8 (s.hub.latchesFree (n, .up)) }) ∧
      (s.completes (.linkRetrain n false) [.dcn] fun h => (h.link n).up = false ∧ (h.link n).downPt = s.hub.pt)))

/-- An agent receives a COLLECT whose SEQ it accepts, notes the SEQ, and answers once: at receipt where INSTANT is 0 or
past, else at INSTANT. The answer is its value with COUNT 1 where it lay in scope at receipt and has the quantity,
else the identity with COUNT 0, as it is for a queue snapshot older than the unit's partition that an Observer
aggregates (R263); it goes to its bay; no other agent changes (R103, R107 to R109). A node joins a child's COMBINE
to what it has, the other root's last; when the last expected one is in, or its time is over, it frees its slot and
passes the result on, to its parent, or as the root's result; what is missing is counted; what comes later is
counted as late. The root's result goes to its issuer (R107, R110, R111). The operators of Table 4-7 (R107): AND and
OR join bit by bit over 64 bits; ADD adds modulo 2 to the 64 and reports a carry out in WRAP; WADD320 adds modulo 2
to the 320; MAXU and MINU take the greater and the lesser operand without sign, MAXS and MINS with it. COUNT and
MISSING add and WRAP is ORed under every operator. The identity of each leaves the other operand as it is, and the
order in which the nodes reduce makes no difference. -/
def Obligations.CollectsAreReduced : Prop :=
  (∀ (s : State) (u : UnitId) (tag : Byte) (c : Combine), s.hub.combine tag = some c → c.issuer ≠ .multicast →
    (s.hub.agent u).powered = true → s.hub.retired u = false → s.hub.pathUp u = true → u ∉ c.answered → c.issuePt ≤ s.hub.pt →
    let ready := c.instant = 0 ∨ ((s.hub.agent u).replicaLoaded = true ∧ c.instant ≤ s.hub.pt)
    let answer := fun (a : Agent) (inSc : Bool) => s.completes (.collectReceived u tag) [.dcn, .agents] fun h =>
      let a' := if inSc = true ∧ 0x1000 ≤ c.quantity then a.postEdge ((c.quantity - 0x1000) / 16) c.instant else a
      let shown := inSc && !s.hub.hidesSnapshot c u
      ∃ c' b, h.combine tag = some c' ∧ c'.answered = c.answered ++ [u] ∧
        c'.ups = c.ups ++ [{ node := .bay (halfOf u) (attachPier u) (attachBay u), child := .agent u, body := b }] ∧
        h.agent u = a' ∧ s.hub.othersKeep h u ∧
        (∀ v, shown = true → a'.sample u s.hub.pt c.quantity = some v → b.value = v ∧ b.count = 1 ∧ b.missing = 0 ∧ b.wrap = false) ∧
        (shown = false ∨ a'.sample u s.hub.pt c.quantity = none → b = Reduced.none c.op)
    ((∀ x ∈ c.received, x.1 ≠ u) → (s.hub.agent u).takesSeq 5 c.seq = true →
      let r := s.hub.collectReceipt c u
      (ready → answer (r.1.agent u) ((s.hub.agent u).inScope u c.scope 5)) ∧
      (¬ ready → s.completes (.collectReceived u tag) [.dcn, .agents] fun h => ∃ c', h.combine tag = some c' ∧
        c'.received = c.received ++ [(u, (s.hub.agent u).inScope u c.scope 5)] ∧ c'.answered = c.answered ∧
        (h.agent u).seqOf 5 = some c.seq ∧ s.hub.othersKeep h u)) ∧
    ((∀ x ∈ c.received, x.1 ≠ u) → (s.hub.agent u).takesSeq 5 c.seq = false →
      s.completes (.collectReceived u tag) [] fun _ => True) ∧
    (∀ inSc, (c.received.find? fun x => x.1 == u) = some (u, inSc) →
      (ready → answer (s.hub.agent u) inSc) ∧ (¬ ready → s.completes (.collectReceived u tag) [] fun _ => True))) ∧
  (∀ (s : State) (tag : Byte) (c : Combine), s.hub.combine tag = some c →
    (∀ (n : Node) (ch : Child) (m : UpMsg) (rest : List UpMsg), c.ups = m :: rest → m.node = n → m.child = ch →
      s.hub.childUp ch = true →
      (∀ sl, (c.slots.find? fun x => x.node == n) = some sl →
        let all := match ch, sl.last with
          | .node (.root _), _ => sl.acc.join c.op m.body
          | _, none => sl.acc.join c.op m.body
          | _, some l => (sl.acc.join c.op m.body).join c.op l
        (sl.expected.all (fun e => e.1 == ch) = true →
          (s.hub.parent n = none → s.completes (.combineReceived n ch tag) [.dcn] fun h => ∃ c', h.combine tag = some c' ∧
            c'.result = some all ∧ c'.ups = rest ∧ c'.slots = c.slots.filter fun x => x.node != n) ∧
          (∀ p, s.hub.parent n = some p → s.completes (.combineReceived n ch tag) [.dcn] fun h => ∃ c',
            h.combine tag = some c' ∧ c'.result = c.result ∧ c'.ups = rest ++ [{ node := p, child := .node n, body := all }] ∧
            c'.slots = c.slots.filter fun x => x.node != n)) ∧
        (sl.expected.all (fun e => e.1 == ch) = false →
          s.completes (.combineReceived n ch tag) [.dcn] fun h => ∃ c' sl', h.combine tag = some c' ∧
            c'.result = c.result ∧ c'.ups = rest ∧ (c'.slots.find? fun x => x.node == n) = some sl' ∧
            sl'.expected = sl.expected.filter fun e => e.1 != ch)) ∧
      ((∀ sl ∈ c.slots, sl.node ≠ n) → s.completes (.combineReceived n ch tag) [.dcn] fun h =>
        (h.dcn.half (nodeHalf n)).late = sat32 ((s.hub.dcn.half (nodeHalf n)).late + 1) ∧
        (h.combine tag).map (·.result) = some c.result)) ∧
    (∀ (n : Node) (sl : NodeSlot), (c.slots.find? fun x => x.node == n) = some sl →
      max c.issuePt c.instant + 1000 * c.timeoutUs ≤ s.hub.pt →
      let r := match sl.last with | none => sl.acc | some l => sl.acc.join c.op l
      let r := { r with missing := r.missing + (sl.expected.map fun e => e.2).foldl (· + ·) 0 }
      (s.hub.parent n = none → s.completes (.combineTimeout n tag) [.dcn] fun h => ∃ c', h.combine tag = some c' ∧
        c'.result = some r ∧ c'.slots = c.slots.filter fun x => x.node != n) ∧
      (∀ p, s.hub.parent n = some p → s.completes (.combineTimeout n tag) [.dcn] fun h => ∃ c', h.combine tag = some c' ∧
        c'.ups = c.ups ++ [{ node := p, child := .node n, body := r }] ∧ c'.slots = c.slots.filter fun x => x.node != n)) ∧
    (∀ r, c.result = some r → c.issuer = .states → s.completes (.combineResult tag) [.dcn, .red, .out, .stops] fun h =>
      h.stops.newest.map (·.states) = (s.hub.stops.newest.map fun _ => some r) ∧
      (s.hub.dcn.collects = [] → h.combine tag = none))) ∧
  ((∀ (x y : Reduced), let a : W64 := x.value.setWidth 64
    let b : W64 := y.value.setWidth 64
    let signed := fun (op : Nat) => ((x.join op y).value.setWidth 64 : W64).toInt
    (∀ i, (x.join 0 y).value.getLsbD i = (a.getLsbD i && b.getLsbD i) ∧
      (x.join 1 y).value.getLsbD i = (a.getLsbD i || b.getLsbD i)) ∧
    (x.join 2 y).value.toNat = (a.toNat + b.toNat) % 2 ^ 64 ∧
    (x.join 3 y).value.toNat = (x.value.toNat + y.value.toNat) % 2 ^ 320 ∧
    (x.join 4 y).value.toNat = max a.toNat b.toNat ∧ (x.join 5 y).value.toNat = min a.toNat b.toNat ∧
    signed 6 = max a.toInt b.toInt ∧ signed 7 = min a.toInt b.toInt ∧
    (x.join 6 y).value.toNat < 2 ^ 64 ∧ (x.join 7 y).value.toNat < 2 ^ 64 ∧
    ∀ op, (x.join op y).count = x.count + y.count ∧ (x.join op y).missing = x.missing + y.missing ∧
      (x.join op y).wrap = (x.wrap || y.wrap || (decide (op = 2) && decide (2 ^ 64 ≤ a.toNat + b.toNat)))) ∧
  (∀ (op : Nat) (x : Reduced), op < 8 → op ≠ 3 → x.value = widen (x.value.setWidth 64) →
    (Reduced.none op).join op x = x) ∧
  (∀ (x : Reduced), (Reduced.none 3).join 3 x = x) ∧
  (∀ (op : Nat) (x y z : Reduced), op < 8 → op ≠ 2 → ((x.join op y).join op z) = (x.join op (y.join op z))) ∧
  (∀ (x y z : Reduced), ((x.join 2 y).join 2 z).value = (x.join 2 (y.join 2 z)).value ∧
    ((x.join 2 y).join 2 z).count = x.count + y.count + z.count))

/-- A LINK notice leaves its node once the node's path is up, and reaches the hub: after a link-down the routes are
computed, a bay that is cut off is adopted where an adopter exists, and every powered agent that stays cut off
becomes Unreachable; after a link-up nothing but the notice moves. An OVERFLOW that stands first leaves too. With
its link up again a bay returns to its own path (R92, R115, R116, R121, R129). An access unanswered for 2 us is
tried again once with a fresh TAG; the second time it is reported UNREACHABLE and its unit becomes Unreachable
(R113, R121); a unit retired in the meantime is sent nothing and is not made Unreachable (R30). The hub sends ENUM
to an Unreachable agent whose path is up, every 100 us: the answer of the unit itself makes it reachable again, and
the hub reads its STATE; any other Unit ID is a protocol error of the half. After a multicast's combine, each agent
that has not taken the data gets it by unicast; an agent that the hub cannot reach is reported; the multicast then
ends (R118, R121, R122). -/
def Obligations.RoutesAndUnansweredAccesses : Prop :=
  (∀ (s : State) (n : LinkName),
    (∀ x rest, (s.hub.nodeQueue (s.hub.reporter n)).notices = x :: rest → s.hub.nodeUp (s.hub.reporter n) = true →
      (x.link = some (n, false) → s.completes (.linkNotice n) faultBlocks fun h =>
        ((s.hub.nodeQueue (s.hub.reporter n)).lost = 0 → (h.nodeQueue (s.hub.reporter n)).notices = rest) ∧
        (∀ p ∈ h.agents, p.2.powered = true → h.linksUp (unitOf p.1) = false → p.2.unreachable = true) ∧
        (∀ b ∈ allBays, s.hub.ownPath b.1 b.2.1 b.2.2 = false →
          (h.dcn.adopted.find? fun a => a.1 == b).map (·.2) = s.hub.adopter b.1 b.2.1 b.2.2)) ∧
      (x.link = some (n, true) → s.completes (.linkNotice n) [.dcn] fun h =>
        ((s.hub.nodeQueue (s.hub.reporter n)).lost = 0 → (h.nodeQueue (s.hub.reporter n)).notices = rest) ∧
        h.dcn.adopted = s.hub.dcn.adopted ∧ h.dcn.links = s.hub.dcn.links) ∧
      (x.link = none → rest = [] → (s.hub.nodeQueue (s.hub.reporter n)).lost = 0 →
        s.completes (.linkNotice n) [.dcn] fun h => (h.nodeQueue (s.hub.reporter n)).notices = [] ∧
          ∃ y ∈ h.dcn.sources, y.1 = .node (s.hub.reporter n) ∧ ∀ c ∈ x.notice.pkt.cells, c ∈ y.2)) ∧
    (s.hub.nodeUp (s.hub.reporter n) = false → s.completes (.linkNotice n) [] fun _ => True) ∧
    ((s.hub.link n).up = true → s.completes (.routeRestore n) [.dcn] fun h =>
      ∀ a, a ∈ h.dcn.adopted ↔ a ∈ s.hub.dcn.adopted ∧ s.hub.ownPath a.1.1 a.1.2.1 a.1.2.2 = false)) ∧
  (∀ (s : State) (tag : Byte) (t : Txn), (s.hub.dcn.txns.find? fun x => x.tag == tag) = some t →
    (s.hub.pt < t.sentPt + 2000 → s.completes (.accessTimeout tag) [] fun _ => True) ∧
    (t.sentPt + 2000 ≤ s.hub.pt → t.tries < 2 → s.hub.retired t.unit = false → s.hub.answers t.unit = false →
      s.hub.dcn.txnWait = [] → s.hub.dcn.txns.length ≤ maxTxns →
      s.completes (.accessTimeout tag) [.dcn, .red, .out] fun h =>
        ∃ x ∈ h.dcn.txns, x.unit = t.request.unit ∧ x.tries = 2 ∧ x.sentPt = s.hub.pt ∧ x.request = { t.request with tag := x.tag }) ∧
    (∀ (e : Exec) (i : Instr), t.sentPt + 2000 ≤ s.hub.pt → 2 ≤ t.tries ∨ s.hub.retired t.unit = true →
      s.hub.slot = some e → e.prog = .access t.unit i → e.mute = false → e.transport = s.hub.transport →
      (s.hub.agent t.unit).powered = true →
      s.completes (.accessTimeout tag) [.port, .tap, .red, .dcn, .agents, .slot, .out] fun h =>
        (s.hub.retired t.unit = false → (h.agent t.unit).unreachable = true) ∧ s.hub.othersKeep h t.unit ∧
        (s.hub.retired t.unit = true → h.agents = s.hub.agents) ∧
        h.slot = none ∧ s.hub.replied h e.opcode.toNat e.hdr .unreachable (unitsBody [t.unit]))) ∧
  (∀ (s : State) (u : UnitId),
    (s.hub.presence u = 3 → s.hub.pathUp u = true → s.hub.enumDue u = false →
      ∀ a, s.completes (.enumProbe u a) [] fun _ => True) ∧
    (s.hub.presence u = 3 → s.hub.pathUp u = true → s.hub.enumDue u = true →
      (s.completes (.enumProbe u (some u)) [.dcn, .agents, .red, .out] fun h =>
        h.agent u = { s.hub.agent u with unreachable := false } ∧ s.hub.othersKeep h u ∧
        mapGet none h.dcn.known (ordinalOf u) = some (s.hub.agent u).state ∧ h.enumDue u = false ∧
        (s.hub.rootOpen = true → ∃ y ∈ h.dcn.sources, y.1 = .node (.root s.hub.red.holder) ∧
          ∀ c ∈ (enumPkt u (s.hub.dcn.freeTag s.hub.pt)).cells, c ∈ y.2)) ∧
      (∀ v, v ≠ u → s.completes (.enumProbe u (some v)) faultBlocks fun h =>
        s.hub.counted h (0xFC6 + halfNat (halfOf u)) ∧
        (h.dcn.half (halfOf u)).proto = sat32 ((s.hub.dcn.half (halfOf u)).proto + 1)) ∧
      (s.completes (.enumProbe u none) [.dcn, .red, .out] fun h => h.enumDue u = false)) ∧
    (∀ (tag : Byte) (m : Mcast), s.hub.dcn.mcasts = [m] → m.tag = tag → m.combined = true → m.sent = false →
      let left := m.addressed.filter fun v => !m.took.contains v
      ((∀ v ∈ left, s.hub.answers v = false ∧ s.hub.silent v = false) → s.completes (.multicastComplete tag) [.dcn, .out] fun h =>
        h.dcn.mcasts = [] ∧ h.out = s.hub.out ++ [.multicast tag left]) ∧
      (∀ p, left = [u] → m.packets = [p] → s.hub.answers u = true → (s.hub.agent u).applyUntil ≤ s.hub.pt →
        s.completes (.multicastComplete tag) [.dcn, .agents, .out] fun h =>
          h.agents = (s.hub.bulkWrite u (8 * p.1) (bulkBytes p.2)).2.agents ∧ h.dcn.mcasts = [] ∧
          .multicast tag [] ∈ h.out) ∧
      (left = [u] → s.hub.silent u = true → s.hub.dcn.txns.length < maxTxns →
        s.completes (.multicastComplete tag) [.dcn, .red, .out] fun h => (∃ m' ∈ h.dcn.mcasts, m'.sent = true ∧ m'.waiting = [u]) ∧
          ∃ x ∈ h.dcn.txns, x.unit = u ∧ x.tries = 1 ∧ x.sentPt = s.hub.pt)))

/-- A REG_RD or REG_WR that reaches an agent is answered with its TAG; so are bulk accesses of 1 to 32 words; while the
agent is powering down the answer is POWERING, and a bulk read's has one word of zero. A staging write while a
COMMIT is being applied waits. A packet of a multicast that addresses the agent is taken, and with its last one the
agent has the whole, or the multicast is refused as a whole by an agent that applies a COMMIT or is Stopping; none
is answered (R113, R114, R117, R126, R127, Table 5-17). Writes of the window's own registers: WDOG_STATUS clears the
expired flags written 1 and restarts them; WDOG_LIMIT sets a limit, and what is overdue under it expires at once;
CLEAR empties the queue statistics; AGENT_CTRL sets ARM_MASK and SHADOW_KEEP (R123, R140, R141, R245, R250). -/
def Obligations.AgentsAnswerAndTakeWrites : Prop :=
  (∀ (s : State) (u : UnitId) (tag : Byte), s.hub.reaches u = true →
    let answers := fun (i : Instr) (bs : List Block) (o : Out) (q : Hub → Prop) =>
      (∃ t, exec i s = .next t ∧ t.pending = s.pending ∧ t.mem = s.mem ∧ o ∈ t.hub.out) ∧
      ((s.hub.dcn.txns.any fun t => t.tag == tag && t.unit == u) = false → s.completes i ([.dcn, .out] ++ bs) fun h =>
        h.out = s.hub.out ++ [o] ∧ q h)
    let on := (s.hub.agent u).powering = false
    let off := (s.hub.agent u).powering = true
    (∀ (o : BitVec 10) (v : W32),
      (on → let r := (s.hub.agent u).readReg u s.hub.pt (4 * o.toNat)
        answers (.regAccess u tag false o v) [.agents] (.regRsp u tag r.1.code r.2.1) fun h =>
          h.agent u = r.2.2 ∧ s.hub.othersKeep h u) ∧
      (off → ∀ w, answers (.regAccess u tag w o v) [] (.regRsp u tag 2 0) fun _ => True) ∧
      (on → let r := s.hub.writeReg u (4 * o.toNat) v
        (∃ t, exec (.regAccess u tag true o v) s = .next t ∧ t.pending = s.pending ∧ t.mem = s.mem ∧
          Out.regRsp u tag r.1.code 0 ∈ t.hub.out) ∧
        ((s.hub.dcn.txns.any fun t => t.tag == tag && t.unit == u) = false →
          s.completes (.regAccess u tag true o v) [.dcn, .agents, .arrays, .out] fun h => h.agents = r.2.agents))) ∧
    (∀ (a : BitVec 17) (n : Nat), 1 ≤ n → n ≤ 32 →
      (on → let r := s.hub.bulkRead u (8 * a.toNat) (8 * n)
        answers (.bulkRead u tag a n) [.agents] (.bulkData u tag r.1.code (words64 r.2.1)) fun h => h.agents = r.2.2.agents) ∧
      (off → answers (.bulkRead u tag a n) [] (.bulkData u tag 2 [0]) fun _ => True)) ∧
    (∀ (a : BitVec 17) (data : List W64), 1 ≤ data.length → data.length ≤ 32 →
      let staging := 0x18000 ≤ 8 * a.toNat ∧ 8 * a.toNat < 0x19000
      let r := s.hub.bulkWrite u (8 * a.toNat) (bulkBytes data)
      (on → (staging → (s.hub.agent u).applyUntil ≤ s.hub.pt) →
        answers (.bulkWrite u tag none a data) [.agents] (.regRsp u tag r.1.code 0) fun h => h.agents = r.2.agents) ∧
      (on → staging → s.hub.pt < (s.hub.agent u).applyUntil →
        (s.hub.dcn.txns.any fun t => t.tag == tag && t.unit == u) = false →
        s.completes (.bulkWrite u tag none a data) [.dcn, .agents] fun h => s.hub.othersKeep h u ∧
          h.agent u = { s.hub.agent u with
            held := (s.hub.agent u).held ++ [{ tag := tag, address := 8 * a.toNat, data := bulkBytes data }] }) ∧
      (off → answers (.bulkWrite u tag none a data) [] (.regRsp u tag 2 0) fun _ => True) ∧
      (∀ m c, s.hub.mcast tag = some c → u ∈ c.addressed → u ∉ c.refused →
        (on → (s.hub.agent u).refuses s.hub.pt = none → s.completes (.bulkWrite u tag (some m) a data) [.dcn, .agents] fun h =>
          h.agents = r.2.agents ∧ ∃ c', h.mcast tag = some c' ∧ (m.last = true → u ∈ c'.took) ∧ (m.last = false → c'.took = c.took)) ∧
        (on → ∀ why, (s.hub.agent u).refuses s.hub.pt = some why →
          s.completes (.bulkWrite u tag (some m) a data) [.dcn, .agents] fun h => s.hub.othersKeep h u ∧
            h.agent u = (s.hub.agent u).refusal u s.hub.pt tag why ∧
            ∃ c', h.mcast tag = some c' ∧ u ∈ c'.refused ∧ u ∉ c'.took)))) ∧
  (∀ (s : State) (u : UnitId) (v : W32), unitHasAgent u = true → (s.hub.agent u).powered = true → let a := s.hub.agent u
    (watchdogCount u ≠ 0 → s.completes (.wdogStatusWrite u v) [.agents] fun h =>
      s.hub.othersKeep h u ∧ ∀ e, e < watchdogCount u → (h.agent u).engine e = if v.getLsbD e
        then { a.engine e with expired := false, origin := a.ungatedOf e s.hub.pt } else a.engine e) ∧
    (∀ e head, e < watchdogCount u → s.completes (.wdogLimitWrite u e ⟨v, head⟩) [.agents] fun h =>
      let g : Engine := { a.engine e with exp := v.setWidth 6, cmdWatch := v.getLsbD 8, queueWatch := v.getLsbD 9 }
      s.hub.othersKeep h u ∧ (∀ x, x ≠ e → (h.agent u).engine x = a.engine x) ∧
      (h.agent u).engine e = { g with expired := g.expired || (g.overdue (a.ungatedOf e s.hub.pt) head).isSome }) ∧
    (v.getLsbD 0 = true → s.completes (.clearQueues u v) [.agents] fun h => s.hub.othersKeep h u ∧
      (∀ q ∈ (h.agent u).queues, q.2.bins = List.replicate 8 0 ∧ q.2.hwm = 0) ∧ (h.agent u).cnt.light = a.cnt.light ∧
      (h.agent u).queueSnaps = a.queueSnaps) ∧
    (s.completes (.shadowKeepWrite u v) [.dcn, .agents, .arrays, .out] fun h => s.hub.othersKeep h u ∧
      (h.agent u).shadowKeep = v.getLsbD 8 ∧ (h.agent u).armMask = v.setWidth 8 ∧
      (a.powerHold = false → (h.agent u).powering = a.powering)))

/-- DECLARE_HANG declares a hang with the next HANG_ID and logs it, a seventeenth entry in place of the oldest;
HANG_STATUS answers the log oldest first; HANG_CLEAR takes the declaration back and keeps the log (R144 to R146).
While measuring, and with TRIGGER_ON_HANG, DECLARE_HANG would arm a trigger and is BAD_STATE (R79, R226). A stop
completes at T + 4 us and no sooner, whether or not its command still waits; a HANG_STOP that waits is answered.
STOP_CANCEL issues CANCEL, no stop ahead stands any more, and it is answered with the states once they are in (R157,
R158, Table 6-8). -/
def Obligations.HangsAreLoggedAndStopsEnd : Prop :=
  (∀ (s : State) (hdr : Hdr) (reason : W32),
    (s.hub.admits 0x0300 hdr = true → s.hub.measuring = true → s.hub.trace.onHang = true →
      s.refuses (.declareHang hdr reason) 0x0300 hdr .badState []) ∧
    (s.hub.admits 0x0300 hdr = true → (s.hub.measuring && s.hub.trace.onHang) = false →
      s.answers (.declareHang hdr reason) 0x0300 hdr [.stops, .trace, .free]
      (le 4 (s.hub.stops.hangId + 1).toNat) fun h => h.stops.declared = true ∧ h.stops.hangId = s.hub.stops.hangId + 1 ∧
        h.stops.log.getLast? = some { pt := s.hub.pt, hangId := s.hub.stops.hangId + 1, unit := 0, engine := 0, cause := 3,
                                      data := reason, session := hdr.session } ∧
        (s.hub.stops.log.length < 16 → h.stops.log.dropLast = s.hub.stops.log ∧ h.stops.lost = s.hub.stops.lost) ∧
        (16 ≤ s.hub.stops.log.length → h.stops.log.dropLast = s.hub.stops.log.drop 1 ∧
          h.stops.lost = sat16 (s.hub.stops.lost + 1))) ∧
    (s.hub.admits 0x0303 hdr = true → s.answers (.hangStatus hdr) 0x0303 hdr []
      (le 1 (b2n s.hub.stops.declared) ++ le 1 s.hub.stops.podOutcome ++ le 2 s.hub.stops.lost ++ List.replicate 4 0 ++
        s.hub.stops.logBytes) fun _ => True) ∧
    (s.hub.admits 0x0304 hdr = true → s.answers (.hangClear hdr) 0x0304 hdr [.stops] [] fun h =>
      h.stops = { s.hub.stops with declared := false })) ∧
  (∀ (s : State) (hdr : Hdr),
    (∀ (n : StopInfo), s.hub.stops.newest = some n → n.complete = false →
      (s.hub.pt < n.t + 4000 → s.completes .stopComplete [] fun _ => True) ∧
      (n.t + 4000 ≤ s.hub.pt →
        (s.completes .stopComplete (replyBlocks ++ [.stops, .fc, .slot]) fun h =>
          h.stops.newest = some { n with complete := true } ∧ h.stops.standing = s.hub.stops.standing) ∧
        (∀ e, s.hub.slot = some e → e.prog = .stop → e.mute = false → e.transport = s.hub.transport →
          s.completes .stopComplete (replyBlocks ++ [.stops, .fc, .slot]) fun h => h.slot = none ∧
            s.hub.replied h e.opcode.toNat e.hdr .ok (s.hub.stopBody n)) ∧
        ((∀ e, s.hub.slot = some e → e.prog ≠ .stop) → s.completes .stopComplete [.stops, .fc] fun _ => True))) ∧
    (s.hub.admits 0x0302 hdr = true → s.completes (.stopCancel hdr) (icpBlocks ++ [.agents, .stops, .slot]) fun h =>
      (h.slot.map (·.prog)) = some .cancel ∧
      (s.hub.rootOpen = true → ∃ b, Out.bcast b ∈ h.out ∧ b.cls = 6 ∧ b.arg = 0 ∧ b.scope = .chip) ∧
      ∀ x, x ∈ h.stops.standing ↔ x ∈ s.hub.stops.standing ∧ x.1 ≤ s.hub.pt) ∧
    (∀ (tag : Byte) (c : Combine) (r : Reduced) (e : Exec), s.hub.combine tag = some c → c.result = some r → c.issuer = .cancelled →
      s.hub.slot = some e → e.prog = .cancel → e.mute = false → e.transport = s.hub.transport →
      s.completes (.combineResult tag) (replyBlocks ++ [.dcn, .slot]) fun h => h.slot = none ∧
        s.hub.replied h e.opcode.toNat e.hdr .ok (le 8 (r.value.toNat % 2 ^ 64))))

/-- HANG_STOP issues STOP in its scope for its instant, 0 meaning the earliest, with the next STOP_ID, and waits for its
confirmation, which the root sends where its injector takes the controller's packets (R357); a pod-wide one is chip
scope and is sent on every scale-out link that is up. An instant outside its window, POD above 1 and a bad scope are
BAD_ARG; in Production with no hang declared it is NOTHUNG, while measuring BAD_STATE (R145 to R149, R162).
POD_STOP: an instant over 1 s ahead is only counted, a pair seen before has no effect; else it declares a hang, is
passed on with one hop more on every other link that is up, and stops the chip at its instant, or Late at the
earliest, where HANG_STOP is permitted (R162, R163). That a chip which sleeps or is in low-speed mode takes the end
of its bound of Table 6-12 as the earliest issue is log entry 147. -/
def Obligations.HangStopAndPodStop : Prop :=
  (∀ (s : State) (hdr : Hdr) (t : W64) (pod : Byte) (sb : ScopeBlock), s.hub.admits 0x0301 hdr = true →
    (1 < pod.toNat → s.refuses (.hangStop hdr t pod sb) 0x0301 hdr .badArg (badArgBody 8 0)) ∧
    (∀ o, pod.toNat ≤ 1 → scopeFault sb 9 = some o → s.refuses (.hangStop hdr t pod sb) 0x0301 hdr .badArg (badArgBody o 0)) ∧
    (pod.toNat ≤ 1 → scopeFault sb 9 = none →
      let allowed := s.hub.island.decoded = some .production → s.hub.stops.declared = true
      let lead := leadInstant (s.hub.taken hdr).stopIssueAt (if pod = 1 then 25000 else 200) 30000 t.toNat
      (¬ allowed → s.refuses (.hangStop hdr t pod sb) 0x0301 hdr .notHung []) ∧
      (allowed → s.hub.measuring = true → s.refuses (.hangStop hdr t pod sb) 0x0301 hdr .badState []) ∧
      (allowed → s.hub.measuring = false → lead = none →
        s.refuses (.hangStop hdr t pod sb) 0x0301 hdr .badArg (badArgBody 0 0)) ∧
      (∀ at_, allowed → s.hub.measuring = false → lead = some at_ →
        s.completes (.hangStop hdr t pod sb) (icpBlocks ++ [.agents, .stops, .slot]) fun h =>
          let sc := if pod = 1 then (.chip, []) else scopeOf sb ((s.hub.taken hdr).session hdr.session)
          (h.slot.map (·.prog)) = some .stop ∧ h.stops.stopId = s.hub.stops.stopId + 1 ∧
          (h.stops.newest.map fun n => (n.stopId, n.t, n.scope, n.units)) = some (s.hub.stops.stopId + 1, at_, sc.1, sc.2) ∧
          (h.stops.newest.map fun n => (n.pod, n.late, n.complete)) = some (pod == 1, false, false) ∧
          (at_, sc.1, sc.2) ∈ h.stops.standing ∧
          (s.hub.rootOpen = true →
            ∃ b, Out.bcast b ∈ h.out ∧ b.cls = 0 ∧ b.instant = at_ ∧ b.scope = sc.1 ∧ b.claim = h.red.claim) ∧
          (pod = 1 → s.hub.ident.assigned = true → ∀ l < 16, s.hub.ctl.links.getLsbD l = true →
            ∃ m, Out.ctl l 0x10 (podStopBytes m) ∈ h.out ∧ m.stopId = s.hub.stops.stopId + 1 ∧ m.t.toNat = at_ % 2 ^ 64 ∧
              m.initiator = s.hub.ident.chipId)))) ∧
  (∀ (s : State) (link : Nat) (m : PodStopMsg),
    (s.hub.pt + 1000000000 < m.t.toNat → s.completes (.podStop link m) [.stops] fun h =>
      h.stops = { s.hub.stops with podDiscards := sat32 (s.hub.stops.podDiscards + 1) }) ∧
    (m.t.toNat ≤ s.hub.pt + 1000000000 → (m.initiator, m.stopId) ∈ s.hub.stops.podPairs →
      s.completes (.podStop link m) [] fun _ => True) ∧
    (m.t.toNat ≤ s.hub.pt + 1000000000 → (m.initiator, m.stopId) ∉ s.hub.stops.podPairs →
      s.completes (.podStop link m) [.dcn, .agents, .stops, .trace, .red, .power, .out, .free] fun h =>
        (m.initiator, m.stopId) ∈ h.stops.podPairs ∧ h.stops.declared = true ∧ h.stops.hangId = s.hub.stops.hangId + 1 ∧
        (s.hub.ident.assigned = true → ∀ l < 16, l ≠ link → s.hub.ctl.links.getLsbD l = true →
          Out.ctl l 0x10 (podStopBytes { m with hops := BitVec.ofNat 8 (sat8 (m.hops.toNat + 1)) }) ∈ h.out) ∧
        (s.hub.stopsInState = true → (h.stops.newest.map fun n => (n.pod, n.initiator, n.podId)) =
            some (true, m.initiator, m.stopId) ∧ h.stops.confirming = true ∧ h.stops.stopId = s.hub.stops.stopId + 1 ∧
          (h.stops.newest.map fun n => (n.late, n.t)) =
            (let i := Hub.stopIssueAt { s.hub with dcn.readyPt := s.hub.pt + s.hub.abutmentDelay }; some (if m.t.toNat < i + 200 then (true, i + 200) else (false, m.t.toNat)))) ∧
        (s.hub.stopsInState = false → h.stops.newest = s.hub.stops.newest)))

/-- An agent accepts a broadcast that has left the root, has a newer SEQ and has it in scope: one of class 0 to 4 with
its instant ahead is armed; a STOP whose instant has passed gates a Running agent at once and is LATE; CANCEL
disarms an instant of its class that is ahead; SAFE disarms STEP, RESUME and COMMIT alone. With an older SEQ, out of
scope, or before it has left, nothing happens, nor at a retired unit, to which nothing is sent (R30, R98, R100,
R103, R138, R325). That a broadcast out of scope does nothing at all, so that its SEQ is not noted, is log entry 17.
At its STOP instant a Running agent gates its clocks, sends its cut markers and begins its capture, Stopping; any
other only notes the STOP. With the capture, and every checker port closed, it is Stopped with a valid shadow, which
has the scan's blocks and then the checker's (R132, R134, R137, R154, R155). What the checker's block holds and that
the capture waits for the ports is log entry 122, the number of a unit's ports log entry 149. A checker port keeps
the first marker that comes before its gating edge or up to 1.5 us after it, with the PT of its arrival; 1.5 us
after the edge it closes with the outcome of Table 6-5: no marker, or the bits early, data after the marker,
mismatch and late; it sends CUT unless the outcome is Clean (R154 to R156). A unit without a checker keeps the first
marker before its own edge too, for EARLY_SEEN of the marker it sends, and no later one (R154). -/
def Obligations.AgentsArmStopAndCapture : Prop :=
  (∀ (s : State) (u : UnitId) (cls : BitVec 3) (seq : Byte) (b : Bcast),
    (s.hub.dcn.issued.find? fun x => x.cls == cls.toNat && x.seq == seq && (x.root.getD (halfOf u)) == halfOf u) = some b → unitHasAgent u = true →
    (s.hub.agent u).powered = true → s.hub.comesDown u b.cls = true →
    let a := s.hub.agent u
    let passed := b.instant ≠ 0 ∧ a.replicaLoaded = true ∧ b.instant < s.hub.pt
    (s.hub.retired u = false → a.takesSeq b.cls seq = true → a.inScope u b.scope b.cls = true → b.issuePt ≤ s.hub.pt →
      (cls.toNat ≤ 4 → b.instant ≠ 0 → ¬ passed →
        s.completes (.bcastAccept u cls seq) [.agents] fun h => (h.agent u).seqOf cls.toNat = some seq ∧
          (h.agent u).armedAt cls.toNat = some { instant := b.instant, arg := b.arg, claim := b.claim, seq := seq } ∧
          (∀ c, c ≠ cls.toNat → (h.agent u).armedAt c = a.armedAt c) ∧ (h.agent u).state = a.state ∧ s.hub.othersKeep h u) ∧
      (cls = 0 → passed → a.state = .running → s.completes (.bcastAccept u cls seq) [.agents, .out] fun h =>
        (h.agent u).state = .stopping ∧ (h.agent u).gated = true ∧ (h.agent u).late = true ∧
        ((h.agent u).cut.map fun c => (c.pt, c.instant, c.late)) = some (s.hub.pt, b.instant, true) ∧ s.hub.othersKeep h u) ∧
      (cls = 6 → s.completes (.bcastAccept u cls seq) [.agents, .arrays] fun h => let k := b.arg.toNat % 8
        (∀ x, a.armedAt k = some x → s.hub.pt < x.instant → (h.agent u).armedAt k = none) ∧
        (∀ c, c ≠ k → (h.agent u).armedAt c = a.armedAt c) ∧ (h.agent u).state = a.state ∧ s.hub.othersKeep h u) ∧
      (cls = 7 → s.completes (.bcastAccept u cls seq) [.agents] fun h =>
        (∀ c ∈ [2, 3, 4], (h.agent u).armedAt c = none) ∧ (∀ c ∈ [0, 1], (h.agent u).armedAt c = a.armedAt c) ∧
        (h.agent u).state = a.state ∧ (h.agent u).stepRun = a.stepRun ∧ s.hub.othersKeep h u)) ∧
    (s.hub.retired u = true ∨ a.takesSeq b.cls seq = false ∨ s.hub.pt < b.issuePt ∨ (cls ≠ 5 ∧ a.inScope u b.scope b.cls = false) →
      s.completes (.bcastAccept u cls seq) [] fun _ => True)) ∧
  (∀ (s : State) (u : UnitId), let a := s.hub.agent u
    (∀ x, s.hub.dueAt u 0 = some x →
      (a.state = .running → s.completes (.stopInstant u) [.agents, .out] fun h =>
        (h.agent u).state = .stopping ∧ (h.agent u).gated = true ∧ (h.agent u).late = false ∧ (h.agent u).cutValid = true ∧
        (h.agent u).armedAt 0 = none ∧
        ((h.agent u).cut.map fun c => (c.pt, c.instant, c.seq, c.capturing)) = some (s.hub.pt, x.instant, x.seq, true) ∧
        (h.agent u).queues = a.queues ∧ s.hub.othersKeep h u ∧
        ∃ l m, h.out = s.hub.out ++ l ∧ Out.marker u false none m ∈ l ∧ (∀ o ∈ l, ∃ w p m', o = .marker u w p m') ∧
          (m.identity, m.seq.toNat, m.instant, m.gatePt, m.earlySeen) = (x.claim, x.seq.toNat, x.instant, s.hub.pt, false)) ∧
      (a.state ≠ .running → s.completes (.stopInstant u) [.agents] fun h =>
        (h.agent u).state = a.state ∧ (h.agent u).gated = a.gated ∧ (h.agent u).armedAt 0 = none ∧ (h.agent u).cut = a.cut ∧
        s.hub.othersKeep h u)) ∧
    (s.hub.dueAt u 0 = none → s.completes (.stopInstant u) [] fun _ => True) ∧
    (∀ c sh blocks bs, a.powered = true → a.cut = some c → c.capturing = true → a.shadow = some sh →
      blocksOf blocks = some bs → bs.all (scanBlock u) = true → a.portsClosed u c s.hub.pt = true →
      let all := blocks ++ a.checkerBlocks u c
      64 + all.length ≤ shadowSize u → s.completes (.captureComplete u bs.length blocks) [.agents] fun h =>
        (h.agent u).state = (if a.state = .stopping then .stopped else a.state) ∧ (h.agent u).shadowValid = true ∧
        ((h.agent u).shadow.map fun x => (x.complete, x.blocks, x.donePt, x.cutPt)) = some (true, all, s.hub.pt, sh.cutPt) ∧
        ((h.agent u).cut.map (·.capturing)) = some false ∧ s.hub.othersKeep h u)) ∧
  (∀ (s : State) (u : UnitId) (port : Nat), (s.hub.agent u).powered = true → port < 64 →
    let a := s.hub.agent u
    let p := mapGet {} a.ports port
    let open_ := a.gated = false ∧ a.stepOnly = none
    (∀ m, open_ → (p.gatePt = none → p.marker = none) → s.completes (.cutMarkerArrival u port m) [.agents] fun h =>
      mapGet {} (h.agent u).ports port = { marker := some m, arrivalPt := s.hub.pt } ∧ s.hub.othersKeep h u) ∧
    (∀ m, ¬ open_ → hasChecker u = false → s.completes (.cutMarkerArrival u port m) [] fun _ => True) ∧
    (∀ c m, ¬ open_ → hasChecker u = true → a.checkerGate = some c → p.closed = false → p.marker = none → s.hub.pt ≤ c.pt + 1500 →
      s.completes (.cutMarkerArrival u port m) [.agents] fun h =>
        (mapGet {} (h.agent u).ports port).marker = some m ∧ (mapGet {} (h.agent u).ports port).arrivalPt = s.hub.pt ∧
        s.hub.othersKeep h u) ∧
    (∀ c m, ¬ open_ → a.checkerGate = some c → (p.closed = true ∨ p.marker ≠ none ∨ c.pt + 1500 < s.hub.pt) →
      s.completes (.cutMarkerArrival u port m) [] fun _ => True) ∧
    (∀ c kind peer k after, hasChecker u = true → a.checkerGate = some c → p.closed = false →
      (s.hub.pt < c.pt + 1500 → s.completes (.checkerClose u port kind peer k after) [] fun _ => True) ∧
      (c.pt + 1500 ≤ s.hub.pt → s.completes (.checkerClose u port kind peer k after) [.agents] fun h =>
        let q := mapGet {} (h.agent u).ports port
        q.closed = true ∧ s.hub.othersKeep h u ∧
        (p.marker = none → q.outcome = 4) ∧
        (∀ m, p.marker = some m → q.outcome.toNat = b2n (decide (p.arrivalPt < c.pt) || m.earlySeen) + 2 * b2n after +
          8 * b2n (s.hub.markerDiffers c kind m) + 16 * b2n m.late) ∧
        (q.outcome = 0 → (h.agent u).notices = a.notices) ∧
        (q.outcome ≠ 0 → a.notices.length < 8 → ∃ n, (h.agent u).notices = a.notices ++ [n] ∧ n.kind = 9 ∧ n.unit = u))))

/-- STEP_CYCLES collects the states: with an agent that is not Stopped it is BAD_STATE, with one that does not answer
UNREACHABLE unless that is allowed, else one STEP of D ns goes to the chip. STEP_COMMAND issues one for one engine
of one Stopped unit, RESUME one in the scope asked for, and what a RESUME is refused for is BAD_STATE (R171, R172,
R178, R181). The root sends each where its injector takes the controller's packets (R357). That a Stepping agent
refuses STEP_CYCLES is log entry 118, the list of those unanswered log entry 124, that no stop stands from the issue
of a RESUME log entry 37. -/
def Obligations.StepsAndResumesAreIssued : Prop :=
  ∀ (s : State) (hdr : Hdr) (ts : W64), let h0 := s.hub.taken hdr
    (∀ (d : W16) (flags : Byte), s.hub.admits 0x0305 hdr = true → d ≠ 0 → flags.toNat ≤ 1 →
      (s.hub.measuring = true ∨ s.hub.fe.dumpMode = true →
        s.refuses (.stepCycles hdr ts d flags) 0x0305 hdr .badState []) ∧
      (s.hub.measuring = false → s.hub.fe.dumpMode = false →
        s.completes (.stepCycles hdr ts d flags) (icpBlocks ++ [.slot]) fun h =>
          (h.slot.map (·.prog)) = some (.stepCheck ts.toNat d.toNat (flags == 1)) ∧
          (h0.collectRoom .standing = true → s.hub.rootOpen = true → ∃ b, Out.bcast b ∈ h.out ∧ b.cls = 5 ∧ b.arg = 0x10002))) ∧
    (∀ (tag : Byte) (c : Combine) (r : Reduced) (e : Exec) (t0 d : Nat) (allow : Bool), s.hub.combine tag = some c →
      c.result = some r → c.issuer = .standing → s.hub.slot = some e → e.prog = .stepCheck t0 d allow → e.mute = false →
      e.transport = s.hub.transport → s.hub.dcn.collects = [] →
      let moves := bits r.value.toNat 31 0 ≠ 0 ∨ bits r.value.toNat 63 48 ≠ 0
      let lost := s.hub.unanswered c
      (moves → s.completes (.combineResult tag) (replyBlocks ++ [.dcn, .slot]) fun h => h.slot = none ∧
        s.hub.replied h e.opcode.toNat e.hdr .badState []) ∧
      (¬ moves → lost ≠ [] → allow = false → s.completes (.combineResult tag) (replyBlocks ++ [.dcn, .slot]) fun h =>
        h.slot = none ∧ s.hub.replied h e.opcode.toNat e.hdr .unreachable (unitsBody lost)) ∧
      (∀ t, ¬ moves → (lost = [] ∨ allow = true) → leadInstant (s.hub.issueAt 2) 200 30000 t0 = some t →
        s.completes (.combineResult tag) [.dcn, .stops, .red, .slot, .out] fun h => (h.slot.map (·.prog)) = some (.cycles t d) ∧
          (s.hub.rootOpen = true → ∃ b, Out.bcast b ∈ h.out ∧ b.cls = 2 ∧ b.instant = t ∧ b.scope = .chip ∧ stepDuration b.arg = d % 0x10000 ∧
            stepIsCommand b.arg = false))) ∧
    (∀ (u : UnitId) (e : Byte) (limit : W16), s.hub.admits 0x0306 hdr = true → unitHasAgent u = true →
      unitCore u = true → e.toNat < engineCount u → limit ≠ 0 → s.hub.measuring = false → s.hub.fe.dumpMode = false →
      h0.answers u = true →
      ((s.hub.agent u).state ≠ .stopped → s.refuses (.stepCommand hdr ts u e limit) 0x0306 hdr .badState []) ∧
      (∀ t, (s.hub.agent u).state = .stopped → leadInstant (h0.issueAt 2) 200 30000 ts.toNat = some t →
        s.completes (.stepCommand hdr ts u e limit) (icpBlocks ++ [.agents, .slot]) fun h =>
          (h.slot.map (·.prog)) = some (.cmdStep u limit.toNat) ∧
          (s.hub.rootOpen = true → ∃ b, Out.bcast b ∈ h.out ∧ b.cls = 2 ∧ b.instant = t ∧ stepIsCommand b.arg = true ∧ stepEngine b.arg = e.toNat ∧
            stepDuration b.arg = limit.toNat))) ∧
    (s.hub.admits 0x0307 hdr = true →
      (h0.resumeRefused .chip [] = true → s.refuses (.resume hdr ts 0) 0x0307 hdr .badState []) ∧
      (∀ t, h0.resumeRefused .chip [] = false → leadInstant (h0.issueAt 3) 200 30000 ts.toNat = some t →
        s.completes (.resume hdr ts 0) (icpBlocks ++ [.stops, .slot]) fun h => (h.slot.map (·.prog)) = some (.resume t) ∧
          h.stops.standing = [] ∧
          (s.hub.rootOpen = true → ∃ b, Out.bcast b ∈ h.out ∧ b.cls = 3 ∧ b.instant = t ∧ b.scope = .chip)) ∧
      (s.hub.stops.newest = none → s.refuses (.resume hdr ts 1) 0x0307 hdr .badState []) ∧
      (∀ (n : StopInfo) (t : Nat), s.hub.stops.newest = some n →
        h0.resumeRefused n.scope n.units = false → leadInstant (h0.issueAt 3) 200 30000 ts.toNat = some t →
        s.completes (.resume hdr ts 1) (icpBlocks ++ [.agents, .stops, .slot]) fun h =>
          (h.slot.map (·.prog)) = some (.resume t) ∧
          (s.hub.rootOpen = true → ∃ b, Out.bcast b ∈ h.out ∧ b.cls = 3 ∧ b.instant = t ∧ b.scope = n.scope)))

/-- A Stopped agent steps from its STEP instant: a cycle step ends D ns after the instant with new markers, a command
step as its command ends or at its limit; then it is Stopped, gated and scanned anew. At its RESUME instant it runs,
its shadow no longer valid. At a COMMIT instant, applied for at most 2 us, each staged trace setting with CHANGE
becomes its engine's, which counts its commands anew, and the collector's mirror follows it; each staged sounding
slot with CHANGE and ENABLE is armed as it is written, the others with CHANGE are disarmed; SOUND_ACTIVE shows what
was staged, and CHANGE is clear (R127, R172 to R174, R178, R179, R182, R229 to R232, R275, R277, R279). That CHANGE
clears is log entry 24. -/
def Obligations.AgentsStepAndResume : Prop :=
  ∀ (s : State) (u : UnitId), let a := s.hub.agent u
    (∀ x, s.hub.dueAt u 2 = some x → let cmd := stepIsCommand x.arg
      (a.state = .stopped → stepDuration x.arg ≠ 0 → (cmd = true → unitClass u ≤ 3) →
        s.completes (.stepInstant u) [.agents] fun h =>
          (h.agent u).state = .stepping ∧ (h.agent u).gated = false ∧ (h.agent u).shadowValid = false ∧
          ((h.agent u).stepRun.map fun r => (r.command, r.startPt, r.endPt)) = some (cmd, s.hub.pt,
            x.instant + (if cmd then 1000 * stepDuration x.arg else stepDuration x.arg)) ∧ s.hub.othersKeep h u) ∧
      (a.state ≠ .stopped → s.completes (.stepInstant u) [.agents] fun h =>
        (h.agent u).state = a.state ∧ (h.agent u).gated = a.gated ∧ (h.agent u).stepRun = a.stepRun ∧ s.hub.othersKeep h u)) ∧
    (∀ r, a.powered = true → a.stepRun = some r →
      (r.command = false →
        (s.hub.pt < r.endPt → s.completes (.cycleStepEnd u) [] fun _ => True) ∧
        (r.endPt ≤ s.hub.pt → s.completes (.cycleStepEnd u) [.agents, .out] fun h =>
          (h.agent u).state = .stopped ∧ (h.agent u).gated = true ∧ (h.agent u).stepRun = none ∧ (h.agent u).step.outcome = 1 ∧
          (h.agent u).step.elapsed = s.hub.pt - r.startPt ∧ s.hub.othersKeep h u ∧
          ((h.agent u).cut.map fun c => (c.pt, c.instant, c.step, c.capturing)) = some (s.hub.pt, r.endPt, true, true) ∧
          ∃ m, Out.marker u false none m ∈ h.out ∧ (m.identity, m.instant, m.gatePt, m.late) = (r.claim, r.endPt, s.hub.pt, false))) ∧
      (∀ why stall, r.command = true →
        (s.hub.stepEnds u r why = true → s.completes (.commandStepEnd u why stall) [.agents, .trace, .free] fun h =>
          (h.agent u).state = .stopped ∧ (h.agent u).gated = true ∧ (h.agent u).stepRun = none ∧
          (h.agent u).step.outcome = stepEndCode why ∧ (h.agent u).step.fenceStall = (stall || a.outbound.any fun q => q.1 == r.engine.toNat) ∧
          (why = .commandEnded ∨ why = .dropped → ((h.agent u).engine r.engine.toNat).running = none) ∧ s.hub.othersKeep h u) ∧
        (s.hub.stepEnds u r why = false → s.completes (.commandStepEnd u why stall) [] fun _ => True))) ∧
    (∀ x, s.hub.dueAt u 3 = some x →
      (a.state = .stopped → a.powerHold = false → s.completes (.resumeInstant u) [.agents] fun h => (h.agent u).state = .running ∧
        (h.agent u).gated = false ∧ (h.agent u).shadowValid = false ∧ (h.agent u).cutValid = false ∧ (h.agent u).ports = [] ∧
        s.hub.othersKeep h u) ∧
      (a.state ≠ .stopped → a.powerHold = false → s.completes (.resumeInstant u) [.agents] fun h => (h.agent u).state = a.state ∧
        (h.agent u).gated = a.gated ∧ s.hub.othersKeep h u)) ∧
    (∀ x, s.hub.dueAt u 4 = some x → s.completes (.commitInstant u) [.agents, .trace] fun h =>
      let at_ := if x.instant = 0 then s.hub.pt else x.instant
      let c := s.hub.collector (collectorOf u)
      (h.agent u).applyUntil = s.hub.pt + 2000 ∧ (h.agent u).armedAt 4 = none ∧ (h.agent u).state = a.state ∧
      (∀ e < engineCount u,
        let v := a.traceEntry e
        let key := (sourceOf u e).toNat
        (x.arg.getLsbD 0 = true → bit v 28 = true →
          ((h.agent u).engine e).trace = BitVec.ofNat 5 v ∧ ((h.agent u).engine e).kM1 = BitVec.ofNat 12 (bits v 27 16) ∧
          ((h.agent u).engine e).begun = 0 ∧ bit ((h.agent u).traceEntry e) 28 = false ∧
          ((h.agent u).engine e).running =
            (a.engine e).running.map (fun (r : RunningCmd) => { r with traced := false, sampled := false }) ∧
          mapGet {} (h.collector (collectorOf u)).mirrors key =
            (mapGet {} c.mirrors key).follow (BitVec.ofNat 5 v) (BitVec.ofNat 12 (bits v 27 16)) at_) ∧
        (x.arg.getLsbD 0 = false ∨ bit v 28 = false → (h.agent u).engine e = a.engine e)) ∧
      (∀ k < 4 * tapEngines u,
        let b := memRead a.staging (0x40 + 64 * k) 64
        let ctrl := b.getD 2 0
        let slot := { slotOfBytes b with ctrl := ctrl &&& 0x7F }
        let key := 8 * ordinalOf u + k
        (x.arg.getLsbD 1 = true → ctrl.getLsbD 7 = true →
          (ctrl.getLsbD 0 = true → mapFind (h.agent u).taps k = some (slot.arm (a.engine (k / 4))) ∧
            mapFind (h.collector (collectorOf u)).taps key = some slot) ∧
          (ctrl.getLsbD 0 = false → mapFind (h.agent u).taps k = (mapFind a.taps k).map TapSlot.disarm ∧
            mapFind (h.collector (collectorOf u)).taps key = none) ∧
          mapGet 0 (h.agent u).soundActive k = slot.word ∧ memByte (h.agent u).staging (0x42 + 64 * k) = ctrl &&& 0x7F) ∧
        (x.arg.getLsbD 1 = false ∨ ctrl.getLsbD 7 = false → mapFind (h.agent u).taps k = mapFind a.taps k)) ∧
      s.hub.othersKeep h u)

/-- INSPECT_READ answers the octets of the range, INSPECT_WRITE writes them and marks unit and stop as written, where
the session may and the agent answers; while the agent is fenced it is BAD_STATE, with no agent UNREACHABLE, and
from a silent one the answer is waited for; a read-only offset is BAD_ARG (R113, R166 to R170). -/
def Obligations.InspectionReadsAndWrites : Prop :=
  ∀ (s : State) (hdr : Hdr) (u : UnitId) (space : Byte) (off len : W32) (data : List Byte), let h0 := s.hub.taken hdr
    let may := ∃ x, h0.session hdr.session = some x ∧ h0.mayInspect x u space off.toNat len.toNat = true
    let rd := Instr.inspectRead hdr u space off len
    let wr := Instr.inspectWrite hdr u space off data
    (s.hub.admits 0x0308 hdr = true →
      (∀ o, inspectFault u space off.toNat len.toNat 8 = some o → s.refuses rd 0x0308 hdr .badArg (badArgBody o 0)) ∧
      (inspectFault u space off.toNat len.toNat 8 = none → len.toNat ≤ 0x100000 →
        (¬ may → s.refuses rd 0x0308 hdr .denied []) ∧
        (may → h0.answers u = true →
          let r := if space = 0 then inspectAll (Hub.inspectWord u) (wordsOf off.toNat len.toNat) ⟨.done, [], h0⟩
            else inspectAll (Hub.inspectBulk u) (pieces off.toNat len.toNat) ⟨.done, [], h0⟩
          (r.status ≠ .fenced → s.answers (.inspectRead hdr u space off len) 0x0308 hdr [.agents] r.data fun h => h.agents = r.hub.agents ∧ s.hub.othersKeep h u) ∧
          (r.status = .fenced → s.completes (.inspectRead hdr u space off len) (icpBlocks ++ [.agents]) fun h => s.hub.replied h 0x0308 hdr .badState [] ∧
            h.agents = r.hub.agents)) ∧
        (may → h0.answers u = false → h0.silent u = false →
          s.refuses rd 0x0308 hdr .unreachable (unitsBody [u])) ∧
        (may → h0.silent u = true → s.completes (.inspectRead hdr u space off len) (icpBlocks ++ [.slot]) fun h =>
          (h.slot.map (·.prog)) = some (.access u rd)))) ∧
    (s.hub.admits 0x0309 hdr = true →
      (∀ o, inspectFault u space off.toNat data.length 8 = some o → s.refuses wr 0x0309 hdr .badArg (badArgBody o 0)) ∧
      (inspectFault u space off.toNat data.length 8 = none → data.length ≤ 4088 →
        let low := if space = 0 then off.toNat < 0x800 else off.toNat < 0x80000
        (low → s.refuses wr 0x0309 hdr .badArg (badArgBody 4 0)) ∧
        (¬ low → h0.answers u = true →
          let r := inspectAll (Hub.inspectPoke data off.toNat u space)
            (if space = 0 then wordsOf off.toNat data.length else pieces off.toNat data.length) ⟨.done, [], h0⟩
          (r.status ≠ .fenced → s.answers (.inspectWrite hdr u space off data) 0x0309 hdr [.agents, .arrays, .stops] [] fun h => h.agents = r.hub.agents ∧
            h.stops = r.hub.stops ∧ (r.status = .done → data ≠ [] → (h.agent u).written = true)) ∧
          (r.status = .fenced → s.completes (.inspectWrite hdr u space off data) (icpBlocks ++ [.agents, .arrays, .stops]) fun h =>
            s.hub.replied h 0x0309 hdr .badState [])) ∧
        (¬ low → h0.answers u = false → h0.silent u = false → s.refuses wr 0x0309 hdr .unreachable (unitsBody [u])) ∧
        (¬ low → h0.silent u = true → s.completes (.inspectWrite hdr u space off data) (icpBlocks ++ [.slot]) fun h =>
          (h.slot.map (·.prog)) = some (.access u wr))))

/-- A unit that is neither retired nor fused off powers on with a fresh agent, Running, or Stopped where a stop stands
over it; with its replica's load it knows PT, its totals and its partition, which follows a change of membership. A
unit that may not power on stays off (R30, R68, R125, R248, Table 5-1). A power-down request is held while a stop's
capture is kept, else the agent answers POWERING and leaves; a unit that loses power loses its agent's state, its
SRAM contents are undefined, and the tagged pushes it has sent reach the array (R247). Nothing happens to a unit
that is off (R133, R140, Tables 5-1, 5-17). A unit's event is written to its ring with the next sequence number, and
some codes are sent as notices; a watchdog that is overdue expires once and sends its notice; a notice leaves in
order, against a credit, once the path is up; at the hub a watchdog's declares a hang (R129, R130, R141 to R144,
R205). -/
def Obligations.UnitsComeGoAndNotify : Prop :=
  (∀ (s : State) (u : UnitId), unitHasAgent u = true → let a := s.hub.agent u
    let barred := s.hub.retired u = true ∨ (retirable u = true ∧ ordinalOf u ∈ s.hub.island.otp.repair)
    (a.powered = false → ¬ barred → s.completes (.unitPowerOn u) [.agents, .out] fun h =>
      (h.agent u).powered = true ∧ (h.agent u).replicaLoaded = false ∧
      (h.agent u).state = (if s.hub.stopCovers u then .stopped else .running) ∧
      ((h.agent u).shadow.map (·.poweredIn)) = (if s.hub.stopCovers u then some true else none) ∧
      h.out = s.hub.out ++ [.unitPower u true] ∧ s.hub.othersKeep h u) ∧
    (a.powered = true ∨ barred → s.completes (.unitPowerOn u) [] fun _ => True) ∧
    (a.powered = true → a.replicaLoaded = false → s.completes (.replicaLoad u) [.agents] fun h =>
      (h.agent u).replicaLoaded = true ∧ (h.agent u).state = a.state ∧ s.hub.othersKeep h u ∧
      (unitCore u = true → (h.agent u).cnt.loaded = true ∧
        (a.cnt.loaded = false → (h.agent u).cnt.light = (a.settle s.hub.pt).cnt.light.add (s.hub.arrayTotals u)) ∧
        (h.agent u).member = (mapGet none s.hub.chip.membership (ordinalOf u)).isSome ∧
        ∀ p, mapGet none s.hub.chip.membership (ordinalOf u) = some p → (h.agent u).partition = p)) ∧
    (a.powered = false ∨ a.replicaLoaded = true → s.completes (.replicaLoad u) [] fun _ => True) ∧
    (∀ member p, unitCore u = true → s.completes (.partitionChange u member p) [.agents, .chip] fun h => s.hub.othersKeep h u ∧
      mapGet none h.chip.membership (ordinalOf u) = (if member then some p else none) ∧
      (a.powered = true → a.replicaLoaded = true → (h.agent u).member = member ∧
        (member = true → (h.agent u).partition = p)) ∧
      (a.powered = false ∨ a.replicaLoaded = false → h.agents = s.hub.agents))) ∧
  (∀ (s : State) (u : UnitId), let a := s.hub.agent u
    let gone : Agent := { sramLost := a.sramLost + 1, sramBad := a.sramBad, shadowBad := a.shadowBad, written := a.written }
    let landed := fun (h : Hub) => (∀ v, ordinalOf v ≠ ordinalOf u → h.arrayTotals v = s.hub.arrayTotals v) ∧
      h.arrayTotals u = if s.hub.retired u then s.hub.arrayTotals u
        else a.cnt.tagged.foldl (fun t p => t.add p.incr) (s.hub.arrayTotals u)
    (a.powered = true →
      ((a.state = .stopping ∨ a.shadowValid = true) → a.shadowKeep = true →
        s.completes (.powerDownRequest u) [.agents] fun h => h.agent u = { a with powerHold := true } ∧ s.hub.othersKeep h u) ∧
      ((a.state ≠ .stopping ∧ a.shadowValid = false) ∨ a.shadowKeep = false →
        s.completes (.powerDownRequest u) [.dcn, .agents, .arrays, .out] fun h => (h.agent u).powering = true ∧
          (h.agent u).powered = true ∧ h.out = s.hub.out ++ [.unitPower u false] ∧ s.hub.othersKeep h u ∧
          (∀ c ∈ h.dcn.combines, u ∈ c.answered) ∧ (unitCore u = true → (h.agent u).cnt.unpushed = {})) ∧
      (s.completes (.unitPowerOff u) (replyBlocks ++ [.dcn, .agents, .arrays, .trace, .soundings, .fc, .slot]) fun h =>
        h.agent u = gone ∧ s.hub.othersKeep h u ∧ landed h) ∧
      (s.completes (.emergencyPowerOff u) (replyBlocks ++ [.agents, .arrays, .trace, .soundings, .fc, .slot]) fun h =>
        h.agent u = gone ∧ s.hub.othersKeep h u ∧ landed h)) ∧
    (a.powered = false → s.completes (.powerDownRequest u) [] (fun _ => True) ∧ s.completes (.unitPowerOff u) [] (fun _ => True) ∧
      s.completes (.emergencyPowerOff u) [] fun _ => True)) ∧
  (∀ (s : State) (u : UnitId), (s.hub.agent u).powered = true → let a := s.hub.agent u
    (∀ code engine data, unitEventCode code = true → a.notices.length < 8 →
      s.completes (.unitEvent u code engine data) [.agents] fun h => (h.agent u).nextSeq = a.nextSeq + 1 ∧
        (let r := mapGet {} (h.agent u).ring a.ringSlot
         (r.code, r.engine, r.seq, r.data) = (code, engine, a.nextSeq, data)) ∧
        (h.agent u).notices.length = a.notices.length + b2n (eventNoticed code) ∧ s.hub.othersKeep h u) ∧
    (∀ (e : Nat) (head : Option QueueHead), e < watchdogCount u →
      (∀ q tag, (a.engine e).overdue (a.ungatedOf e s.hub.pt) head = some (q, tag) → a.notices.length < 8 →
        s.completes (.watchdogExpiry u e head) [.agents] fun h => ((h.agent u).engine e).expired = true ∧
          (h.agent u).notices = a.notices ++ [watchdogNoticeOf u e q (a.engine e).exp (a.replica s.hub.pt) tag] ∧
          s.hub.othersKeep h u) ∧
      ((a.engine e).overdue (a.ungatedOf e s.hub.pt) head = none → s.completes (.watchdogExpiry u e head) [] fun _ => True)) ∧
    (∀ n rest, a.notices = n :: rest → s.hub.pathUp u = true →
      (s.hub.link (.agent (ordinalOf u))).upward.ctlCredit ≠ 0 → a.lostSince = 0 → n.unit = u →
      (n.kind = 6 → s.completes (.noticeSend u) [.dcn, .agents, .power] fun h => h.dcn.inbox = s.hub.dcn.inbox ++ [n] ∧
        (h.agent u).notices = rest ∧ s.hub.othersKeep h u) ∧
      (n.kind = 0 → s.completes (.noticeSend u) [.dcn, .agents, .power] fun h => (h.agent u).notices = rest ∧
        mapGet none h.dcn.known (ordinalOf u) = some (stateNamed (bits n.arg.toNat 2 0)) ∧ s.hub.othersKeep h u) ∧
      (unitHasAgent u = true → n.kind = 2 → bits n.arg.toNat 7 0 = 0x11 → s.completes (.noticeSend u) faultBlocks fun h =>
        s.hub.counted h (ordinalOf u))) ∧
    (s.hub.pathUp u = true → (s.hub.link (.agent (ordinalOf u))).upward.ctlCredit = 0 →
      s.completes (.noticeSend u) [.dcn, .power] fun h => h.dcn.inbox = s.hub.dcn.inbox) ∧
    (∀ n rest, takeFirst (fun (n : Notice) => n.kind == 6 && n.unit == u) s.hub.dcn.inbox = some (n, rest) → unitHasAgent u = true →
      s.completes (.watchdogNotice u) faultBlocks fun h => s.hub.counted h (0x800 + ordinalOf u) ∧ h.dcn.inbox = rest ∧
        h.stops.declared = true ∧ ∃ e ∈ h.stops.log, e.unit = u ∧ e.hangId = s.hub.stops.hangId + 1 ∧
          e.cause = (if n.arg.getLsbD 4 then 2 else 1)))

/-- COUNTER_READ answers totals or banks of the scope's cores and slices, COUNTER_SNAPSHOT_READ the frozen bank,
COUNTER_CLEAR the number of agents reached; an Observer reads relative totals and the snapshots of its partition,
and is denied the arrays; units that are known not to answer are UNREACHABLE, silent ones are waited for (R113, R250
to R258, R263). That an Observer's snapshot is built from the windows of its partition's agents is log entry 45,
what a silent unit does log entry 25. -/
def Obligations.CountersAreReadAndCleared : Prop :=
  ∀ (s : State) (hdr : Hdr) (which : Byte) (sb : ScopeBlock), let h0 := s.hub.taken hdr
    let sc := scopeOf sb (h0.session hdr.session)
    let present := h0.presentIn sc.1 sc.2
    let cores := (h0.scopeUnits sc.1 sc.2).filter fun u => unitCore u
    (s.hub.admits 0x0600 hdr = true →
      (3 < which.toNat → s.refuses (.counterRead hdr which sb) 0x0600 hdr .badArg (badArgBody 0 0)) ∧
      (∀ o, which.toNat ≤ 3 → scopeFault sb 1 = some o → s.refuses (.counterRead hdr which sb) 0x0600 hdr .badArg (badArgBody o 0)) ∧
      (scopeFault sb 1 = none →
        (which.toNat < 2 → let l := present.filter fun u => unitCore u
          let lost := l.filter fun u => !h0.answers u
          (lost = [] → s.answers (.counterRead hdr which sb) 0x0600 hdr []
            (l.flatMap fun u => ((h0.windowTotals which.toNat (h0.isObserver hdr) u).map (totalsEntry u)).getD []) fun _ => True) ∧
          (lost ≠ [] → (∀ u ∈ l, h0.silent u = false) → s.refuses (.counterRead hdr which sb) 0x0600 hdr .unreachable (unitsBody lost)) ∧
          (∀ u ∈ l, h0.silent u = true → s.completes (.counterRead hdr which sb) (icpBlocks ++ [.slot]) fun h =>
            (h.slot.map (·.prog)) = some (.gather (l.filter h0.silent) (.counterRead hdr which sb)))) ∧
        (which = 2 → h0.isObserver hdr = false → s.answers (.counterRead hdr which sb) 0x0600 hdr []
          (cores.flatMap fun u => totalsEntry u (h0.arrayTotals u)) fun _ => True) ∧
        (which = 3 → h0.isObserver hdr = false → s.answers (.counterRead hdr which sb) 0x0600 hdr []
          (cores.flatMap fun u => totalsEntry u (h0.bankEntry u).totals) fun _ => True) ∧
        (2 ≤ which.toNat → which.toNat ≤ 3 → h0.isObserver hdr = true →
          s.refuses (.counterRead hdr which sb) 0x0600 hdr .denied []))) ∧
    (s.hub.admits 0x0603 hdr = true → scopeFault sb 0 = none →
      (h0.isObserver hdr = false → s.answers (.counterSnapshotRead hdr sb) 0x0603 hdr [] (List.replicate 8 0 ++
        cores.flatMap fun u => (h0.bankEntry u).bytes u) fun _ => True) ∧
      (h0.isObserver hdr = true → let l := (h0.presentIn sc.1 []).filter fun u => unitCore u
        (∀ u ∈ l, h0.answers u = true) → s.answers (.counterSnapshotRead hdr sb) 0x0603 hdr []
          (le 4 (l.filter fun u => (h0.observerEntry u).isNone).length ++ List.replicate 4 0 ++
            l.flatMap fun u => ((h0.observerEntry u).map fun b => b.bytes u).getD []) fun _ => True)) ∧
    (s.hub.admits 0x0604 hdr = true → scopeFault sb 0 = none → (∀ u ∈ present, h0.silent u = false) →
      let reached := present.filter fun u => h0.answers u
      s.answers (.counterClear hdr sb) 0x0604 hdr [.agents] (le 4 reached.length ++ le 4 (present.length - reached.length)) fun h =>
        (∀ u ∈ reached, (∀ q ∈ (h.agent u).queues, q.2.bins = List.replicate 8 0 ∧ q.2.hwm = 0) ∧
          (h.agent u).cnt = (s.hub.agent u).cnt) ∧ ∀ u, (∀ v ∈ reached, ordinalOf v ≠ ordinalOf u) → h.agent u = s.hub.agent u)

/-- COUNTER_AGGREGATE collects its quantity and is answered with the result; COUNTER_FREEZE issues FREEZE with the next
FREEZE_ID, and the arrays take nothing any more at an earlier one's instant that is still to come (log entry 157);
at its instant an agent copies its counters, unless a snapshot is held; the tagged push reaches the arrays, as does
the push of each microsecond (R246 to R254, R259, R260). At F an array copies each entry of the freeze's scope whose
tagged push is not yet in, and 2 us later gives every entry of the freeze its quality; other entries and the totals
stay; with no freeze due nothing happens (R254, R255). -/
def Obligations.CountersFreeze : Prop :=
  (∀ (s : State) (hdr : Hdr) (sb : ScopeBlock) (u : UnitId), let h0 := s.hub.taken hdr
    let a := s.hub.agent u
    (∀ (q : W16) (op : Nat), s.hub.admits 0x0601 hdr = true → quantityOp q.toNat = some op → scopeFault sb 2 = none →
      let sc := scopeOf sb (h0.session hdr.session)
      (h0.isObserver hdr = true → observerQuantity q.toNat = false →
        s.refuses (.counterAggregate hdr q sb) 0x0601 hdr .denied []) ∧
      (h0.isObserver hdr = false ∨ observerQuantity q.toNat = true →
        s.completes (.counterAggregate hdr q sb) (icpBlocks ++ [.agents, .slot]) fun h =>
          (h.slot.map (·.prog)) = some (.aggregate q.toNat sc.1 sc.2) ∧ (h0.collectRoom .aggregate = true →
            ∃ c ∈ h.dcn.combines, c.quantity = q.toNat ∧ c.op = op ∧ c.issuer = .aggregate ∧ c.scope = sc.1))) ∧
    (∀ (tag : Byte) (c : Combine) (r : Reduced) (e : Exec) (q : Nat) (sc : Scope) (us : List UnitId), s.hub.combine tag = some c →
      c.result = some r → c.issuer = .aggregate → s.hub.slot = some e → e.prog = .aggregate q sc us → e.mute = false →
      e.transport = s.hub.transport → s.completes (.combineResult tag) (replyBlocks ++ [.dcn, .slot]) fun h => h.slot = none ∧
        s.hub.replied h e.opcode.toNat e.hdr .ok (s.hub.aggregateBody c r q us (s.hub.isObserver e.hdr))) ∧
    (∀ (f : W64) (mode : Byte), s.hub.admits 0x0602 hdr = true → mode.toNat ≤ 2 → scopeFault sb 9 = none →
      let sc := scopeOf sb (h0.session hdr.session)
      let may := h0.isObserver hdr = false ∨ mode = 0
      (¬ may → s.refuses (.counterFreeze hdr f mode sb) 0x0602 hdr .denied []) ∧
      (may → s.hub.measuring = true → s.refuses (.counterFreeze hdr f mode sb) 0x0602 hdr .badState []) ∧
      (∀ t, may → s.hub.measuring = false → leadInstant (h0.issueAt 1) 200 30000 f.toNat = some t →
        s.completes (.counterFreeze hdr f mode sb) (icpBlocks ++ [.agents, .arrays, .slot]) fun h =>
          (h.slot.map (·.prog)) = some (.freeze t (s.hub.arrays.freezeId + 1)) ∧
          h.arrays.freezeId = s.hub.arrays.freezeId + 1 ∧ h.arrays.totals = s.hub.arrays.totals ∧ h.arrays.bank = s.hub.arrays.bank ∧
          (∃ x ∈ h.arrays.freezes, (x.freezeId, x.instant, x.mode, x.scope) = (s.hub.arrays.freezeId + 1, t, mode.toNat, sc.1)) ∧
          (∀ x ∈ h.arrays.freezes, x.freezeId ≠ s.hub.arrays.freezeId + 1 → s.hub.pt < x.instant →
            x.taken .west = true ∧ x.taken .east = true) ∧
          (s.hub.rootOpen = true → ∃ b, Out.bcast b ∈ h.out ∧ b.cls = 1 ∧ b.instant = t ∧ b.scope = sc.1))) ∧
    (∀ x, s.hub.dueAt u 1 = some x → let mode := bits x.arg.toNat 31 30
      (a.cnt.snapState ≠ 2 → mode < 2 → s.completes (.freezeInstant u) [.agents] fun h => s.hub.othersKeep h u ∧
        (h.agent u).cnt.snap = (a.settle s.hub.pt).cnt.light ∧ (h.agent u).cnt.snapPt = s.hub.pt ∧
        (h.agent u).cnt.snapState = mode + 1 ∧ (h.agent u).cnt.light = (a.settle s.hub.pt).cnt.light ∧
        (unitCore u = true → (h.agent u).cnt.unpushed = {} ∧ (h.agent u).cnt.tagged.length = a.cnt.tagged.length + 1)) ∧
      (a.cnt.snapState = 2 → mode < 2 → s.completes (.freezeInstant u) [.agents] fun h => s.hub.othersKeep h u ∧
        (h.agent u).cnt.snap = a.cnt.snap ∧ (h.agent u).cnt.snapState = 2 ∧ (h.agent u).cnt.refused = true) ∧
      (a.cnt.snapState = 2 → mode = 2 → s.completes (.freezeInstant u) [.agents] fun h => s.hub.othersKeep h u ∧
        (h.agent u).cnt.snap = a.cnt.snap ∧ (h.agent u).cnt.snapState = 1)) ∧
    (a.powered = true → unitCore u = true → unitHasAgent u = true → a.replicaLoaded = true → s.hub.pt % 1000 = 0 →
      s.hub.retired u = false → a.cnt.tagged = [] →
      s.completes (.counterPush u) [.agents, .arrays] fun h => s.hub.othersKeep h u ∧ (h.agent u).cnt.unpushed = {} ∧
        h.arrayTotals u = (s.hub.arrayTotals u).add (a.settle s.hub.pt).cnt.unpushed) ∧
    (s.hub.pt % 1000 ≠ 0 → s.completes (.counterPush u) [] fun _ => True) ∧
    (∀ p rest, s.hub.retired u = false → a.cnt.tagged = p :: rest →
      s.completes (.taggedPush u) [.agents, .arrays] fun h =>
        (h.agent u).cnt.tagged = rest ∧ h.arrayTotals u = (s.hub.arrayTotals u).add p.incr ∧ s.hub.othersKeep h u) ∧
    (a.cnt.tagged = [] → s.completes (.taggedPush u) [] fun _ => True)) ∧
  (∀ (s : State) (k : Half),
    (∀ f, s.hub.toTake k = some f → s.completes (.arrayProvisional k) [.arrays] fun h =>
      (∃ x ∈ h.arrays.freezes, x.freezeId = f.freezeId ∧ x.taken k = true) ∧ h.arrays.totals = s.hub.arrays.totals ∧
      ∀ u ∈ lightUnits, h.bankEntry u = if u ∉ s.hub.frozenIn f k ∨ ordinalOf u ∈ f.pushed then s.hub.bankEntry u
        else (s.hub.bankEntry u).provisional f (s.hub.arrayTotals u)) ∧
    (s.hub.toTake k = none → s.completes (.arrayProvisional k) [] fun _ => True) ∧
    (∀ f, s.hub.toFinish k = some f → s.completes (.arrayFinalize k) [.arrays] fun h =>
      (∃ x ∈ h.arrays.freezes, x.freezeId = f.freezeId ∧ x.done k = true) ∧ h.arrays.totals = s.hub.arrays.totals ∧
      ∀ u ∈ lightUnits, h.bankEntry u = if u ∉ s.hub.frozenIn f k then s.hub.bankEntry u
        else s.hub.finalEntry f u (s.hub.bankEntry u)) ∧
    (s.hub.toFinish k = none → s.completes (.arrayFinalize k) [] fun _ => True))

/-- TRACE_REGION_SET takes a region while no source is enabled, and restarts every stream, as TRACE_RESTART does:
nothing held, line 0, no trigger taken, the settings kept (R223, R226, R228, R230); a collector whose configuration
port refuses the controller keeps its stream (R357). While a source is enabled it is refused with BAD_STATE, and
with the first faulty field otherwise. TRACE_QUERY first writes the partly filled lines out, and scans from its
cursor on; it is answered with items of 32 octets and a tail of 64 when every selected collector has been scanned,
or MAX_MATCHES are found; TRACE_STATUS answers the region and every collector's registers (R237 to R240, Table
9-10). That a query with no region scans nothing, that intake and line are written first, and that TRACE_STATUS has
no TRIGGERS_IGNORED are log entry 51. -/
def Obligations.TraceStreamsRestartAndAreQueried : Prop :=
  (∀ (s : State) (hdr : Hdr) (base size k : W64) (mode flags : Byte),
    let set : Instr := .traceRegionSet hdr base size mode flags k
    let fresh := fun (h : Hub) => h.trace.triggerTaken = false ∧ h.trace.ignored = 0 ∧ h.trace.markId = s.hub.trace.markId ∧
      ∀ c, c < 32 → (s.hub.stageOpen (collectorStage c) = true → h.collector c = (s.hub.collector c).restart) ∧
        ((s.hub.taken hdr).refuses (collectorStage c) = true → h.collector c = s.hub.collector c)
    let baseOk := s.hub.traceBaseBad base.toNat 1 = false
    let sizeOk := traceSizeBad size.toNat = false
    let fits := baseOk ∧ sizeOk ∧ s.hub.traceBaseBad base.toNat size.toNat = false
    let bad := fun o => s.refuses set 0x0500 hdr .badArg (badArgBody o 0)
    (∀ c : Collector, let r := c.restart
      (r.lineSeq, r.line, r.intake, r.marks, r.gap, r.frozen, r.triggered, r.wakeLevel) =
        (0, [], [], [], none, false, false, c.wakeLevel)) ∧
    (s.hub.admits 0x0500 hdr = true →
      (s.hub.tracing = true → s.refuses set 0x0500 hdr .badState []) ∧
      (s.hub.tracing = false →
        (¬ baseOk → bad 0) ∧ (baseOk → ¬ sizeOk → bad 8) ∧
        (baseOk → sizeOk → s.hub.traceBaseBad base.toNat size.toNat = true → bad 0) ∧
        (fits → 2 < mode.toNat → bad 16) ∧ (fits → mode.toNat ≤ 2 → 1 < flags.toNat → bad 17) ∧
        (fits → mode.toNat ≤ 2 → flags.toNat ≤ 1 → size.toNat / 2048 ≤ k.toNat → bad 24) ∧
        (fits → mode.toNat ≤ 2 → flags.toNat ≤ 1 → k.toNat < size.toNat / 2048 →
          s.answers (.traceRegionSet hdr base size mode flags k) 0x0500 hdr [.trace] [] fun h => fresh h ∧ h.trace.isSet = true ∧
            (h.trace.base, h.trace.size, h.trace.mode, h.trace.k) = (base.toNat, size.toNat, mode.toNat, k.toNat) ∧
            h.trace.onHang = flags.getLsbD 0))) ∧
    (s.hub.admits 0x0502 hdr = true → s.answers (.traceRestart hdr) 0x0502 hdr [.trace] [] fun h => fresh h ∧
      h.trace.isSet = s.hub.trace.isSet ∧ (h.trace.base, h.trace.size, h.trace.mode, h.trace.k, h.trace.onHang) =
        (s.hub.trace.base, s.hub.trace.size, s.hub.trace.mode, s.hub.trace.k, s.hub.trace.onHang))) ∧
  (∀ (s : State) (hdr : Hdr) (q : QuerySpec),
    (s.hub.admits 0x0505 hdr = true → queryFault q = none → ∃ t, exec (.traceQuery hdr q) s = .next t ∧
      t.pending = s.pending ∧ t.mem = (collectorNumbers.foldl Hub.flushLine (s.hub, s.mem)).2 ∧
      s.hub.onlyIn (icpBlocks ++ [.trace, .slot]) t.hub ∧
      ∃ r, (t.hub.slot.map (·.prog)) = some (.query r) ∧ r.spec = q ∧ r.scan = {} ∧ r.place = none ∧ r.todo.map (·.1) =
        if s.hub.trace.isSet then collectorNumbers.filter fun c => q.collectors.getLsbD c && decide (q.startCollector.toNat ≤ c)
        else []) ∧
    (∀ (e : Exec) (r : QueryRun), s.hub.slot = some e → e.prog = .query r → e.mute = false → e.transport = s.hub.transport →
      (r.todo = [] → s.hub.onlyIn (replyBlocks ++ [.slot]) (s.hub.queryStep s.mem) ∧ (s.hub.queryStep s.mem).slot = none ∧
        s.hub.replied (s.hub.queryStep s.mem) e.opcode.toNat e.hdr .ok
          (r.scan.items.reverse.flatten ++ r.scan.tail r.cursor false false)) ∧
      (∀ c last rest start next, r.todo = (c, last) :: rest → r.place = some (start, next) → s.hub.oldestLine c ≤ next →
        start ≤ next → next < last → r.spec.maxMatches.toNat ≤ r.scan.count →
        s.hub.onlyIn (replyBlocks ++ [.slot]) (s.hub.queryStep s.mem) ∧ (s.hub.queryStep s.mem).slot = none ∧
        s.hub.replied (s.hub.queryStep s.mem) e.opcode.toNat e.hdr .ok
          (r.scan.items.reverse.flatten ++ r.scan.tail (c, next) true false))) ∧
    (∀ pt c l n v, (queryItem pt c l n v).length = 32) ∧ (∀ (x : Scan) c more bound, (x.tail c more bound).length = 64) ∧
    (∀ o, s.hub.admits 0x0505 hdr = true → queryFault q = some o →
      s.refuses (.traceQuery hdr q) 0x0505 hdr .badArg (badArgBody o 0)) ∧
    (s.hub.admits 0x0506 hdr = true → s.answers (.traceStatus hdr) 0x0506 hdr []
      (le 8 s.hub.trace.base ++ le 8 s.hub.trace.size ++ le 1 s.hub.trace.mode ++ List.replicate 7 0 ++ le 8 s.hub.trace.k ++
        collectorNumbers.flatMap s.hub.collectorBytes) fun _ => True))

/-- TRACE_CONFIG stages the settings at every agent that answers, once the silent ones have answered or timed out, and
commits them at one instant; TRACE_MARK and a trigger that acts deliver a Mark to every collector that is on,
neither frozen nor halted, and takes the controller's access (R218, R226, R229, R244, R304, R357). None of them runs
while the hub measures (R79). That a trigger which does not act is only counted is log entry 15, that STAGED counts
agents log entry 51. -/
def Obligations.TraceIsConfiguredAndMarked : Prop :=
  ∀ (s : State) (hdr : Hdr) (at_ : W64) (v : W32), let h0 := s.hub.taken hdr
    let marked := fun (h : Hub) (t : Nat) (trigger : Bool) (origin : BitVec 4) => h.trace.markId = s.hub.trace.markId + 1 ∧
      ∀ c, c < 32 → (s.hub.domainOn (6 + c / 16) = false → h.collector c = s.hub.collector c) ∧
        (s.hub.domainOn (6 + c / 16) = true → s.hub.stageOpen (collectorStage c) = true →
          (h.collector c).marks = (s.hub.collector c).marks ++
            if (s.hub.collector c).frozen || (s.hub.collector c).safeHalt then []
            else [MarkReq.mk t v origin trigger 0 (s.hub.trace.markId + 1)])
    (s.hub.measuring = true → (s.hub.admits 0x0504 hdr = true → s.refuses (.traceMark hdr at_ v) 0x0504 hdr .badState []) ∧
      (s.hub.admits 0x0503 hdr = true → s.refuses (.traceTrigger hdr at_ v) 0x0503 hdr .badState []) ∧
      ∀ es : List TraceEntry, s.hub.admits 0x0501 hdr = true → es.length ≤ 254 →
        s.refuses (.traceConfig hdr at_ es) 0x0501 hdr .badState []) ∧
    (∀ (entries : List TraceEntry), s.hub.admits 0x0501 hdr = true → s.hub.measuring = false →
      let l := h0.traceUnits entries
      let on := l.filter fun u => h0.answers u
      (254 < entries.length → s.refuses (.traceConfig hdr at_ entries) 0x0501 hdr .badArg (badArgBody 8 0)) ∧
      (entries.length ≤ 254 → h0.commitInstant on at_.toNat = none →
        s.refuses (.traceConfig hdr at_ entries) 0x0501 hdr .badArg (badArgBody 0 0)) ∧
      (∀ t, entries.length ≤ 254 → h0.commitInstant on at_.toNat = some t →
        ((∀ u ∈ l, h0.silent u = false) → s.answers (.traceConfig hdr at_ entries) 0x0501 hdr [.agents]
          (le 8 t ++ le 4 on.length ++ le 4 (l.length - on.length)) fun h =>
            (s.hub.rootOpen = true → ∃ b, Out.bcast b ∈ h.out ∧ (b.cls, b.instant, b.scope, b.arg) = (4, t, .chip, 1)) ∧
            ∀ u ∈ on, (s.hub.agent u).applyUntil ≤ s.hub.pt → (h.agent u).staging =
              (traceWrites entries u).foldl (fun m w => memWrite m w.1 w.2) (s.hub.agent u).staging) ∧
        ((∃ u ∈ l, h0.silent u = true) → s.completes (.traceConfig hdr at_ entries) (icpBlocks ++ [.slot]) fun h =>
          (h.slot.map (·.prog)) = some (.gather (l.filter h0.silent) (.traceConfig hdr at_ entries))))) ∧
    (s.hub.measuring = false → s.hub.admits 0x0504 hdr = true →
      (h0.markAt at_.toNat = none → s.refuses (.traceMark hdr at_ v) 0x0504 hdr .badArg (badArgBody 0 0)) ∧
      ∀ t, h0.markAt at_.toNat = some t →
        s.answers (.traceMark hdr at_ v) 0x0504 hdr [.trace] (le 8 t ++ le 4 (s.hub.trace.markId + 1).toNat) fun h =>
          marked h t false 0) ∧
    (s.hub.measuring = false → s.hub.admits 0x0503 hdr = true →
      (h0.markAt at_.toNat = none → s.refuses (.traceTrigger hdr at_ v) 0x0503 hdr .badArg (badArgBody 0 0)) ∧
      ∀ t, h0.markAt at_.toNat = some t →
        (s.hub.trace.triggerActs = true → s.answers (.traceTrigger hdr at_ v) 0x0503 hdr [.trace] (le 8 t) fun h =>
          h.trace.triggerTaken = true ∧ marked h t true 4) ∧
        (s.hub.trace.triggerActs = false → s.answers (.traceTrigger hdr at_ v) 0x0503 hdr [.trace] (le 8 t) fun h =>
          h.trace = { s.hub.trace with ignored := sat32 (s.hub.trace.ignored + 1) }))

/-- An engine's command begins and ends, and what its settings ask for is kept by its collector while there is room, and
dropped with a gap while there is none (R214, R215, R231, R235); an engine whose clocks are gated does nothing. -/
def Obligations.EnginesAreTraced : Prop :=
  ∀ (s : State) (src : SourceId), let u := sourceUnit src
    let e := sourceEngine src
    let a := s.hub.agent u
    let i := collectorOf u
    let c := s.hub.collector i
    let kept := fun (h : Hub) => (h.collector i).accepted = sat64 (c.accepted + 1) ∧
      (mapGet {} (h.collector i).mirrors src.toNat).written = (mapGet {} c.mirrors src.toNat).written + 1
    let room := a.replicaLoaded = true ∧ c.safeHalt = false ∧ c.frozen = false ∧ c.held < 512
    unitHasAgent u = true → e < engineCount u → a.powered = true →
    (∀ ev, a.engineGated e = true → s.completes (.traceRecord src ev) [] fun _ => True) ∧
    (a.engineGated e = false →
      (∀ tag cls, (a.engine e).running = none → s.completes (.traceRecord src (.begin tag cls)) [.agents, .trace, .free] fun h =>
        (((h.agent u).engine e).running.map fun r => (r.tag, r.beginPt)) = some (tag, s.hub.pt) ∧
        ((h.agent u).engine e).origin = a.ungated s.hub.pt ∧ ((h.agent u).engine e).expired = false ∧ s.hub.othersKeep h u ∧
        ((a.engine e).wants 1 = true → (a.engine e).kM1 = 0 → (emits u e).1 = true → room → kept h)) ∧
      (∀ r err, (a.engine e).running = some r → a.stepRun = none →
        s.completes (.traceRecord src (.finish r.tag err)) [.agents, .trace, .free] fun h =>
          ((h.agent u).engine e).running = none ∧ ((h.agent u).engine e).origin = a.ungated s.hub.pt ∧
          ((h.agent u).engine e).expired = false ∧ s.hub.othersKeep h u ∧
          ((a.engine e).wants 2 = true → (a.engine e).kM1 = 0 → (emits u e).1 = true → room → kept h)) ∧
      (∀ tag err, (∀ r, (a.engine e).running = some r → r.tag ≠ tag) →
        s.completes (.traceRecord src (.finish tag err)) [] fun _ => True) ∧
      (∀ new prev, (a.engine e).wants 3 = true → (emits u e).2.1 = true → room →
        s.completes (.traceRecord src (.modelSwitch new prev)) [.trace] kept) ∧
      (∀ tag gen ident, (a.engine e).wants 4 = true → (emits u e).2.2 = true →
        (room → s.completes (.traceRecord src (.barrier tag gen ident)) [.trace] kept) ∧
        (a.replicaLoaded = true → c.safeHalt = false → c.frozen = false → 512 ≤ c.held →
          s.completes (.traceRecord src (.barrier tag gen ident)) [.trace, .free] fun h =>
            (h.collector i).dropped = sat32 (c.dropped + 1) ∧ (h.collector i).gap.isSome = true ∧
            (mapGet {} (h.collector i).mirrors src.toNat).drops = sat32 ((mapGet {} c.mirrors src.toNat).drops + 1) ∧
            (h.collector i).intake = c.intake) ∧
        (a.replicaLoaded = true → c.safeHalt = false → c.frozen = true →
          s.completes (.traceRecord src (.barrier tag gen ident)) [.trace] fun h =>
            (h.collector i).frozenDrops = sat32 (c.frozenDrops + 1) ∧ (h.collector i).intake = c.intake)) ∧
      (∀ tag gen ident, (a.engine e).wants 4 = false → s.completes (.traceRecord src (.barrier tag gen ident)) [] fun _ => True))

/-- A line that is full, or whose first record entered it 10 us ago, is written to its place in the collector's sub-
region: 64 octets and no other byte of memory, and the next line is the next number (R220, R221, R224). Otherwise
nothing is written. A gap closes with a Gap and a Fix once there is room; the periodic Fix, a Mark at its instant
and a source's Closed take their place after what the collector holds, and enter its line as there is room; a frozen
collector writes none of them; a frozen or full collector wakes the hub once its image is verified (R81, R218, R222,
R226, R232, R235, R243, R417). When the periodic Fix is written is log entry 52, that the collector's own records go
into the intake log entry 49. -/
def Obligations.CollectorsKeepAndWriteStreams : Prop :=
  (∀ (s : State) (i : Nat), i < 32 →
    let h := s.hub.fillLine i
    let c := h.collector i
    let a := h.trace.lineAddr i c.lineSeq
    let due := c.line.length = 4 ∨ (c.line ≠ [] ∧ c.lineSincePt + 10000 ≤ s.hub.pt)
    (s.hub.collecting1 i = true → due → ∃ t, exec (.lineWrite i) s = .next t ∧ t.pending = s.pending ∧
      s.hub.onlyIn [.trace] t.hub ∧ (t.hub.collector i).lineSeq = c.lineSeq + 1 ∧
      (∀ x, x < a ∨ a + 64 ≤ x → memByte t.mem x = memByte s.mem x) ∧
      (∀ k, k < 64 → memByte t.mem (a + k) = (lineBytes c.line).getD k 0)) ∧
    (s.hub.collecting1 i = true → ¬ due → s.completes (.lineWrite i) [.trace] fun h' => h' = h) ∧
    (s.hub.collecting1 i = false → s.completes (.lineWrite i) [] fun _ => True)) ∧
  (∀ (s : State) (i : Nat), i < 32 → let c := s.hub.collector i
    let runs := c.frozen = false ∧ c.safeHalt = false
    let takes := fun (h : Hub) (x : Collector) =>
      h.collector i = if s.hub.collecting1 i then x.fillFuel i s.hub.pt 4 else x
    (∀ g, runs → c.gap = some g → c.held < 512 → s.completes (.gapClose i) [.trace] fun h =>
      takes h { c with gap := none, intake := c.intake ++ [g.record i, fixDueRec 1 g.lastPt] }) ∧
    (¬ runs → s.completes (.gapClose i) [] fun _ => True) ∧
    (runs → c.wroteSince = true ∨ c.line ≠ [] ∨ c.intake ≠ [] → s.completes (.periodicFix i) [.trace] fun h =>
      takes h { c with intake := c.intake ++ [fixDueRec 2 s.hub.pt] }) ∧
    (¬ runs ∨ (c.wroteSince = false ∧ c.line = [] ∧ c.intake = []) → s.completes (.periodicFix i) [] fun _ => True) ∧
    (let due (trigger : Bool) := c.marks.filter fun x => x.trigger == trigger && decide (x.instant ≤ s.hub.pt)
      let written (trigger : Bool) (m : MarkReq) (h : Hub) : Prop := takes h { c with
        marks := c.marks.filter fun x => !(x.trigger == trigger && decide (x.instant ≤ s.hub.pt)),
        intake := c.intake ++ [m.record s.hub.red.holder] }
      (∀ m, runs → due false = [m] → s.completes (.markInstant i) [.trace] (written false m)) ∧
      (∀ m, runs → due true = [m] → s.completes (.triggerInstant i) [.trace] (written true m)) ∧
      (due false = [] → s.completes (.markInstant i) [.trace] fun h => h.collector i = c) ∧
      (due true = [] → s.completes (.triggerInstant i) [.trace] fun h => h.collector i = c)) ∧
    (∀ src, collectorOf (sourceUnit src) = i → let m := mapGet {} c.mirrors src.toNat
      (∀ reason pt, runs → m.closing = some (reason, pt) → pt ≤ s.hub.pt → s.completes (.sourceClosed src) [.trace] fun h =>
        takes h { c with mirrors := mapSet {} c.mirrors src.toNat { m with closing := none },
                         intake := c.intake ++ [m.closedRec src reason pt] }) ∧
      (m.closing = none → s.completes (.sourceClosed src) [] fun _ => True)) ∧
    (s.hub.mayBoot = true → c.frozen = true ∨ (c.wakeLevel ≠ 0 ∧ c.wakeLevel.toNat ≤ c.held) →
      s.completes (.collectorWake i) [.power, .red, .dcn] fun h => ∀ d ∈ [2, 3, 4, 5, 18], h.domainOn d = true) ∧
    (c.frozen = false → c.wakeLevel = 0 ∨ c.held < c.wakeLevel.toNat → s.completes (.collectorWake i) [] fun _ => True))

/-- SOUNDING_SET arms a sounding whose number is free for its session, once the silent agents have answered or timed
out, committed at TC; SOUNDING_CLEAR ends it with a final posting at TD; SOUNDING_KEY changes the session's key
alone; SOUNDING_READ and SOUNDING_STATUS answer (R275 to R279, R283). The COMMIT is sent where the root's injector
takes it (R357). The order of BAD_STATE and the clear of an unarmed sounding are log entry 53, the POST_SEQ a clear
answers log entry 54, that a number is busy until its final posting is written log entry 100. -/
def Obligations.SoundingsAreArmedAndRead : Prop :=
  ∀ (s : State) (hdr : Hdr) (ses : Session), let h0 := s.hub.taken hdr
    h0.session hdr.session = some ses →
    (∀ (p : SoundingSpec), s.hub.admits 0x0700 hdr = true → let sc := scopeOf p.scope (some ses)
      let l := h0.tapUnits sc.1 sc.2 p.tapMask
      let on := l.filter fun u => h0.answers u
      let free := (s.hub.sounding p.number.toNat).isBusy s.hub.pt = false ∧ s.hub.measuring = false
      let may := free ∧ (ses.role = .observer → p.persist = 0)
      (¬ free → s.refuses (.soundingSet hdr p) 0x0700 hdr .badState []) ∧
      (free → ¬ may → s.refuses (.soundingSet hdr p) 0x0700 hdr .denied []) ∧
      (∀ o, may → h0.soundFault p sc.1 sc.2 = some o → s.refuses (.soundingSet hdr p) 0x0700 hdr .badArg (badArgBody o 0)) ∧
      (may → h0.soundFault p sc.1 sc.2 = none → h0.commitInstant on p.tc.toNat = none →
        s.refuses (.soundingSet hdr p) 0x0700 hdr .badArg (badArgBody (soundTcOffset p.scope.units.length) 0)) ∧
      (∀ tc, may → h0.soundFault p sc.1 sc.2 = none → h0.commitInstant on p.tc.toNat = some tc →
        ((∀ u ∈ l, h0.silent u = false) → s.answers (.soundingSet hdr p) 0x0700 hdr [.agents, .soundings]
          (le 8 tc ++ le 4 ((on.map fun u => (tapsNamed u p.tapMask).length).foldl (· + ·) 0)) fun h =>
            let x := h.sounding p.number.toNat
            x.armed = true ∧ (x.owner, x.format, x.stats, x.key, x.tc, x.lastPt) = (ses.tag, p.format, p.stats, ses.soundKey, tc, tc) ∧
            x.periodNs = 1000 * p.periodUs.toNat ∧ x.depth = p.depth.toNat ∧ x.ring = [] ∧ x.td = none ∧
            (s.hub.rootOpen = true → ∃ b, Out.bcast b ∈ h.out ∧ (b.cls, b.instant, b.arg) = (4, tc, 2))) ∧
        ((∃ u ∈ l, h0.silent u = true) → s.completes (.soundingSet hdr p) (icpBlocks ++ [.slot]) fun h =>
          (h.slot.map (·.prog)) = some (.gather (l.filter h0.silent) (.soundingSet hdr p))))) ∧
    (∀ (n : Byte) (td : W64), s.hub.admits 0x0701 hdr = true → let x := s.hub.sounding n.toNat
      let may := x.isArmed s.hub.pt = true ∧ x.td = none ∧ s.hub.measuring = false
      (¬ may → s.refuses (.soundingClear hdr n td) 0x0701 hdr .badState []) ∧
      (may → h0.commitInstant (h0.holders n.toNat) td.toNat = none →
        s.refuses (.soundingClear hdr n td) 0x0701 hdr .badArg (badArgBody 8 0)) ∧
      (∀ t, may → h0.commitInstant (h0.holders n.toNat) td.toNat = some t →
        s.answers (.soundingClear hdr n td) 0x0701 hdr [.agents, .soundings] (le 8 t ++ le 4 x.postSeq.toNat) fun h =>
          (h.sounding n.toNat).td = some t ∧ (h.sounding n.toNat).ring = x.ring ∧
          (s.hub.rootOpen = true → ∃ b, Out.bcast b ∈ h.out ∧ (b.cls, b.instant, b.arg) = (4, t, 2)))) ∧
    (∀ key, key.length = 16 → s.hub.admits 0x0702 hdr = true → s.answers (.soundingKey hdr key) 0x0702 hdr [] [] fun h =>
      h.island.sessions = h0.island.sessions.map (fun x => if x.tag = hdr.session then { x with soundKey := key } else x) ∧
      h.island.otp = s.hub.island.otp) ∧
    (∀ (n max : Byte) (seq : W32), s.hub.admits 0x0703 hdr = true →
      ((s.hub.sounding n.toNat).readable ses = true → s.answers (.soundingRead hdr n max seq) 0x0703 hdr []
        ((((s.hub.sounding n.toNat).ring.filter fun b => decide (seq.toNat ≤ slotSeq b)).take max.toNat).flatten) fun _ => True) ∧
      ((s.hub.sounding n.toNat).readable ses = false → s.refuses (.soundingRead hdr n max seq) 0x0703 hdr .denied [])) ∧
    (s.hub.admits 0x0704 hdr = true → s.answers (.soundingStatus hdr) 0x0704 hdr []
      ((List.range 256).flatMap fun k => (s.hub.sounding k).statusBytes s.hub.pt) fun _ => True)

/-- A beat of an engine whose clocks run writes its octets and no others, to external memory or to slice SRAM; every
slot of the engine processes it, with its number in the command; an engine whose clocks are gated writes nothing; in
a command step a beat to anything but the unit's own SRAM is held in its outbound buffer, and no memory changes
(R178, R179, R265, R274). A due posting is admitted within its budget: its words are collected, each agent moves its
accumulators at the instant, and the finished posting enters the ring under the next POST_SEQ; one that is not due,
not admitted or not collected waits (R280 to R283). That the budget allows no burst and the order of the own-
combiner words are log entry 54, the scope of a posting log entry 101. -/
def Obligations.BeatsAndPostings : Prop :=
  (∀ (s : State) (u : UnitId) (e : Nat) (b : Beat), let a := s.hub.agent u
    a.powered = true → e < tapEngines u → b.data.length ≤ 64 →
    (a.engineGated e = true → s.completes (.writebackBeat u e b) [] fun _ => True) ∧
    (a.engineGated e = false → let n := (a.engine e).beatNumber b.tag
      ∃ t, exec (.writebackBeat u e b) s = .next t ∧ t.pending = s.pending ∧ s.hub.onlyIn [.agents] t.hub ∧
      ((t.hub.agent u).taps = a.taps.map fun x => if x.1 / 4 == e then (x.1, (x.2.beat n b).1) else x) ∧
      ((t.hub.agent u).engine e).beatNumber b.tag = n + 1 ∧
      (s.hub.crossesFence u b.address = true → t.mem = s.mem ∧ s.hub.othersKeep t.hub u ∧
        (t.hub.agent u).outbound = a.outbound ++ [(e, b.address, b.data)]) ∧
      (∀ x, x < b.address ∨ b.address + b.data.length ≤ x → memByte t.mem x = memByte s.mem x) ∧
      (s.hub.crossesFence u b.address = false → s.hub.sliceAt b.address = none →
        inMemory s.hub.chip.tier1 b.address b.data.length = true ∨ inMemory s.hub.chip.tier2 b.address b.data.length = true →
        memRead t.mem b.address b.data.length = b.data) ∧
      (∀ v o, s.hub.crossesFence u b.address = false → s.hub.sliceAt b.address = some (v, o) → o + b.data.length ≤ 0x100000 → t.mem = s.mem ∧
        (t.hub.agent v).sram = sramWrite (s.hub.agent v).sram o b.data))) ∧
  (∀ (s : State) (n : Nat), let x := s.hub.sounding n
    let room := s.hub.fc.safe = false ∧ s.hub.accepting = true ∧ s.hub.olderDue n x = false ∧ s.hub.postingRoom = true ∧
      s.hub.soundBudget ≤ 11 * s.hub.pt
    (∀ t k final, x.due s.hub.pt = some (t, k, final) → room →
      s.completes (.postingInstant n) [.dcn, .soundings, .soundBudget, .red, .out] fun h =>
        ((h.sounding n).posting.map fun p => (p.instant, p.fromPt, p.periods, p.final)) = some (t, x.lastPt, k, final) ∧
        h.soundBudget = 11 * s.hub.pt + 10 * postingCost x.stats ∧ ∀ m, m ≠ n → h.sounding m = s.hub.sounding m) ∧
    (x.due s.hub.pt = none ∨ ¬ room → s.completes (.postingInstant n) [] fun _ => True) ∧
    (∀ u p, x.posting = some p → let moves := (s.hub.agent u).powered = true ∧ (s.hub.agent u).replicaLoaded = true ∧
        p.instant ≤ s.hub.pt ∧ (s.hub.agent u).inScope u (postScope x.scope) 5 = true
      (moves → s.completes (.postingEdge u n) [.agents] fun h => h.agent u = (s.hub.agent u).postEdge n p.instant ∧
        s.hub.othersKeep h u) ∧
      (¬ moves → s.completes (.postingEdge u n) [] fun _ => True)) ∧
    (∀ u, x.posting = none → s.completes (.postingEdge u n) [] (fun _ => True) ∧ s.completes (.postingWrite n) [] fun _ => True) ∧
    (∀ p, x.posting = some p → let whole := s.hub.fc.safe = false ∧ p.todo = [] ∧ p.words.length = (wordsFor x.stats).length
      (whole → x.ctrl.getLsbD 3 = false ∨ s.hub.slot = none →
        s.completes (.postingWrite n) [.agents, .soundings, .trace] fun h => let y := h.sounding n
          y.postSeq = x.postSeq + 1 ∧ y.posting = none ∧ y.lastPt = p.instant ∧ y.armed = !p.final ∧
          (∀ m, m ≠ n → h.sounding m = s.hub.sounding m) ∧
          (x.ring.length < x.depth → y.ring = x.ring ++ [x.slotBytes n p] ∧ y.overwritten = x.overwritten) ∧
          (x.depth ≤ x.ring.length → y.ring = (x.ring ++ [x.slotBytes n p]).drop 1 ∧ y.overwritten = x.overwritten + 1)) ∧
      (¬ whole → s.completes (.postingWrite n) [] fun _ => True)))

/-- REPLAY reads its inputs: where one has changed it answers INPUT_CHANGED; else it arms the replay sounding of its
first spare; it is refused while the hub measures, with no sounding number left whose ring has room (log entry 158),
and with its first faulty field; REPLAY_STATUS answers the result of the latest (R284 to R287). The command front
end's answers within their bounds act on the oldest request they answer, a later one on none; with no answer in its
bound a request is an event and has failed; a reissued run ends with its engine's command, and a replay's is posted
200 ns later; with the crossbar in dump mode no controller is in self-refresh (R59, R60, R190, R286, R319). -/
def Obligations.ReplayAndFrontEnd : Prop :=
  (∀ (s : State) (hdr : Hdr) (p : ReplaySpec), let h0 := s.hub.taken hdr
    let key := ((h0.session hdr.session).map (·.soundKey)).getD (List.replicate 16 0)
    let r := h0.readInputs s.mem key p.ranges
    let numbers := h0.freeSoundings.filter fun n => decide (h0.depthUsed n + (replaySpares p).length ≤ 1024)
    let free := s.hub.measuring = false ∧ (replaySpares p).length ≤ numbers.length
    (s.hub.admits 0x0705 hdr = true →
      (¬ free → s.refuses (.replay hdr p) 0x0705 hdr .badState []) ∧
      (∀ o, free → h0.replayFault p = some o → s.refuses (.replay hdr p) 0x0705 hdr .badArg (badArgBody o 0)) ∧
      (free → h0.replayFault p = none →
        (r.2 = false → s.answers (.replay hdr p) 0x0705 hdr [.replayStat, .slot]
          (ReplayStat.bytes { verdict := 6, inputs := r.1 }) fun h => h.replayStat = { verdict := 6, inputs := r.1 } ∧
            h.slot = none) ∧
        (r.2 = true → s.completes (.replay hdr p) (icpBlocks ++ [.agents, .soundings, .slot]) fun h =>
          ∃ run tc, (h.slot.map (·.prog)) = some (.replay run) ∧ run.spec = p ∧ run.armAt = some tc ∧ run.inputs = r.1 ∧
            run.numbers = numbers.take (replaySpares p).length ∧ run.spares = replaySpares p ∧
            let x := h.sounding (run.numbers.getD 0 0)
            x.armed = true ∧ x.key = key ∧ x.ctrl.getLsbD 3 = true ∧ x.units = [p.spare0] ∧ x.tc = tc))) ∧
    (s.hub.admits 0x0706 hdr = true → s.answers (.replayStatus hdr) 0x0706 hdr [] s.hub.replayStat.bytes fun _ => True)) ∧
  (∀ (s : State), let asked := fun a => takeRequest (fun q => FeAnswer.answers a q && decide (s.hub.pt ≤ q.sentPt + feBound q.req)) s.hub.fe.requests
    let late := fun r => takeRequest (fun x => x.req == r && decide (x.sentPt + feBound r ≤ s.hub.pt)) s.hub.fe.requests
    (∀ a, asked a = none → s.completes (.frontEndAnswer a) [] fun _ => True) ∧
    (∀ a q rest, asked a = some (q, rest) →
      (∀ n, a = .dropped n → s.completes (.frontEndAnswer a) [.agents, .fc, .fe] fun h =>
        h.fe.requests = rest ∧ h.fe.runs = (s.hub.fe.runs.filter fun r => !q.covers r.unit) ∧
        h.fe.droppedRuns = s.hub.fe.droppedRuns ++ s.hub.fe.runs.filter (fun r => q.covers r.unit) ∧
        (∀ p ∈ h.agents, p.2.powered = true → q.covers (unitOf p.1) = true → ∀ e ∈ p.2.engines, e.2.running = none) ∧
        (∀ p ∈ s.hub.agents, q.covers (unitOf p.1) = false → p ∈ h.agents) ∧
        ∀ x ∈ h.fc.all, q.units = [] → q.record = some x.seq → x.discarded = n.toNat) ∧
      (∀ us, a = .quiesced us → s.hub.patRun = none → s.completes (.frontEndAnswer a) [.agents, .fe] fun h => h.fe.requests = rest ∧
        ∀ u ∈ q.units, u ∈ us → u ∈ h.fe.quiesced) ∧
      (a = .resumed → s.hub.patRun = none → s.completes (.frontEndAnswer a) [.fe] fun h => h.fe.requests = rest ∧
        ∀ u, u ∈ h.fe.quiesced ↔ u ∈ s.hub.fe.quiesced ∧ u ∉ q.units) ∧
      (∀ u, s.hub.replayRun u = none → s.hub.patRun = none →
        (a = .reissueAccepted u true → s.completes (.frontEndAnswer a) [.fe] fun h => h.fe.requests = rest ∧
          h.fe.runs = s.hub.fe.runs ++ [{ unit := u, engine := q.engine, scratch := q.scratch, startPt := s.hub.pt }]) ∧
        (a = .reissueAccepted u false → s.completes (.frontEndAnswer a) [.fe] fun h => h.fe.requests = rest ∧
          h.fe.runs = s.hub.fe.runs)) ∧
      (a = .dumpModeEntered → s.hub.waitingDump = none → s.completes (.frontEndAnswer a) [.agents, .fe] fun h =>
        h.fe.dumpMode = true ∧ h.fe.requests = rest ∧
        h.agents = s.hub.agents.map fun p => (p.1, { p.2 with selfRefresh := false })) ∧
      (a = .dumpModeExited → s.completes (.frontEndAnswer a) [.fe] fun h => h.fe.dumpMode = false ∧ h.fe.requests = rest)) ∧
    (∀ r q rest, late r = some (q, rest) → s.hub.slot = none → s.completes (.frontEndTimeout r) faultBlocks fun h =>
        s.hub.counted h 0xFC1 ∧ ∃ l, h.fe.requests = rest ++ l) ∧
    (∀ r, late r = none → s.completes (.frontEndTimeout r) [] fun _ => True) ∧
    (∀ u run err, (s.hub.fe.runs.find? fun r => r.unit == u) = some run → let a := s.hub.agent u
      (a.engineGated run.engine = true ∨ a.powered = false → s.completes (.reissueEnd u err) [] fun _ => True) ∧
      (a.engineGated run.engine = false → a.powered = true → s.hub.patRun = none →
        s.completes (.reissueEnd u err) [.agents, .trace, .fe, .soundings, .free] fun h =>
          ((h.agent u).engine run.engine).running = none ∧ (∀ r ∈ h.fe.runs, r.unit ≠ u) ∧ s.hub.othersKeep h u ∧
          (s.hub.replayRun u = none → h.soundings = s.hub.soundings) ∧
          ∀ r, s.hub.replayRun u = some r → (h.sounding (r.numbers.getD r.now 0)).postAt = some (s.hub.pt + 200))) ∧
    (∀ u err, (s.hub.fe.runs.find? fun r => r.unit == u) = none → s.completes (.reissueEnd u err) [] fun _ => True))

/-- DUMP_REGION_SET takes a region that passes R185's checks, and empties registry and image; images enter the registry
with the hashes of their granules and leave it; DUMP_STATUS and DUMP_FETCH read the image (R185, R187, R201, R212). -/
def Obligations.DumpRegionAndRegistry : Prop :=
  ∀ (s : State) (hdr : Hdr), let h0 := s.hub.taken hdr; let d := s.hub.dump
    (∀ base size, s.hub.admits 0x0400 hdr = true → let n := dumpSize size.toNat; let b := base.toNat
      let bad := b % 0x200000 ≠ 0 ∨ inMemory s.hub.chip.tier2 b n = false ∨
        (s.hub.trace.isSet = true ∧ overlap b n s.hub.trace.base s.hub.trace.size = true)
      let badSize := n % 0x10000000 ≠ 0 ∨ n < 0x40000000 ∨ 0x100000000 < n
      (bad → s.refuses (.dumpRegionSet hdr base size) 0x0400 hdr .badArg (badArgBody 0 0)) ∧
      (¬ bad → badSize → s.refuses (.dumpRegionSet hdr base size) 0x0400 hdr .badArg (badArgBody 8 0)) ∧
      (¬ bad → ¬ badSize → s.answers (.dumpRegionSet hdr base size) 0x0400 hdr [.dump] [] fun h =>
        (h.dump.isSet, h.dump.base, h.dump.size) = (true, b, n) ∧ h.dump.images = [] ∧ h.dump.granules = [] ∧
        (h.dump.hasImage, h.dump.state, h.dump.imageBytes) = (false, false, 0) ∧ h.dump.dumpId = d.dumpId)) ∧
    (∀ imageId address length i, s.hub.admits 0x0404 hdr = true → let n := length.toNat
      let g := addGranules i d.granules (h0.granuleHashes s.mem address.toNat n)
      (d.isSet = false → s.refuses (.dumpImageRegister hdr imageId address length) 0x0404 hdr .badState []) ∧
      (d.isSet = true → inMemory (s.hub.chip.tier1 ++ s.hub.chip.tier2) address.toNat n = true → n % 0x10000 = 0 →
        n ≤ 0x100000000 → lowestFree (d.images.map (·.index)) 4096 = some i → g.length ≤ 262144 →
        s.answers (.dumpImageRegister hdr imageId address length) 0x0404 hdr [.dump]
          ([] |> put 2 i |> put 4 (d.registryGen + 1).toNat) fun h =>
            (∃ x ∈ h.dump.images, (x.index, x.imageId, x.length, x.granules) = (i, fit 32 imageId, n, n / 0x10000)) ∧
            (∀ x ∈ h.dump.images, x.index ≠ i → x ∈ d.images) ∧ h.dump.registryGen = d.registryGen + 1 ∧
            (∃ l, h.dump.granules = d.granules ++ l) ∧
            ∀ x ∈ h0.granuleHashes s.mem address.toNat n, ∃ y ∈ h.dump.granules, y.1 = x.1)) ∧
    (∀ index : W16, s.hub.admits 0x0405 hdr = true →
      ((d.images.any fun x => x.index == index.toNat) = true → s.answers (.dumpImageRemove hdr index) 0x0405 hdr [.dump]
        (le 4 (d.registryGen + 1).toNat) fun h => h.dump.registryGen = d.registryGen + 1 ∧
          (∀ x ∈ h.dump.images, x.index ≠ index.toNat) ∧ ∀ g ∈ h.dump.granules, g.2.1 ≠ index.toNat) ∧
      ((d.images.any fun x => x.index == index.toNat) = false →
        s.refuses (.dumpImageRemove hdr index) 0x0405 hdr .badArg (badArgBody 0 0))) ∧
    (s.hub.admits 0x0406 hdr = true → s.answers (.dumpImageList hdr) 0x0406 hdr []
      (le 4 d.registryGen.toNat ++ zeros 4 ++ d.images.flatMap DumpImage.bytes) fun _ => True) ∧
    (s.hub.admits 0x0402 hdr = true → s.answers (.dumpStatus hdr) 0x0402 hdr []
      ([] |> put 4 d.dumpId.toNat |> put 1 (b2n d.state) |> put 4 d.flags.toNat |> put 8 d.imageBytes) fun _ => True) ∧
    (∀ (id : W32) (off len : W64), s.hub.admits 0x0403 hdr = true →
      let stale := d.hasImage = false ∨ d.state = false ∨ d.dumpId ≠ id
      (stale → s.refuses (.dumpFetch hdr id off len) 0x0403 hdr .badState []) ∧
      (¬ stale → d.imageBytes < off.toNat + len.toNat →
        s.refuses (.dumpFetch hdr id off len) 0x0403 hdr .badArg (badArgBody 16 0)) ∧
      (¬ stale → off.toNat + len.toNat ≤ d.imageBytes → s.answers (.dumpFetch hdr id off len) 0x0403 hdr []
        (memRead s.mem (d.base + 0x1000000 + off.toNat) len.toNat) fun _ => True))

/-- DUMP is refused until a chip-scope stop is complete; accepted, it takes the next DUMP_ID, writes a header with STATE
0 at the image base, and asks for dump mode, or in dump mode writes the hang log and the image list at once; with
every unit and page read it ends with STATE 1; a unit that leaves is listed once, and what is still to be read of it
has entries with LEFT (R188, R189, R194, R210). When each piece is read and where bodies stand before the tail is
log entry 105, which sections of a unit that has left have entries log entry 151. At its bound the executing command
ends with BOUND_REACHED and what it has done so far, and not before; a dump closes its image first; RUN_PATTERNS
takes no further unit and waits for those that run; a command that always completes within its bound is left alone
(R211, R376, Table 16-5; the bodies answered by UNIT_RETIRE, by DUMP and by commands to agents are log entries 71,
105 and 114). -/
def Obligations.DumpsBeginAndBoundsEnd : Prop :=
  (∀ (s : State) (hdr : Hdr), let d := s.hub.dump; let base := d.base + 0x1000000
    (∀ flags regions, s.hub.admits 0x0401 hdr = true →
      (s.hub.dumpable = none → s.refuses (.dump hdr flags regions) 0x0401 hdr .badState []) ∧
      (∀ n o, s.hub.dumpable = some n → s.hub.dumpFault flags regions = some o →
        s.refuses (.dump hdr flags regions) 0x0401 hdr .badArg (badArgBody o 0)) ∧
      (∀ n, s.hub.dumpable = some n → s.hub.dumpFault flags regions = none →
        ∃ t, exec (.dump hdr flags regions) s = .next t ∧ t.pending = s.pending ∧
          s.hub.onlyIn (icpBlocks ++ [.dump, .slot, .fe]) t.hub ∧
          (t.hub.dump.dumpId, t.hub.dump.state, t.hub.dump.hasImage) = (d.dumpId + 1, false, true) ∧
          memRead t.mem base 8 = ascii "IXYDUMP1" ∧ memByte t.mem (base + 20) = 0 ∧
          ∃ e run, t.hub.slot = some e ∧ e.prog = .dump run ∧ run.flags = flags ∧ run.regions = regions ∧
            run.startPt = s.hub.pt ∧ run.reading = s.hub.fe.dumpMode ∧
            (s.hub.fe.dumpMode = false →
              t.hub.fe.requests = s.hub.fe.requests ++ [{ req := .dumpModeEnter, units := [], sentPt := s.hub.pt }] ∧
              ∀ a, a < base ∨ base + 256 ≤ a → memByte t.mem a = memByte s.mem a) ∧
            (s.hub.fe.dumpMode = true → t.hub.fe = s.hub.fe ∧
              ∀ a, a < base ∨ base + run.cursor ≤ a → memByte t.mem a = memByte s.mem a))) ∧
    (∀ e run, s.hub.slot = some e → e.prog = .dump run → run.reading = true → run.todo = [] → run.done = [] → run.pages = [] →
      let x := s.hub.dumpStep s.mem
      x.1.slot = none ∧ (x.1.dump.state, x.1.dump.hasImage, x.1.dump.dumpId) = (true, true, d.dumpId) ∧
      s.hub.onlyIn (replyBlocks ++ [.dump, .slot]) x.1 ∧ (e.mute = false → e.transport = s.hub.transport →
        ∃ header, s.hub.replied x.1 e.opcode.toNat e.hdr .ok (le 4 run.dumpId.toNat ++ header)) ∧
      ∀ a, a < base ∨ base + x.1.dump.imageBytes ≤ a → memByte x.2 a = memByte s.mem a) ∧
    (∀ u r e run, s.hub.slot = some e → e.prog = .dump run → unitHasAgent u = true →
      let at_ := run.todo.find? fun x => x.1 == u
      let begun := if (run.todo.head?).any fun x => x.1 == u then run.types else none
      let leaves := ∀ x, at_ = some x → x.2 ≠ 1 ∧ x.2 ≠ 2 ∧ (x.2 = 3 → begun.isSome = true)
      ((at_ = none ∧ u ∉ run.done) ∨ ¬ leaves → s.completes (.unitPresenceChange u r) [] fun _ => True) ∧
      (at_ ≠ none ∨ u ∈ run.done → leaves →
        s.completes (.unitPresenceChange u r) [.slot] fun h => ∃ e' run', h.slot = some e' ∧ e'.prog = .dump run' ∧
          (∀ p ∈ run'.todo, p ∈ run.todo ∧ p.1 ≠ u) ∧
          (∀ x, at_ = some x → ∀ y ∈ leftSections u x.2 (s.hub.agent u).written (begun.getD (run.typesOfLeft u)), y ∈ run'.sections) ∧
          (run'.unreach.filter fun x => x.unit == u).length = max 1 (run.unreach.filter fun x => x.unit == u).length ∧
          ∀ x ∈ run'.unreach, x ∈ run.unreach ∨ ((x.unit, x.reason, x.pt) = (u, leaveCode r, s.hub.pt) ∧ ∀ y ∈ run.unreach, y.unit ≠ u))) ∧
    (∀ u r, s.hub.slot = none → s.completes (.unitPresenceChange u r) [] fun _ => True)) ∧
  (∀ (s : State), let idle := s.completes .opcodeBoundEnd [] fun _ => True
    (s.hub.slot = none → idle) ∧
    (∀ e, s.hub.slot = some e →
      let ends (n : Nat) (bs : List Block) (body : List Byte) : Prop := e.startPt + n ≤ s.hub.pt →
        s.completes .opcodeBoundEnd (replyBlocks ++ [.slot] ++ bs) fun h =>
          s.hub.replied h e.opcode.toNat e.hdr .boundReached body ∧ h.slot = none
      let wide (sc : Scope) : Nat := if sc = .mask then 70000 else 50000
      (s.hub.boundNs e = none → idle) ∧
      (∀ n, s.hub.boundNs e = some n → s.hub.pt < e.startPt + n → idle) ∧
      (e.prog ∈ [.cancel, .lifecycle, .inject] ∨ (∃ tr, e.prog = .resume tr) ∨ (∃ q sc us, e.prog = .aggregate q sc us) ∨
        (∃ us hdr sb, e.prog = .gather us (.counterSnapshotRead hdr sb)) ∨
        (∃ u hdr v sp off data, e.prog = .access u (.inspectWrite hdr v sp off data)) → idle) ∧
      (e.mute = false → e.transport = s.hub.transport →
        (∀ m, e.prog = .stop → s.hub.stops.newest = some m → ends (wide m.scope) [] (s.hub.stopBody m)) ∧
        (∀ t d a, e.prog = .stepCheck t d a ∨ e.prog = .cycles t d → ends 150000 [] (s.hub.cyclesBody e t d)) ∧
        (∀ u lim, e.prog = .cmdStep u lim → ends (1000 * lim + 100000) [] (s.hub.stepBody u)) ∧
        (∀ f id, e.prog = .freeze f id → ends (wide (s.hub.arrays.freezeScope id).1) [] (s.hub.freezeBody e f id)) ∧
        (∀ r, e.prog = .query r → ends 2000000000 [] (r.scan.reply r.cursor false true)) ∧
        (∀ r, e.prog = .replay r → ends 2000000000 [.replayStat] (ReplayStat.bytes
          { verdict := 0, flags := 4 * (r.spec.options &&& 1), runs := r.results, inputs := r.inputs })) ∧
        (e.prog = .resync → ends 3000000 [] [4]) ∧
        (∀ u, e.prog = .retire u → ends 250000 [] (s.hub.retireBody false)) ∧
        (∀ u hdr a n, e.prog = .access u (.regRead hdr a n) → ends 1000000 [.dcn] []) ∧
        (∀ u hdr a l, e.prog = .access u (.regWrite hdr a l) → ends 1000000 [.dcn] (le 2 0)) ∧
        (∀ u hdr v sp off n, e.prog = .access u (.inspectRead hdr v sp off n) →
          ends (1000000 + streamNs e.transport n.toNat) [.dcn] []) ∧
        (∀ u hdr ts v en lim, e.prog = .access u (.stepCommand hdr ts v en lim) →
          ends (1000 * lim.toNat + 100000) [.dcn] (s.hub.stepBody u)) ∧
        (∀ us hdr w sb, e.prog = .gather us (.counterRead hdr w sb) → ends 10000000 [.dcn] []) ∧
        (∀ us hdr sb, e.prog = .gather us (.counterClear hdr sb) → ends 500000 [.dcn] (le 4 0 ++ le 4 us.length)) ∧
        (∀ us hdr tc l, e.prog = .gather us (.traceConfig hdr tc l) → ends 500000 [.dcn] (le 8 0 ++ le 4 0 ++ le 4 us.length)) ∧
        (∀ us hdr x, e.prog = .gather us (.soundingSet hdr x) → ends 500000 [.dcn] (le 8 0 ++ le 4 0)) ∧
        (∀ r, e.prog = .patterns r → e.startPt + 10000000000 + r.extraNs ≤ s.hub.pt →
          (r.bound = true → idle) ∧
          (r.bound = false → r.finishing = false → r.group ≠ [] → s.completes .opcodeBoundEnd [.slot] fun h => ∃ x,
            (h.slot.map fun y => y.prog) = some (.patterns x) ∧ x.bound = true ∧ x.todo = [] ∧ x.group = r.group ∧
            x.patterns = r.patterns.take 1 ∧ x.notRun = if !r.started || decide (1 < r.patterns.length) then r.units
              else r.notRun ++ r.todo)) ∧
        (∀ run, e.prog = .dump run → e.startPt + 2000000000 ≤ s.hub.pt → ∃ t, exec .opcodeBoundEnd s = .next t ∧
          t.pending = s.pending ∧ s.hub.onlyIn (replyBlocks ++ [.dump, .slot]) t.hub ∧ t.hub.slot = none ∧
          t.hub.dump.state = true ∧ (∃ body, s.hub.replied t.hub e.opcode.toNat e.hdr .boundReached body) ∧
          ∀ a, a < s.hub.dump.base + 0x1000000 → memByte t.mem a = memByte s.mem a))))

/-- A pack is taken in pieces and passes the four checks of R337 in order before it is stored, in place of an older
version, and mirrored; packs leave by PATTERN_REMOVE and when their key is revoked; keys fill the lowest free slot
(R334, R337 to R339). The layout of the flash, and what a mirror that cannot be written names, is log entry 59,
PATTERN_KEY_REVOKE of an empty slot log entry 137. -/
def Obligations.PacksAreCheckedAndStored : Prop :=
  ∀ (s : State) (hdr : Hdr), let pat := s.hub.pat
    (∀ off tot final data, s.hub.admits 0x0A00 hdr = true → let i := Instr.patternLoad hdr off tot final data
      (∀ o, takePiece pat.part hdr.session off.toNat tot.toNat data = .inr o →
        s.completes i (icpBlocks ++ [.pat]) fun h => s.hub.replied h 0x0A00 hdr .badArg (badArgBody o 0) ∧
          h.pat.part = none ∧ h.pat.packs = pat.packs) ∧
      (∀ p, takePiece pat.part hdr.session off.toNat tot.toNat data = .inl p →
        (final = 0 → s.answers (.patternLoad hdr off tot final data) 0x0A00 hdr [.pat] [] fun h => h.pat.part = some p ∧ h.pat.packs = pat.packs) ∧
        (final ≠ 0 → s.hub.storeSound = true → let b := p.bytes
          let id : W64 := BitVec.ofNat 64 (fieldAt b 16 8)
          let sound := b.length = p.total ∧ (parsePack b).isSome
          let refused (st : Status) (body : List Byte) := s.completes i (icpBlocks ++ [.pat]) fun h =>
            s.hub.replied h 0x0A00 hdr st body ∧ h.pat.packs = pat.packs ∧ h.pat.part = none
          let old := s.hub.packById id
          let others := pat.packs.filter fun q => q.packId != id
          let index := match old with | some q => some q.index | none => lowestFree (others.map (·.index)) 32
          let fresh := ∀ q, old = some q → q.version.toNat < fieldAt b 24 4 % 2 ^ 32
          (¬ sound → refused .badArg (badArgBody 0xFFFFFFFF 0)) ∧
          (sound → s.hub.island.otp.packSigned b = false → refused .denied []) ∧
          (sound → s.hub.island.otp.packSigned b = true →
            (¬ fresh → refused .badArg (badArgBody 0xFFFFFFFF 0)) ∧
            (fresh → index = none → refused .badState []) ∧
            (∀ k, fresh → index = some k → let q : Pack := {
                packId := id, version := BitVec.ofNat 32 (fieldAt b 24 4), signer := b.getD 11 0, slot := b.getD 12 0
                patterns := fieldAt b 28 2, index := k, bytes := b }
              let used := ({ pat with packs := others ++ [q] } : Patterns).pagesUsed
              (4096 < used → refused .badState []) ∧
              (used ≤ 4096 → (b.length + 65535) / 65536 ≤ pat.flash.freeBlocks.length →
                s.answers i 0x0A00 hdr [.pat] [] fun h => h.pat.part = none ∧ h.pat.packs = others ++ [q] ∧
                  h.pat.flash.dirSeq = pat.flash.dirSeq + 1 ∧ h.pat.flash.holdsPack q = true ∧
                  (old.isSome → ∀ x ∈ h.pat.results, x.pack ≠ k)) ∧
              (used ≤ 4096 → pat.flash.freeBlocks.length < (b.length + 65535) / 65536 →
                s.completes i (icpBlocks ++ faultBlocks) fun h => s.hub.counted h 0xFE9 ∧ h.pat.packs = others ++ [q] ∧
                  h.pat.flash.dirSeq = pat.flash.dirSeq)))))) ∧
    (∀ id, s.hub.admits 0x0A01 hdr = true → s.hub.storeSound = true →
      (s.hub.packById id = none → s.refuses (.patternRemove hdr id) 0x0A01 hdr .badArg (badArgBody 0 0)) ∧
      ((s.hub.packById id).isSome → s.answers (.patternRemove hdr id) 0x0A01 hdr [.pat] [] fun h =>
        h.pat.packs = (pat.packs.filter fun q => q.packId != id) ∧
        ∀ x ∈ h.pat.results, x ∈ pat.results ∧ ∀ q ∈ pat.packs, q.packId = id → x.pack ≠ q.index)) ∧
    (s.hub.admits 0x0A02 hdr = true → s.hub.storeSound = true → s.answers (.patternList hdr) 0x0A02 hdr []
      (pat.packs.flatMap fun q => fit 24 (le 8 q.packId.toNat ++ le 4 q.version.toNat ++ le 2 q.patterns ++
        [q.signer, q.slot] ++ le 2 q.pages ++ le 2 (b2n (!pat.flash.holdsPack q)))) fun _ => True) ∧
    (∀ key, s.hub.admits 0x0A03 hdr = true → let l := s.hub.island.otp.fleet
      ((key.length ≠ 97 ∨ key.head? ≠ some 0x04) →
        s.refuses (.patternKeyRegister hdr key) 0x0A03 hdr .badArg (badArgBody 0 0)) ∧
      (key.length = 97 → key.head? = some 0x04 →
        (8 ≤ l.length → s.refuses (.patternKeyRegister hdr key) 0x0A03 hdr .badState []) ∧
        (l.length < 8 → s.answers (.patternKeyRegister hdr key) 0x0A03 hdr [] (le 1 l.length) fun h =>
          h.island.otp.fleet = l ++ [{ hash := sha384 key, revoked := false }]))) ∧
    (∀ slot : Byte, s.hub.admits 0x0A04 hdr = true → s.hub.storeSound = true → let l := s.hub.island.otp.fleet
      (l.length ≤ slot.toNat → s.refuses (.patternKeyRevoke hdr slot) 0x0A04 hdr .badArg (badArgBody 0 0)) ∧
      (∀ k, l[slot.toNat]? = some k → s.answers (.patternKeyRevoke hdr slot) 0x0A04 hdr [.pat] [] fun h =>
        h.island.otp.fleet[slot.toNat]? = some { k with revoked := true } ∧
        ∀ q ∈ h.pat.packs, q ∈ pat.packs ∧ ¬ (q.signer = 1 ∧ q.slot = slot)))

/-- RUN_PATTERNS is refused in the cases of R342; else it requests QUIESCE for its units; a run over its limit has its
unit's work dropped; with a run left of the group it goes on (R342 to R344). -/
def Obligations.PatternsRunInGroups : Prop :=
  ∀ (s : State) (hdr : Hdr) (id : W64) (pn : W16) (flags : Byte) (lim : W16) (us : List UnitId),
    let i := Instr.runPatterns hdr id pn flags lim us
    let barred := s.hub.stops.standing ≠ [] ∨ s.hub.fe.dumpMode = true ∨ s.hub.dump.isSet = false ∨
      (s.hub.dump.imageInTest = true ∧ flags.getLsbD 0 = false)
    (s.hub.admits 0x0A05 hdr = true → s.hub.storeSound = true →
      (barred → s.refuses i 0x0A05 hdr .badState []) ∧
      (∀ o, ¬ barred → s.hub.patternsFault id pn flags lim us = .inl o → s.refuses i 0x0A05 hdr .badArg (badArgBody o 0)) ∧
      (∀ p, ¬ barred → s.hub.patternsFault id pn flags lim us = .inr p →
        ∃ t, exec (.runPatterns hdr id pn flags lim us) s = .next t ∧ t.pending = s.pending ∧ s.hub.onlyIn (icpBlocks ++ [.dump, .slot, .fe]) t.hub ∧
          (∃ e run, t.hub.slot = some e ∧ e.prog = .patterns run ∧ run.packIndex = p.index ∧ run.units = us ∧
            run.runLimit = lim.toNat ∧ run.patterns = if pn = 0xFFFF then p.numbers else [pn]) ∧
          t.hub.fe.requests = s.hub.fe.requests ++ [{ req := .quiesce, units := us, sentPt := s.hub.pt }] ∧
          (s.hub.dump.imageInTest = false → t.mem = s.mem ∧ t.hub.dump = s.hub.dump) ∧
          (s.hub.dump.imageInTest = true → t.hub.dump.state = false ∧
            memByte t.mem (s.hub.dump.base + 0x1000000 + 20) = 0 ∧
            ∀ a, a < s.hub.dump.base + 0x1000000 ∨ s.hub.dump.base + 0x1000100 ≤ a → memByte t.mem a = memByte s.mem a))) ∧
    (∀ u e run, s.hub.slot = some e → e.prog = .patterns run →
      (∀ g, (run.group.find? fun g => g.unit == u && g.accepted && decide (g.startPt + 1000 * run.runLimit ≤ s.hub.pt)) =
          some g →
        ∃ t, exec (.runLimitExpiry u) s = .next t ∧ t.pending = s.pending ∧
          s.hub.onlyIn (replyBlocks ++ [.pat, .fe, .slot]) t.hub ∧
          (∀ a, a < s.hub.dump.testBase ∨ s.hub.dump.testBase + 0x4000000 ≤ a → memByte t.mem a = memByte s.mem a) ∧
          (∃ l, t.hub.fe.requests = s.hub.fe.requests ++ { req := .dropInflight, units := [u], sentPt := s.hub.pt } :: l) ∧
          ((∃ x ∈ run.group, x.unit ≠ u) → t.mem = s.mem ∧ ∃ e' run', t.hub.slot = some e' ∧ e'.prog = .patterns run' ∧
            run'.group = run.group.filter fun x => x.unit != u)) ∧
      ((∀ g ∈ run.group, g.unit ≠ u ∨ g.accepted = false ∨ s.hub.pt < g.startPt + 1000 * run.runLimit) →
        s.completes (.runLimitExpiry u) [] fun _ => True))

/-- Results are read, cleared and mirrored, at most once in 60 s; candidates are listed, exported with the identity
key's signature, and removed; a reload takes the directory in force, or, where its block fails its CRC, the older
one, or none, and brings packs and candidates back from flash, without a content that is not good; changed results
or lost counts are what the mirror is written for (R339, R341, R345, R347, R348, R351). What becomes of contents
with a bad CRC is log entry 60, a reload with no good directory log entry 161. -/
def Obligations.ResultsAndCandidates : Prop :=
  ∀ (s : State) (hdr : Hdr), let pat := s.hub.pat
    (∀ pack : Byte, let all := (pack.toNat ≤ 31 ∨ pack = 0xFF)
      (s.hub.admits 0x0A06 hdr = true →
        (¬ all → s.refuses (.patternResults hdr pack) 0x0A06 hdr .badArg (badArgBody 0 0)) ∧
        (all → s.hub.storeSound = true → let l := pat.results.filter fun x => pack == 0xFF || x.pack == pack.toNat
          s.answers (.patternResults hdr pack) 0x0A06 hdr []
            ((List.range 1956).flatMap fun o => (l.filter fun x => x.ordinal == o).flatMap ResultEntry.bytes) fun _ => True)) ∧
      (s.hub.admits 0x0A07 hdr = true →
        (¬ all → s.refuses (.patternResultsClear hdr pack) 0x0A07 hdr .badArg (badArgBody 0 0)) ∧
        (all → s.hub.storeSound = true → s.answers (.patternResultsClear hdr pack) 0x0A07 hdr [.pat] [] fun h =>
          h.pat.results = (pat.results.filter fun x => !(pack == 0xFF || x.pack == pack.toNat)) ∧
          h.pat.packs = pat.packs ∧ h.pat.candidates = pat.candidates))) ∧
    (s.hub.admits 0x0A08 hdr = true → s.hub.storeSound = true → s.answers (.candidateList hdr) 0x0A08 hdr []
      (pat.candidates.flatMap fun c => fit 24 (le 4 c.seq.toNat ++ le 1 c.verdict ++ zeros 3 ++ le 8 c.capturePt ++ le 4 c.size))
      fun _ => True) ∧
    (∀ n : W32, s.hub.storeSound = true →
      (s.hub.admits 0x0A09 hdr = true →
        ((pat.candidates.find? fun c => c.seq == n) = none →
          s.refuses (.candidateExport hdr n) 0x0A09 hdr .badArg (badArgBody 0 0)) ∧
        (∀ c, (pat.candidates.find? fun c => c.seq == n) = some c →
          s.answers (.candidateExport hdr n) 0x0A09 hdr [] (s.hub.exportCandidate c) fun h =>
            h.island.signs = s.hub.island.signs + 1)) ∧
      (s.hub.admits 0x0A0A hdr = true →
        ((pat.candidates.any fun c => c.seq == n) = false →
          s.refuses (.candidateRemove hdr n) 0x0A0A hdr .badArg (badArgBody 0 0)) ∧
        ((pat.candidates.any fun c => c.seq == n) = true → s.answers (.candidateRemove hdr n) 0x0A0A hdr [.pat] [] fun h =>
          h.pat.candidates = (pat.candidates.filter fun c => c.seq != n) ∧ h.pat.packs = pat.packs))) ∧
    (s.hub.domainOn 17 = true → let newestGood := pat.flash.dirSeq.toNat % 2 ∉ pat.flash.corrupt
      (pat.reloading = true → newestGood → (∀ x ∈ pat.flash.items, s.hub.contentGood x = true) → s.completes .patternReload [.pat] fun h =>
        h.pat.reloading = false ∧ h.pat.flash = pat.flash ∧
        (∀ p, p ∈ h.pat.packs ↔ ∃ x ∈ pat.flash.items, x.data = .pack p) ∧
        (∀ c, c ∈ h.pat.candidates ↔ ∃ x ∈ pat.flash.items, x.data = .cand c)) ∧
      (∀ d, pat.reloading = true → ¬ newestGood → pat.flash.older = some d → d.dirSeq.toNat % 2 ∉ pat.flash.corrupt →
        (∀ x ∈ d.items, s.hub.contentGood x = true ∧ pat.flash.overwritten x = false) → s.completes .patternReload [.pat] fun h =>
          h.pat.reloading = false ∧ (h.pat.flash.dirSeq, h.pat.flash.items) = (d.dirSeq, d.items) ∧
          (∀ p, p ∈ h.pat.packs ↔ ∃ x ∈ d.items, x.data = .pack p) ∧
          (∀ c, c ∈ h.pat.candidates ↔ ∃ x ∈ d.items, x.data = .cand c)) ∧
      (pat.reloading = true → ¬ newestGood → (∀ d, pat.flash.older = some d → d.dirSeq.toNat % 2 ∈ pat.flash.corrupt) →
        s.completes .patternReload [.pat] fun h => h.pat.reloading = false ∧ h.pat.packs = [] ∧ h.pat.candidates = [] ∧
          h.pat.results = []) ∧
      (∀ x, pat.reloading = true → newestGood → pat.flash.bad = [] → (pat.flash.dirSeq + 1).toNat % 2 ∉ pat.flash.worn → (pat.flash.items.filter fun x => !s.hub.contentGood x) = [x] →
        s.completes .patternReload faultBlocks fun h => s.hub.counted h 0xFE9 ∧ h.pat.reloading = false ∧
          (∀ p ∈ h.pat.packs, ∃ y ∈ pat.flash.items, y.data = .pack p ∧ y ≠ x)) ∧
      (pat.reloading = false → s.completes .patternReload [] fun _ => True)) ∧
    (s.hub.domainOn 17 = false → s.completes .patternReload [] (fun _ => True) ∧ s.completes .resultsMirror [] fun _ => True) ∧
    (pat.changed = false → s.completes .resultsMirror [] fun _ => True) ∧
    (s.hub.storeSound = true → pat.changed = true →
      ((∀ t, pat.lastMirrorPt = some t → t + 60000000000 ≤ s.hub.pt) →
        max 1 ((16 * pat.results.length + 65535) / 65536) ≤ pat.flash.freeBlocks.length →
        s.completes .resultsMirror [.pat] fun h => h.pat.resultsDirty = false ∧ h.pat.changed = false ∧ h.pat.lastMirrorPt = some s.hub.pt ∧
          h.pat.results = pat.results ∧ h.pat.flash.dirSeq = pat.flash.dirSeq + 1) ∧
      (∀ t, pat.lastMirrorPt = some t → s.hub.pt < t + 60000000000 → s.completes .resultsMirror [] fun _ => True))

/-- PROBE_LOAD checks a program word by word and loads it; PROBE_START runs it from its first instant; PROBE_STOP
returns it to Loaded, where it waits for a load at the load's result, and drops its queued actions; PROBE_STATUS
answers the slot (R291 to R293, R306). How IMM14 is laid out, and START and STOP in the other states, are log entry
62; that ERROR is 0 after PROBE_LOAD and PROBE_STOP is log entry 132. -/
def Obligations.ProbeProgramsAreLoadedAndRun : Prop :=
  ∀ (s : State) (hdr : Hdr) (slot : Byte), let n := slot.toNat; let x := s.hub.probe.slot n
    let others (h : Hub) : Prop := ∀ k, k ≠ n → h.probe.slot k = s.hub.probe.slot k
    (∀ words, s.hub.admits 0x0800 hdr = true →
      (7 < n → s.refuses (.probeLoad hdr slot words) 0x0800 hdr .badArg (badArgBody 0 0)) ∧
      (n ≤ 7 → x.state.active = true → s.refuses (.probeLoad hdr slot words) 0x0800 hdr .badState []) ∧
      (n ≤ 7 → x.state.active = false →
        ((words = [] ∨ 256 < words.length) → s.refuses (.probeLoad hdr slot words) 0x0800 hdr .badArg (badArgBody 2 0)) ∧
        (words ≠ [] → words.length ≤ 256 →
          (∀ k, programFault words = some k →
            s.refuses (.probeLoad hdr slot words) 0x0800 hdr .badArg (badArgBody (4 + 4 * k) k)) ∧
          (programFault words = none → let stops := s.hub.inBlankOrTest = false ∧ (words.any probeWordStops) = true
            (stops → s.refuses (.probeLoad hdr slot words) 0x0800 hdr .denied []) ∧
            (¬ stops → s.answers (.probeLoad hdr slot words) 0x0800 hdr [.probe] [] fun h =>
              h.probe.slot n = { x with program := words, regs := [], state := .loaded, error := 0 } ∧ others h ∧
              h.probe.queue = s.hub.probe.queue))))) ∧
    (∀ (p : W32) (t : W64), s.hub.admits 0x0801 hdr = true →
      let barred := x.state = .empty ∨ x.state.active = true ∨ s.hub.measuring = true
      (7 < n → s.refuses (.probeStart hdr slot p t) 0x0801 hdr .badArg (badArgBody 0 0)) ∧
      (n ≤ 7 → barred → s.refuses (.probeStart hdr slot p t) 0x0801 hdr .badState []) ∧
      (n ≤ 7 → ¬ barred → p = 0 → s.refuses (.probeStart hdr slot p t) 0x0801 hdr .badArg (badArgBody 4 0)) ∧
      (n ≤ 7 → ¬ barred → p ≠ 0 → probeFirst s.hub.pt t.toNat = none →
        s.refuses (.probeStart hdr slot p t) 0x0801 hdr .badArg (badArgBody 8 0)) ∧
      (∀ f, n ≤ 7 → ¬ barred → p ≠ 0 → probeFirst s.hub.pt t.toNat = some f →
        s.answers (.probeStart hdr slot p t) 0x0801 hdr [.probe] (le 8 f) fun h =>
          h.probe.slot n = { x with state := .running, error := 0, stopping := false, periodUs := p.toNat, next := f, after := none } ∧
          others h)) ∧
    (s.hub.admits 0x0802 hdr = true →
      (7 < n → s.refuses (.probeStop hdr slot) 0x0802 hdr .badArg (badArgBody 0 0)) ∧
      (n ≤ 7 → s.answers (.probeStop hdr slot) 0x0802 hdr [.probe] [] fun h =>
        (h.probe.slot n = if x.state = .empty then x
          else if x.state = .evaluating ∧ x.waitReg.isSome then { x with stopping := true }
          else { x with state := .loaded, error := 0, waitPt := none }) ∧ others h ∧
        h.probe.queue = s.hub.probe.queue.filter fun a => a.slot != n)) ∧
    (s.hub.admits 0x0803 hdr = true →
      (7 < n → s.refuses (.probeStatus hdr slot) 0x0803 hdr .badArg (badArgBody 0 0)) ∧
      (n ≤ 7 → s.answers (.probeStatus hdr slot) 0x0803 hdr []
        (x.bytes ++ ((List.range 16).flatMap fun i => le 8 (x.reg i).toNat) ++ le 1 s.hub.probe.queue.length) fun _ => True))

/-- At its instant a program runs from index 0: each operation computes its register as R298 to R302 state, a branch
that is not taken changes nothing, an action enters the queue of 8, and END returns the slot to Running for the next
instant; an instant that comes while it still runs is skipped (R294, R296, R298 to R303). The next instant is one
period on, or the first that a sighting step has left while this one waited for the engine. -/
def Obligations.ProbeEvaluatesItsProgram : Prop :=
  ∀ (s : State) (n : Nat) (w : W32), let x := s.hub.probe.slot n
    let due := x.dueNow s.hub.pt = true ∧ x.stopping = false ∧ s.hub.domainOn 14 = true
    (due → x.state ≠ .running → s.completes (.probeEvaluation n) [.probe] fun h =>
      h.probe.slot n = { x with next := x.after.getD (x.next + 1000 * x.periodUs), after := none, skippedN := x.skippedN + 1 }) ∧
    (¬ due → s.completes (.probeEvaluation n) [] fun _ => True) ∧
    (due → x.state = .running → let lower := ∃ k, k < n ∧ (s.hub.probe.slot k).state = .running ∧ (s.hub.probe.slot k).dueNow s.hub.pt = true
      (s.hub.engineBusy = true ∨ lower → s.completes (.probeEvaluation n) [] fun _ => True) ∧
      (s.hub.engineBusy = false → ¬ lower → x.program = [w, 0] →
        let a := x.reg (raOf w); let b := x.reg (rbOf w); let k := b.toNat % 64
        let imm : W64 := BitVec.ofNat 64 (w.toNat % 2 ^ 14)
        let ran (v : W64) (short drop : Nat) (h : Hub) : Prop := let y := h.probe.slot n
          y.state = .running ∧ (y.next, y.after) = (x.after.getD (x.next + 1000 * x.periodUs), none) ∧ y.evals = x.evals + 1 ∧ y.instant = x.next ∧
          y.executed = 2 ∧ y.lag = max x.lag (s.hub.pt - x.next) ∧ y.partialLoads = x.partialLoads + short ∧
          y.dropped = x.dropped + drop ∧ (∀ r, r < 16 → y.reg r = if r = rdOf w then v else x.reg r) ∧
          ∀ m, m ≠ n → h.probe.slot m = s.hub.probe.slot m
        let done (v : W64) : Prop := s.completes (.probeEvaluation n) [.probe] fun h => ran v 0 0 h ∧ h.probe.queue = s.hub.probe.queue
        (opOf w = 1 → done (BitVec.ofInt 64 (BitVec.ofNat 22 w.toNat).toInt)) ∧
        (opOf w = 2 → done (BitVec.ofNat 64 ((x.reg (rdOf w)).toNat * 2 ^ 22 + w.toNat % 2 ^ 22))) ∧
        (opOf w = 4 → done (a + b)) ∧ (opOf w = 5 → done (a - b)) ∧ (opOf w = 6 → done (a &&& b)) ∧
        (opOf w = 7 → done (a ||| b)) ∧ (opOf w = 8 → done (a ^^^ b)) ∧ (opOf w = 9 → done (a <<< k)) ∧
        (opOf w = 10 → done (a >>> k)) ∧ (opOf w = 11 → done (a.sshiftRight k)) ∧ (opOf w = 12 → done (a * b)) ∧
        (opOf w = 13 → done (BitVec.ofNat 64 (min a.toNat b.toNat))) ∧
        (opOf w = 14 → done (BitVec.ofNat 64 (max a.toNat b.toNat))) ∧
        (opOf w = 16 → done (a + BitVec.ofInt 64 (BitVec.ofNat 14 w.toNat).toInt)) ∧ (opOf w = 17 → done (a &&& imm)) ∧
        (opOf w = 18 → done (a ||| imm)) ∧ (opOf w = 19 → imm14 w < 64 → done (a <<< imm14 w)) ∧
        (opOf w = 20 → imm14 w < 64 → done (a >>> imm14 w)) ∧
        (opOf w = 24 → condHolds (brCond w) (x.reg (brA w)) (x.reg (brB w)) = false ∨ brTarget w = 1 → done (x.reg (rdOf w))) ∧
        (opOf w = 32 → done (BitVec.ofNat 64 s.hub.pt)) ∧
        (opOf w = 33 → imm14 w / 4 ≠ 2 →
          (∀ v, s.hub.loadArray a (imm14 w) = some v → done (BitVec.ofNat 64 v)) ∧
          (s.hub.loadArray a (imm14 w) = none → s.completes (.probeEvaluation n) [.probe] fun h => ran 0 1 0 h)) ∧
        (opOf w = 34 → done (BitVec.ofNat 64
          (leNat ((((s.hub.sounding (a.toNat % 256)).ring.getLastD []).drop (8 * imm14 w)).take 8)))) ∧
        (opOf w = 35 → done (BitVec.ofNat 64 (s.hub.fc.source (a.toNat % 4096)).count)) ∧
        (opOf w = 36 → (imm14 w = 0 → done (BitVec.ofNat 64 s.hub.trig.inCount.toNat)) ∧
          (imm14 w = 1 → done (BitVec.ofNat 64 s.hub.trig.inPt)) ∧ (imm14 w = 2 → done (BitVec.ofNat 64 (b2n s.hub.stops.declared))) ∧
          (imm14 w = 3 → done (BitVec.ofNat 64 (((s.hub.stops.log.getLast?).map fun y => y.hangId.toNat).getD 0))) ∧
          (imm14 w = 4 → done (BitVec.ofNat 64 (sat32 x.evals))) ∧ (imm14 w = 5 → done (BitVec.ofNat 64 x.next)) ∧
          (imm14 w = 6 → done (BitVec.ofNat 64 s.hub.stops.stopId.toNat)) ∧
          (imm14 w = 7 → done (BitVec.ofNat 64 s.hub.arrays.freezeId.toNat)) ∧
          (imm14 w = 8 → done (BitVec.ofNat 64 (b2n s.hub.unsighted))) ∧ (imm14 w = 9 → done (BitVec.ofNat 64 s.hub.lcNat)) ∧
          (imm14 w = 10 → done (BitVec.ofNat 64 s.hub.ident.retiredGen.toNat))) ∧
        (opOf w = 40 → let act : ProbeAct := ⟨n, actOf w, a.setWidth 32, actArg w, s.hub.pt⟩
          (s.hub.probe.queue.length < 8 → s.completes (.probeEvaluation n) [.probe] fun h =>
            ran (x.reg (rdOf w)) 0 0 h ∧ h.probe.queue = s.hub.probe.queue ++ [act]) ∧
          (8 ≤ s.hub.probe.queue.length → s.completes (.probeEvaluation n) [.probe] fun h =>
            ran (x.reg (rdOf w)) 0 1 h ∧ h.probe.queue = s.hub.probe.queue))))

/-- Any evaluation ends: by END, at a WAITPT, at a load that waits for its COLLECT, or stopped with ERROR 1 after 4,096
instructions, with an event of the slot's source. WAITPT holds the evaluation until its PT; the wake timer turns
domain 14 on 20 us before the instant, with the domains the loads need (R294, R295, R297). Queued actions are
performed from the head of the queue while the safe state is not entered, by the controller that holds the claim in
force; a lead counts from the ACT, or after a failover as log entry 160 has it: FREEZE is issued, MARK and TRIGGER
power the collectors where these are off, SNAPSHOT takes a FREEZE_ID at its instant, RAISE is an event, and STOP
stops the chip in Blank and Test and is denied elsewhere (R303, R304). -/
def Obligations.ProbeWaitsOverrunsAndActs : Prop :=
  (∀ (s : State) (n : Nat), let x := s.hub.probe.slot n
    let due := x.dueNow s.hub.pt = true ∧ x.stopping = false ∧ s.hub.domainOn 14 = true ∧ x.state = .running ∧
      s.hub.engineBusy = false ∧ ∀ k, k < n → ¬ ((s.hub.probe.slot k).state = .running ∧ (s.hub.probe.slot k).dueNow s.hub.pt = true)
    let ended (h : Hub) : Prop := let y := h.probe.slot n
      y.state = .running ∨ y.state = .waiting ∨ (y.state = .evaluating ∧ y.waitReg.isSome) ∨ (y.state = .stopped ∧ y.error = 1)
    (due → s.completes (.probeEvaluation n) faultBlocks ended) ∧
    (due → x.program = [0x60000000] → n < 8 → s.completes (.probeEvaluation n) faultBlocks fun h =>
      (h.probe.slot n).state = .stopped ∧ (h.probe.slot n).error = 1 ∧ s.hub.counted h (0xFCB + n)) ∧
    (∀ w, due → x.program = [w, 0] → opOf w = 25 →
      (s.hub.pt < (x.reg (raOf w)).toNat → s.completes (.probeEvaluation n) [.probe] fun h =>
        (h.probe.slot n).state = .waiting ∧ (h.probe.slot n).waitPt = some (x.reg (raOf w)).toNat) ∧
      ((x.reg (raOf w)).toNat ≤ s.hub.pt → s.completes (.probeEvaluation n) [.probe] fun h =>
        (h.probe.slot n).state = .running ∧ (h.probe.slot n).executed = 2)) ∧
    (∀ w q op, due → x.program = [w, 0] → opOf w = 33 → imm14 w / 4 = 2 → q = bits (x.reg (raOf w)).toNat 15 0 → 0x0100 ≤ q →
      q ≤ 0x04FF → quantityOp q = some op → s.hub.collectRoom (.probe n) = true →
      s.completes (.probeEvaluation n) [.probe, .power, .dcn, .red, .out] fun h =>
        (h.probe.slot n).state = .evaluating ∧ (h.probe.slot n).waitReg = some (rdOf w) ∧
        ∃ c ∈ h.dcn.combines, (c.issuer, c.quantity, c.op, c.scope) = (.probe n, q, op, .chip)) ∧
    (∀ t, x.state = .waiting → x.waitPt = some t →
      (s.hub.pt < t ∨ s.hub.engineBusy = true → s.completes (.waitptResume n) [] fun _ => True) ∧
      (t ≤ s.hub.pt → s.hub.engineBusy = false → s.completes (.waitptResume n) faultBlocks ended ∧
        (x.executed < 4096 → x.program.getD (x.pc + 1) 0 = 0 → s.completes (.waitptResume n) [.probe] fun h =>
          (h.probe.slot n).state = .running ∧ (h.probe.slot n).waitPt = none ∧ (h.probe.slot n).executed = x.executed + 1))) ∧
    (x.state ≠ .waiting → s.completes (.waitptResume n) [] fun _ => True) ∧
    (x.state = .running → x.next ≤ s.hub.pt + 20000 → s.completes (.probeTimer n) [.power, .dcn] fun h =>
      h.domainOn 14 = true ∧ ∀ d ∈ programDomains x.program, h.domainOn d = true) ∧
    (x.state ≠ .running ∨ s.hub.pt + 20000 < x.next → s.completes (.probeTimer n) [] fun _ => True)) ∧
  (∀ (s : State), let q := s.hub.probe.queue
    let idle := s.completes .probeAction [] fun _ => True
    (q = [] ∨ s.hub.fc.safe = true ∨ s.hub.claimHeld = false → idle) ∧
    (∀ a rest, q = a :: rest → s.hub.fc.safe = false → s.hub.claimHeld = true → let x := s.hub.probe.slot a.slot
      let on := s.hub.domainOn 6 = true ∧ s.hub.domainOn 7 = true
      let acted (h : Hub) : Prop := h.probe.queue = rest ∧ (h.probe.slot a.slot).acts = x.acts + 1
      (a.action = 0 → (s.hub.accepting = false → idle) ∧ (s.hub.accepting = true →
        s.completes .probeAction [.probe, .power, .red, .dcn, .agents, .arrays, .out] fun h => acted h ∧
          h.arrays.freezeId = s.hub.arrays.freezeId + 1 ∧ ∃ f ∈ h.arrays.freezes, (f.freezeId, f.mode, f.scope, f.confirming) =
            (s.hub.arrays.freezeId + 1, a.arg.toNat % 4, .chip, true))) ∧
      (a.action = 1 ∨ a.action = 2 → (¬ on → s.completes .probeAction [.probe, .power, .dcn] fun h => acted h ∧
        h.domainOn 6 = true ∧ h.domainOn 7 = true)) ∧
      (a.action = 1 → on → s.completes .probeAction [.probe, .trace, .red, .out] fun h => acted h ∧
        h.trace.marked.getLast? = some (s.hub.actFrom a + 1000, false) ∧
        h.trace.markId = s.hub.trace.markId + 1 ∧ h.trace.triggerTaken = s.hub.trace.triggerTaken) ∧
      (a.action = 2 → on → s.completes .probeAction [.probe, .trace, .red, .out] fun h => acted h ∧
        h.trace.marked.getLast? = some (s.hub.actFrom a + 1000, s.hub.trace.triggerActs) ∧
        h.trace.markId = s.hub.trace.markId + 1 ∧ (s.hub.trace.triggerActs = true → h.trace.triggerTaken = true) ∧
        (s.hub.trace.triggerActs = false → h.trace.ignored = sat32 (s.hub.trace.ignored + 1))) ∧
      (a.action = 3 → (s.hub.pt < s.hub.actFrom a + 1000 → idle) ∧ (s.hub.actFrom a + 1000 ≤ s.hub.pt →
        s.completes .probeAction [.probe, .arrays] fun h => acted h ∧ h.arrays.freezeId = s.hub.arrays.freezeId + 1 ∧
          h.arrays.totals = s.hub.arrays.totals)) ∧
      (a.action = 4 → a.slot < 8 → s.completes .probeAction faultBlocks fun h => s.hub.counted h (0xFCB + a.slot)) ∧
      (5 ≤ a.action → s.hub.inBlankOrTest = false → s.completes .probeAction [.probe] fun h =>
        h.probe.queue = rest ∧ (h.probe.slot a.slot).denied = x.denied + 1) ∧
      (a.action = 5 → s.hub.inBlankOrTest = true → (s.hub.accepting = false → idle) ∧ (s.hub.accepting = true →
        s.completes .probeAction [.probe, .power, .red, .dcn, .agents, .stops, .out] fun h => acted h ∧
          h.stops.stopId = s.hub.stops.stopId + 1 ∧ h.stops.confirming = true ∧
          ∃ m, h.stops.newest = some m ∧ m.scope = .chip))))

/-- Each controller sends one sealed heartbeat in the first half of a period, with the next HB_SEQ; one that withdraws
sends WITHDRAW and is Withdrawn, but not before the reply to ACTIVE_RELEASE has left; only a valid word is taken. A
controller misses its peer after 3 periods, and a Resynchronizing standby fails its attempt after one; the active
that counted the standby as Synchronized raises one event (R353, R354, R364, Tables 15-2 and 15-6). That the event
comes once is log entry 33, the active's own view of the standby log entry 163. -/
def Obligations.HeartbeatsAreSentAndTaken : Prop :=
  ∀ (s : State) (k : Half), let c := s.hub.red.ctrl k; let period := s.hub.time.edge / 2500
    let replies := ∀ x ∈ s.hub.red.heldReplies, x.opcode ≠ 0x0B02
    ((s.hub.ctrlOn k = false ∨ c.role = .withdrawn) → s.completes (.heartbeatSend k) [] fun _ => True) ∧
    (s.hub.ctrlOn k = true → c.role ≠ .withdrawn →
      (c.withdrawing = false → c.sentIn ≠ some period → s.hub.time.edge % 2500 < 1250 →
        s.completes (.heartbeatSend k) [.red, .out] fun h => let w := heartbeatWord k c false (c.hbSeq + 1)
          h.out = s.hub.out ++ [.heartbeat k w] ∧ wordGood w = true ∧
          h.red.ctrl k = { c with hbSeq := c.hbSeq + 1, sentIn := some period } ∧
          h.red.ctrl (otherHalf k) = s.hub.red.ctrl (otherHalf k)) ∧
      (c.withdrawing = true → ¬ replies → s.completes (.heartbeatSend k) [] fun _ => True) ∧
      (c.withdrawing = true → replies → s.completes (.heartbeatSend k) [.red, .out] fun h =>
        h.out = s.hub.out ++ [.heartbeat k (heartbeatWord k c true (c.hbSeq + 1))] ∧ h.red.ctrl k =
          { c with hbSeq := c.hbSeq + 1, sentIn := some period, role := .withdrawn, withdrawing := false, solo := false, fast := false }) ∧
      (c.withdrawing = false → (c.sentIn = some period ∨ 1250 ≤ s.hub.time.edge % 2500) →
        s.completes (.heartbeatSend k) [] fun _ => True)) ∧
    (∀ w : W64, let seq := BitVec.ofNat 8 (bits w.toNat 15 8)
      let good (last : Option Byte) : Prop := wordGood w = true ∧ bits w.toNat 63 60 = 1 ∧ bits w.toNat 59 59 = halfNat k ∧
        ∀ l, last = some l → laterThan 8 seq.toNat l.toNat = true
      (good (s.hub.red.ks k).hbSeq → s.completes (.heartbeatReceived k .toKeystone w) [.red] fun h => let y := h.red.ks k
        y.seen = true ∧ y.hbSeq = some seq ∧ y.word = w ∧ y.role.toNat = bits w.toNat 58 56 ∧
        y.claim.toNat = bits w.toNat 47 16 ∧ y.withdraw = bit w.toNat 54 ∧ y.missed = (s.hub.red.ks k).missed) ∧
      (¬ good (s.hub.red.ks k).hbSeq → s.completes (.heartbeatReceived k .toKeystone w) [] fun _ => True) ∧
      (s.hub.ctrlOn (otherHalf k) = false → s.completes (.heartbeatReceived k .toPeer w) [] fun _ => True) ∧
      (s.hub.ctrlOn (otherHalf k) = true → let p := s.hub.red.ctrl (otherHalf k)
        (good p.peerSeq → s.completes (.heartbeatReceived k .toPeer w) [.red] fun h => let y := h.red.ctrl (otherHalf k)
          y.peerSeq = some seq ∧ y.peerSeenIn = period ∧ y.peerLost = false ∧ y.role = p.role ∧
          (bits w.toNat 58 56 ≠ 1 → y.peerActive = 0)) ∧
        (¬ good p.peerSeq → s.completes (.heartbeatReceived k .toPeer w) [] fun _ => True))) ∧
    ((s.hub.ctrlOn k = false ∨ c.role = .withdrawn) → s.completes (.peerHeartbeatMissed k) [] fun _ => True) ∧
    (s.hub.ctrlOn k = true → c.role ≠ .withdrawn →
      let marked (h : Hub) : Prop := (h.red.ctrl k).peerLost = true ∧ (h.red.ctrl k).peerGood = 0 ∧ (h.red.ctrl k).peerActive = 0
      let few := period ≤ c.peerSeenIn + 3 ∨ c.peerLost = true
      (few → c.role ≠ .resynchronizing → s.completes (.peerHeartbeatMissed k) [] fun _ => True) ∧
      (c.role = .resynchronizing → period ≤ c.peerSeenIn + 1 → s.completes (.peerHeartbeatMissed k) [] fun _ => True) ∧
      (few → c.role = .resynchronizing → c.peerSeenIn + 1 < period →
        s.completes (.peerHeartbeatMissed k) [.red] fun h => h.red.ctrl k = { c with role := .unsynchronized } ∧
          h.red.resyncSince = none ∧ h.red.lastAttempt = s.hub.red.lastAttempt) ∧
      (¬ few →
        (c.role = .resynchronizing → s.completes (.peerHeartbeatMissed k) [.red] fun h => marked h ∧
          (h.red.ctrl k).role = .unsynchronized) ∧
        (c.role ≠ .resynchronizing → c.role ≠ .synchronized → (c.role ≠ .active ∨ s.hub.red.synced = false) →
          s.completes (.peerHeartbeatMissed k) [.red] fun h =>
            h.red.ctrl k = { c with peerLost := true, peerGood := 0, peerActive := 0 }) ∧
        (c.role = .synchronized → s.hub.red.synced = false → s.completes (.peerHeartbeatMissed k) [.red] fun h => marked h ∧
          (h.red.ctrl k).role = .unsynchronized) ∧
        (c.role = .synchronized → s.hub.red.synced = true → s.completes (.peerHeartbeatMissed k) faultBlocks fun h => marked h ∧
          (h.red.ctrl k).role = .unsynchronized ∧ h.red.synced = false ∧ s.hub.counted h 0xFE8) ∧
        (c.role = .active → s.hub.red.synced = true → s.completes (.peerHeartbeatMissed k) faultBlocks fun h => marked h ∧
          (h.red.ctrl k).role = .active ∧ h.red.synced = false ∧ s.hub.counted h 0xFE8)))

/-- At a period boundary the Keystone counts the period, refreshes the grant and applies Table 15-5; between boundaries
it applies the table where the holder has sent WITHDRAW. A holder that is gone yields the claim, one greater, to a
live peer, warm or cold by its ROLE, with an event; with no live peer HEADLESS is set. Nothing is decided while no
grant has been made or the claim is frozen; a REFRESH word shows COLD as the current grant had it (R355, R356, R358,
Table 15-4). -/
def Obligations.KeystoneDecides : Prop :=
  ∀ (s : State), let r := s.hub.red; let e := s.hub.time.edge
    let b := decide (e % 2500 = 0 ∧ r.boundary < e)
    let k := if b then (r.ks r.holder).count e (s.hub.ctrlOn r.holder) else r.ks r.holder
    let o := if b then (r.ks (otherHalf r.holder)).count e (s.hub.ctrlOn (otherHalf r.holder)) else r.ks (otherHalf r.holder)
    let word : Out := .grant (grantWordOf 3 r.holder (decide (r.cause = 0 ∨ r.cause = 3)) r.claim)
    let out := s.hub.out ++ if b && r.granted then [word] else []
    let gone := 3 ≤ k.missed ∨ k.withdraw = true
    let well := k.alive = true ∧ r.headless = false
    let counts (h : Hub) : Prop := h.red.ks r.holder = k ∧ h.red.ks (otherHalf r.holder) = o ∧ h.red.boundary = if b then e else r.boundary
    let holds (h : Hub) : Prop := counts h ∧ h.red.claim = r.claim ∧ h.red.holder = r.holder ∧ h.red.grants = r.grants
    let yields (cold : Bool) (cause : Nat) : Prop := s.completes .keystoneDecision (faultBlocks ++ [.discards]) fun h => counts h ∧
      h.red.claim = r.claim + 1 ∧ h.red.holder = otherHalf r.holder ∧ h.red.headless = false ∧ h.red.grantPt = s.hub.pt ∧
      h.red.cause = cause ∧ h.red.grants = sat32 (r.grants + 1) ∧ s.hub.counted h 0xFE7 ∧
      Out.grant (grantWordOf 2 (otherHalf r.holder) cold (r.claim + 1)) ∈ h.out
    (b = false → k.withdraw = false → s.completes .keystoneDecision [] fun _ => True) ∧
    (b = true ∨ k.withdraw = true →
      (r.granted = false ∨ r.frozen = true → s.completes .keystoneDecision [.red, .out] fun h => holds h ∧
        h.red.headless = r.headless ∧ h.out = out) ∧
      (r.granted = true → r.frozen = false →
        (well → s.completes .keystoneDecision [.red, .out] fun h => holds h ∧ h.red.headless = false ∧
          h.out = out ++ if k.claim = r.claim then [] else [word]) ∧
        (¬ well → gone → o.alive = true → o.role = 2 → yields false (if k.withdraw then 2 else 1)) ∧
        (¬ well → gone → o.alive = true → (o.role = 0 ∨ o.role = 3 ∨ o.role = 4) → yields true 3) ∧
        (gone → o.alive = false → ¬ well → (r.headless = false → s.completes .keystoneDecision faultBlocks fun h => holds h ∧
            h.red.headless = true ∧ s.hub.counted h 0xFE7) ∧
          (r.headless = true → s.completes .keystoneDecision [.red, .out] fun h => holds h ∧ h.red.headless = true ∧ h.out = out)) ∧
        (¬ well → (¬ gone ∨ (o.alive = true ∧ (o.role = 1 ∨ 4 < o.role.toNat))) → s.completes .keystoneDecision [.red, .out] fun h =>
          holds h ∧ h.red.headless = (r.headless && !k.alive) ∧ h.out = out)))

/-- An output stage takes the later of two grants and performs only accesses under the grant it holds; copies that
differ or fail their CRC freeze the claim with an event of 0xFBD, and enter the safe state. A memory-fabric port
that holds the level of the safe state starts no access. The controller's own accesses are refused in the same way:
a broadcast, here CANCEL, at the root's injector, and a packet at the transmit mux (R53, R54, R357, Table 13-7; log
entry 162). -/
def Obligations.GrantsGateTheStages : Prop :=
  ∀ (s : State) (i : Nat) (wa wb : W64), let on := i < 37 ∧ s.hub.domainOn (stageDomain i) = true
    let bad := wa ≠ wb ∨ wordGood wa = false
    let fails (c : Instr) : Prop := s.completes c faultBlocks fun h =>
      h.red.frozen = true ∧ h.fc.safe = true ∧ s.hub.counted h 0xFBD
    (on → bad → fails (.grantWord (.stage i) wa wb) ∧ fails (.keystoneFault i wa wb)) ∧
    (¬ (on ∧ bad) → s.completes (.keystoneFault i wa wb) [] fun _ => True) ∧
    (¬ on → s.completes (.grantWord (.stage i) wa wb) [] fun _ => True) ∧
    (on → ¬ bad → (bits wa.toNat 63 60 = 2 ∨ bits wa.toNat 63 60 = 3) →
      s.completes (.grantWord (.stage i) wa wb) [.red] fun h =>
        let new := (BitVec.ofNat 32 (bits wa.toNat 55 24), if bit wa.toNat 59 then Half.east else Half.west)
        let y := mapGet none h.red.stages i
        (∀ j, j ≠ i → mapGet none h.red.stages j = mapGet none s.hub.red.stages j) ∧
        (mapGet none s.hub.red.stages i = none → y = some new) ∧
        (∀ old, mapGet none s.hub.red.stages i = some old →
          y = if laterThan 32 new.1.toNat old.1.toNat then some new else some old)) ∧
    (on → ¬ bad → bits wa.toNat 63 60 ≠ 2 → bits wa.toNat 63 60 ≠ 3 →
      s.completes (.grantWord (.stage i) wa wb) [] fun _ => True) ∧
    (∀ (side : Half) (claim : W32), ¬ on → s.completes (.stageAccess i side claim) [] fun _ => True) ∧
    (∀ (side : Half) (claim : W32), on → 35 ≤ i → s.hub.stageSafe i = true →
      s.completes (.stageAccess i side claim) [] fun _ => True) ∧
    (∀ (side : Half) (claim : W32), on → ¬ (35 ≤ i ∧ s.hub.stageSafe i = true) →
      (mapGet none s.hub.red.stages i = some (claim, side) → s.completes (.stageAccess i side claim) [] fun _ => True) ∧
      (mapGet none s.hub.red.stages i ≠ some (claim, side) → s.completes (.stageAccess i side claim) [.red, .out] fun h =>
        h.red.rejects = sat32 (s.hub.red.rejects + 1) ∧ h.red.stages = s.hub.red.stages ∧
        h.out = s.hub.out ++ [.rejected i side])) ∧
    (∀ hdr, s.hub.admits 0x0302 hdr = true → let k := s.hub.red.holder; let j := rootStage k
      (s.hub.taken hdr).refuses j = true → s.completes (.stopCancel hdr) (icpBlocks ++ [.agents, .stops, .slot]) fun h =>
        Out.rejected j k ∈ h.out ∧ (∀ b, Out.bcast b ∈ h.out → Out.bcast b ∈ s.hub.out) ∧ h.dcn.issued = s.hub.dcn.issued) ∧
    (s.hub.refuses 0 = true → ∀ p, let h := s.hub.send .dpt p
      s.hub.transport = .dpt → h.out = s.hub.out ++ [.rejected 0 s.hub.red.holder] ∧
        h.red.rejects = sat32 (s.hub.red.rejects + 1) ∧ h.port = s.hub.port)

/-- A grant word moves the roles of Table 15-2: the active that loses the claim leaves it, a synchronized standby that
gains it is Active, and an unsynchronized or resynchronizing one is Active with no session left, each in fast mode
(Table 15-7). A stale word, a bad one and one of another TYPE change nothing (R83, R352, R361). A controller boots
once the ROM loader has passed the image, and with both up after power-on the Keystone grants claim 1 to West, cold;
once a grant stands, one that comes up takes its role from HOLDER. A Withdrawn controller powers off and on and
boots; one that loses its fast clock withdraws, with an event (R58, R356, R413, R417, R422, Table 15-2). That HB_SEQ
goes on after a power cycle is log entry 31. -/
def Obligations.RolesMoveWithGrants : Prop :=
  (∀ (s : State) (k : Half) (w v : W64), let c := s.hub.red.ctrl k; let claim := BitVec.ofNat 32 (bits w.toNat 55 24)
    let mine := (bit w.toNat 59 = true ↔ k = .east)
    let idle (x : W64) : Prop := s.completes (.grantWord (.abutment k) w x) [] fun _ => True
    let good := wordGood w = true ∧ (bits w.toNat 63 60 = 2 ∨ bits w.toNat 63 60 = 3)
    let stale := c.heard = true ∧ claim ≠ c.claim ∧ laterThan 32 claim.toNat c.claim.toNat = false
    let c' := { c with claim := claim, heard := true }
    let gives (role : CtrlRole) : Prop := s.completes (.grantWord (.abutment k) w w) [.red] fun h =>
      h.red.ctrl k = { c' with role := role } ∧ h.red.ctrl (otherHalf k) = s.hub.red.ctrl (otherHalf k)
    (w ≠ v → idle v) ∧ (¬ good ∨ s.hub.ctrlOn k = false ∨ c.role = .withdrawn ∨ stale → idle w) ∧
    (good → s.hub.ctrlOn k = true → c.role ≠ .withdrawn → ¬ stale →
      (c.role = .active → ¬ mine → s.completes (.grantWord (.abutment k) w w) [.red] fun h =>
        h.red.ctrl k = { c' with role := .unsynchronized, solo := false } ∧ h.red.lastAttempt = none) ∧
      (c.role = .synchronized → mine → s.completes (.grantWord (.abutment k) w w) [.red] fun h =>
        h.red.ctrl k = { c' with role := .active, fast := true, busyPt := s.hub.pt } ∧
        h.red.ctrl (otherHalf k) = s.hub.red.ctrl (otherHalf k)) ∧
      ((c.role = .unsynchronized ∨ c.role = .resynchronizing) → mine → s.completes (.grantWord (.abutment k) w w)
        [.dcn, .agents, .soundings, .pat, .red, .island, .power, .discards, .out] fun h =>
          h.red.ctrl k = { c' with role := .active, solo := true, fast := true, busyPt := s.hub.pt } ∧ h.island.sessions = [] ∧ h.discards = [] ∧
          (c.role = .resynchronizing → h.red.resyncSince = none)) ∧
      ((c.role = .booting ∨ (c.role = .active ∧ mine) ∨ (c.role ≠ .active ∧ ¬ mine)) → gives c.role))) ∧
  (∀ (s : State) (k : Half), let c := s.hub.red.ctrl k
    (s.hub.ctrlOn k = true → s.hub.mayBoot = true → c.role = .booting → c.up = false → s.hub.red.granted = false →
      ((s.hub.red.ctrl (otherHalf k)).up = false ∨ s.hub.power.startUp ≠ .verified → s.completes (.firmwareUp k) [.red] fun h =>
        (h.red.ctrl k).up = true ∧ (h.red.ctrl k).role = .booting ∧
        h.red.ctrl (otherHalf k) = s.hub.red.ctrl (otherHalf k)) ∧
      ((s.hub.red.ctrl (otherHalf k)).up = true → (s.hub.red.ctrl (otherHalf k)).role = .booting →
        s.hub.power.startUp = .verified →
        s.completes (.firmwareUp k) [.port, .tap, .dcn, .agents, .soundings, .pat, .red, .island, .power, .discards, .out] fun h =>
          (h.red.claim, h.red.holder, h.red.granted) = (1, .west, true) ∧ h.power.startUp = .granted ∧
          h.red.west.role = .active ∧ h.red.west.solo = true ∧ h.red.east.role ≠ .active ∧ h.island.sessions = [] ∧
          Out.grant (grantWordOf 2 .west true 1) ∈ h.out)) ∧
    ((s.hub.ctrlOn k = false ∨ s.hub.mayBoot = false ∨ c.role ≠ .booting ∨ c.up = true) → s.completes (.firmwareUp k) [] fun _ => True) ∧
    (s.hub.ctrlOn k = true → s.hub.mayBoot = true → c.role = .booting → c.up = false → s.hub.red.granted = true →
      (s.hub.red.holder = k → s.completes (.firmwareUp k) [.dcn, .agents, .soundings, .pat, .red, .island, .power, .discards, .out]
        fun h => (h.red.ctrl k).role = .active ∧ (h.red.ctrl k).solo = true ∧ h.island.sessions = [] ∧ h.red.claim = s.hub.red.claim) ∧
      (s.hub.red.holder ≠ k → s.completes (.firmwareUp k) replyBlocks fun h => (h.red.ctrl k).up = true ∧
        ((h.red.ctrl k).role = .resynchronizing ∨ (h.red.ctrl k).role = .unsynchronized) ∧
        (c.peerGood < 3 → (h.red.ctrl k).role = .unsynchronized ∧ h.red.lastAttempt = none) ∧ h.red.holder = s.hub.red.holder)) ∧
    (c.role ≠ .withdrawn → s.completes (.controllerColdCycle k) [] fun _ => True) ∧
    (c.role = .withdrawn → s.completes (.controllerColdCycle k) [.red, .power, .fc] fun h =>
      (h.red.ctrl k).role = .booting ∧ (h.red.ctrl k).up = false ∧ (h.red.ctrl k).hbSeq = c.hbSeq ∧ h.ctrlOn k = true ∧
      h.red.claim = s.hub.red.claim ∧ h.red.holder = s.hub.red.holder ∧ h.fc.source = s.hub.fc.source) ∧
    ((s.hub.ctrlOn k = false ∨ c.role = .withdrawn) → s.completes (.fastClockLoss k) [] fun _ => True) ∧
    (s.hub.ctrlOn k = true → c.role ≠ .withdrawn →
      (c.fast = true → s.completes (.fastClockLoss k) faultBlocks fun h =>
        (h.red.ctrl k).withdrawing = true ∧ s.hub.counted h (0xFBB + halfNat k)) ∧
      (c.fast = false → s.completes (.fastClockLoss k) [] fun _ => True)))

/-- The standby keeps synchronized change by change: one gap makes it Unsynchronized, and a change that it does not
acknowledge holds the replies for at most 50 us, after which the active counts it as Synchronized no longer, with
one event, while the standby's own role stays (Table 15-2). Attempts begin when due and end in Synchronized within 2
ms or in Unsynchronized; STANDBY_RESYNC and ACTIVE_RELEASE act on it (R360, R361, R364). That the event comes once
is log entry 33, the active's view of the standby log entry 163, what STANDBY_RESYNC answers of an attempt that
fails log entry 32. -/
def Obligations.TheStandbySynchronizes : Prop :=
  ∀ (s : State) (hdr : Hdr), let r := s.hub.red; let k := otherHalf r.holder; let c := r.ctrl k; let a := r.ctrl r.holder
    let h0 := s.hub.taken hdr
    let released (h : Hub) : Prop := h.red.syncWait = none ∧ h.red.heldReplies = [] ∧ ∀ x ∈ r.heldReplies,
      x.transport = s.hub.transport → s.hub.muxRefuses = false → ∀ p ∈ replyPackets x.opcode x.hdr x.status x.body, Out.reply p ∈ h.out
    let leaves (h : Hub) : Prop := (h.red.ctrl k).role = .unsynchronized ∧ h.red.resyncSince = none ∧ h.red.lastAttempt = none
    let begins (h : Hub) : Prop := h.red.ctrl k = { c with role := .resynchronizing } ∧ h.red.resyncSince = some s.hub.pt ∧
      h.red.lastAttempt = some s.hub.pt ∧ released h
    let due := r.granted = true ∧ s.hub.canResync k = true ∧ ∀ t, r.lastAttempt = some t → t + 10000000 ≤ s.hub.pt
    (∀ (seq : W32) (acked : Bool),
      (a.role ≠ .active → s.completes (.syncChange seq acked) [] fun _ => True) ∧
      (a.role = .active → (c.role ≠ .synchronized ∨ r.synced = false) → s.completes (.syncChange seq acked) [.red] fun h =>
        h.red = { r with syncSent := r.syncSent + 1 }) ∧
      (a.role = .active → c.role = .synchronized → r.synced = true →
        (seq = r.syncRecv + 1 → acked = true → s.completes (.syncChange seq acked) replyBlocks fun h => released h ∧
          h.red.syncSent = r.syncSent + 1 ∧ h.red.syncRecv = seq ∧ h.red.ctrl k = c) ∧
        (seq = r.syncRecv + 1 → acked = false → s.completes (.syncChange seq acked) [.red] fun h =>
          h.red = { r with syncSent := r.syncSent + 1, syncRecv := seq, syncWait := some s.hub.pt }) ∧
        (seq ≠ r.syncRecv + 1 → s.completes (.syncChange seq acked) faultBlocks fun h => leaves h ∧ h.red.synced = false ∧
          h.red.syncSent = r.syncSent + 1 ∧ h.red.syncRecv = r.syncRecv ∧ s.hub.counted h 0xFE8))) ∧
    (r.syncWait = none → s.completes .syncAckTimeout [] fun _ => True) ∧
    (∀ t, r.syncWait = some t →
      (s.hub.pt < t + 50000 → s.completes .syncAckTimeout [] fun _ => True) ∧
      (t + 50000 ≤ s.hub.pt → (r.synced = false → s.completes .syncAckTimeout replyBlocks fun h => released h ∧
          h.red.ctrl k = c) ∧
        (r.synced = true → s.completes .syncAckTimeout faultBlocks fun h => released h ∧ h.red.synced = false ∧
          (h.red.ctrl k).role = c.role ∧ s.hub.counted h 0xFE8))) ∧
    (c.role ≠ .resynchronizing → ∀ i ∈ [Instr.resyncComplete, .resyncTimeout], s.completes i [] fun _ => True) ∧
    (c.role = .resynchronizing →
      let synced (h : Hub) : Prop := h.red.ctrl k = { c with role := .synchronized } ∧ h.red.resyncSince = none ∧
        h.red.syncRecv = r.syncSent ∧ h.red.synced = true
      let failed (h : Hub) : Prop := h.red.ctrl k = { c with role := .unsynchronized } ∧ h.red.resyncSince = none ∧
        h.red.lastAttempt = r.lastAttempt
      let late := ∃ t, r.resyncSince = some t ∧ t + 2000000 < s.hub.pt
      s.completes .resyncTimeout [.red] failed ∧ (late → s.completes .resyncComplete [.red] failed) ∧
      (¬ late → (∀ x, s.hub.slot = some x → x.prog ≠ .resync) → s.completes .resyncComplete [.red] synced) ∧
      (∀ x, ¬ late → s.hub.slot = some x → x.prog = .resync → x.mute = false →
        s.completes .resyncComplete (replyBlocks ++ [.slot]) fun h => synced h ∧ h.slot = none ∧
          (x.transport = s.hub.transport → s.hub.replied h x.opcode.toNat x.hdr .ok [2]))) ∧
    (due → s.completes .resyncRetry replyBlocks begins) ∧ (¬ due → s.completes .resyncRetry [] fun _ => True) ∧
    (a.role = .active → a.solo = true → s.completes .soloResyncComplete [.red] fun h =>
      h.red.ctrl r.holder = { a with solo := false } ∧ h.red.ctrl k = c) ∧
    (a.role ≠ .active ∨ a.solo = false → s.completes .soloResyncComplete [] fun _ => True) ∧
    (s.hub.admits 0x0B00 hdr = true → s.answers (.redundancyStatus hdr) 0x0B00 hdr []
      (h0.red.registers ++ le 8 r.ksWest.word.toNat ++ le 8 r.ksEast.word.toNat) fun _ => True) ∧
    (s.hub.admits 0x0B01 hdr = true →
      (c.role = .synchronized → s.answers (.standbyResync hdr) 0x0B01 hdr [] [2] fun _ => True) ∧
      (c.role = .resynchronizing → s.answers (.standbyResync hdr) 0x0B01 hdr [] [4] fun _ => True) ∧
      (c.role ≠ .synchronized → c.role ≠ .resynchronizing →
        (h0.canResync k = true → s.completes (.standbyResync hdr) (icpBlocks ++ [.slot]) fun h => begins h ∧
          (h.slot.map fun x => (x.prog, x.hdr)) = some (.resync, hdr)) ∧
        (h0.canResync k = false → s.refuses (.standbyResync hdr) 0x0B01 hdr .badState []))) ∧
    (s.hub.admits 0x0B02 hdr = true →
      (r.standbySync = true → r.synced = true → c.role = .synchronized → s.answers (.activeRelease hdr) 0x0B02 hdr [] [] fun h =>
        (h.red.ctrl r.holder).withdrawing = true ∧ h.red.holder = r.holder ∧ h.red.ctrl k = c) ∧
      ((r.standbySync = false ∨ r.synced = false ∨ c.role ≠ .synchronized) → s.refuses (.activeRelease hdr) 0x0B02 hdr .badState []))

/-- A domain powers off once its condition does not hold and nothing that depends on it is on; domains 2 and 3 go
together, every other one alone; a controller enters low-speed mode after 100 us without work (R355, R407, R408,
R411). An error the scrubber finds in a powered structure is an event: of 0xFD3 where it is corrected, of 0xFD4
where it is not; an uncorrectable entry of an event ring reads with CODE 0, and an uncorrectable error in a
controller's firmware memory makes it withdraw (R419, R420, Table 15-2; which slot it is stays free, log entry 8;
log entry 136). -/
def Obligations.DomainsPowerOffAndScrub : Prop :=
  (∀ (s : State),
    (∀ d, s.hub.mayPowerOff d = true → s.completes (.domainPowerOff d) [.time, .dcn, .trace, .pat, .power, .red] fun h =>
      let goes (e : Nat) : Prop := e = d ∨ (d ∈ [2, 3] ∧ e ∈ [2, 3])
      (∀ e, 1 ≤ e → e ≤ 20 → (goes e → h.domainOn e = false) ∧ (¬ goes e → h.domainOn e = s.hub.domainOn e)) ∧
      h.pt = s.hub.pt ∧ h.pat.flash = s.hub.pat.flash ∧ ∀ i, goes (stageDomain i) → mapGet none h.red.stages i = none) ∧
    (∀ d, s.hub.mayPowerOff d = false → s.completes (.domainPowerOff d) [] fun _ => True) ∧
    (s.hub.mayPowerOff 1 = false) ∧
    (∀ k : Half, let c := s.hub.red.ctrl k
      let idle := s.hub.ctrlOn k = true ∧ c.fast = true ∧ s.hub.dueWork = false ∧ c.busyPt + 100000 ≤ s.hub.pt
      (idle → s.completes (.lowSpeedEntry k) [.red] fun h => h.red.ctrl k = { c with fast := false } ∧
        h.red.ctrl (otherHalf k) = s.hub.red.ctrl (otherHalf k)) ∧
      (¬ idle → s.completes (.lowSpeedEntry k) [] fun _ => True))) ∧
  (∀ (s : State) (n : W16), let ring := bits n.toNat 15 12 = 1; let u := unitOf (bits n.toNat 10 0)
    (s.hub.structureOn n.toNat = false → ∀ b, s.completes (.sramScrub n b) [] fun _ => True) ∧
    (s.hub.structureOn n.toNat = true →
      (s.completes (.sramScrub n false) faultBlocks fun h => s.hub.counted h 0xFD3) ∧
      (s.completes (.sramScrub n true) faultBlocks fun h => s.hub.counted h 0xFD4) ∧
      (s.hub.fc.safe = true →
        (¬ ring → firmwareMemory n.toNat = none → s.completes (.sramScrub n true) [.fc, .i3c] fun h => s.hub.counted h 0xFD4) ∧
        (∀ x, firmwareMemory n.toNat = some x → s.completes (.sramScrub n true) [.fc, .i3c, .red] fun h =>
          s.hub.counted h 0xFD4 ∧ h.red.ctrl (otherHalf x) = s.hub.red.ctrl (otherHalf x) ∧
          ((h.red.ctrl x).role = .withdrawn ∨ (h.red.ctrl x).withdrawing = true)) ∧
        (ring → s.completes (.sramScrub n true) [.fc, .i3c, .agents, .free] fun h => s.hub.othersKeep h u ∧
          ∃ k, k < 64 ∧ h.agent u = { s.hub.agent u with
            ring := mapSet {} (s.hub.agent u).ring k { mapGet {} (s.hub.agent u).ring k with code := 0 } }))))

/-- A hub reset keeps PT, the claim, OTP and flash, every agent and every probe program; sessions, soundings and the
executing command are gone, both controllers boot and every program stops with ERROR 3. All domains but AO are off;
where a fixed source is still present the safe state is entered again. The reset of the chip ends every stop,
carries out the retirements that wait and resets every powered unit, whose SRAM and light counters stay (R245, R323,
R356, R414, R415, Table 18-4; what the tables do not list is kept or cleared as log entries 7, 72, 74, 75 and 108
say). After AO power-on PT is 0, no unit has power, no session is open and no grant has been made; OTP, the firmware
and the flash are as before, and the hub sends nothing (R61, R356, R414; what the tables do not list as log entries
7 and 75 say). -/
def Obligations.ResetsKeepWhatTheyMust : Prop :=
  (∀ (s : State), let sound := s.hub.fc.fixedPresent = []
    let blocks : List Block := [.time, .port, .tap, .i3c, .dcn, .stops, .trace, .arrays, .soundings, .soundBudget, .replayStat,
      .probe, .fc, .pat, .red, .island, .power, .fe, .slot, .discards, .latches, .out]
    let kept (h : Hub) : Prop := h.pt = s.hub.pt ∧ h.slot = none ∧ h.island.sessions = [] ∧ h.island.challenge = none ∧
      h.discards = [] ∧ h.soundings = [] ∧ h.port.lane = .off ∧ (∀ n, h.fc.source n = { s.hub.fc.source n with times := [] }) ∧
      (h.red.claim, h.red.holder, h.red.granted, h.red.headless) = (s.hub.red.claim, s.hub.red.holder, s.hub.red.granted, false) ∧
      h.red.west.role = .booting ∧ h.red.east.role = .booting ∧ h.red.stages = [] ∧ h.red.heldReplies = [] ∧
      h.island.otp = s.hub.island.otp ∧ h.pat.flash = s.hub.pat.flash ∧ h.probe.queue = [] ∧
      (∀ n, let x := h.probe.slot n; let y := s.hub.probe.slot n
        x.program = y.program ∧ x.regs = y.regs ∧ (y.state = .empty → x.state = .empty) ∧
          (y.state ≠ .empty → x.state = .stopped ∧ x.error = 3)) ∧
      h.domainOn 1 = s.hub.domainOn 1 ∧
      (sound ↔ h.fc.safe = false) ∧ (∀ d, 2 ≤ d → d ≤ 20 → h.domainOn d = false)
    (s.completes .hubReset blocks fun h => kept h ∧ (sound → h.stops.newest = s.hub.stops.newest)) ∧
    (s.completes .hubResetOfTheChip (blocks ++ [.ident, .agents]) fun h => kept h ∧ h.stops.standing = [] ∧
      h.stops.newest = none ∧ h.fe.runs = [] ∧ h.fc.pendingRetire = [] ∧ (∀ u ∈ s.hub.fc.pendingRetire, h.retired u = true) ∧
      (∀ u, unitHasAgent u = true → (s.hub.agent u).powered = true → let a := h.agent u; let b := s.hub.agent u
        a.powered = true ∧ a.state = .running ∧ a.sram = b.sram ∧ a.cnt.light = (b.settle s.hub.pt).cnt.light))) ∧
  (∀ (s : State), ∃ t, exec .aoPowerOn s = .next t ∧ t.pending = s.pending ∧ t.mem = s.mem ∧
    let h := t.hub
    h.pt = 0 ∧ h.out = s.hub.out ∧ h.island.sessions = [] ∧ h.island.decoded = none ∧ h.island.otp = s.hub.island.otp ∧
    h.pat.flash = s.hub.pat.flash ∧ h.pat.packs = [] ∧ h.power.image = s.hub.power.image ∧ h.power.startUp = .powerGood ∧
    h.red.granted = false ∧ h.red.claim = 0 ∧ h.fc.records = [] ∧ h.fc.safe = false ∧ h.ident.retired = [] ∧
    h.sight.state = .idle ∧ h.unsighted = true ∧ h.probe.queue = [] ∧ h.stops.log = [] ∧ h.slot = none ∧
    (∀ u, (h.agent u).powered = false))

/-- A step takes the command at the front of the queue and runs it on the state with the queue's rest: its outcome is
the step's outcome. -/
def Obligations.StepRunsTheFrontCommand : Prop :=
  ∀ (s : State) (c : Instr) (rest : List Instr),
    step { s with pending := c :: rest } = exec c { s with pending := rest }

/-- With an empty queue the block lets 1 ns go by (the model's choice, log entry 2): the count of the AO edge moves on
and the queue stays empty. The hub does not define PT beyond 64 bits (R61); that the step stops where PT would leave
them is the model's choice (log entry 80). -/
def Obligations.IdleStepsLetTimePass : Prop :=
  ∀ (s : State), s.pending = [] → let x := s.hub.time
    (s.hub.pt + 40 < 2 ^ 64 → x.sub ≤ 39 → s.hub.sight.starting = false → ∃ t, step s = .next t ∧ t.pending = [] ∧
      t.hub.time.base = x.base ∧
      (x.sub < 39 → t.hub.time = { x with sub := x.sub + 1 }) ∧
      (x.sub = 39 → (t.hub.time.edge, t.hub.time.sub, t.hub.time.mode) = (x.edge + 1, 0, x.nextMode.getD x.mode))) ∧
    (∀ t, step s = .next t → t.pending = [] ∧ t.hub.pt < 2 ^ 64) ∧
    (2 ^ 64 ≤ s.hub.pt → x.sub ≤ 39 → step s = .fault .ptOverflow)

/-- Whatever a step does, PT never decreases, and neither does BASE; PT stays within 39 ns of BASE + 40 x n, and AO
power-on alone starts both at 0 (R62, R63). No command but SIGHT_STEP moves PT: that a command takes no time is the
model's choice (log entry 2). -/
def Obligations.PtMovesOnlyForward : Prop :=
  ∀ (s t : State), s.hub.time.sub ≤ 39 → step s = .next t → let x := s.hub.time; let y := t.hub.time
    y.sub ≤ 39 ∧ (y.base + 40 * y.edge ≤ t.hub.pt ∧ t.hub.pt ≤ y.base + 40 * y.edge + 39) ∧
    (s.pending.head? = some .aoPowerOn → y.base = 0 ∧ t.hub.pt = 0) ∧
    (s.pending.head? ≠ some .aoPowerOn → s.hub.pt ≤ t.hub.pt ∧ x.base ≤ y.base) ∧
    (∀ c rest, s.pending = c :: rest → c ≠ .aoPowerOn → c ≠ .sightStep → t.hub.pt = s.hub.pt ∧ y.base = x.base) ∧
    (s.pending = [] → s.hub.sight.starting = false → y.base = x.base)

/-- Memory keeps its canonical form over every step: addresses strictly rising, and no byte listed that reads as an
unlisted one. -/
def Obligations.MemoryStaysInOrder : Prop :=
  ∀ (s t : State), s.memoryWf = true → step s = .next t → t.memoryWf = true

/-- The machine right after reset: nothing waits (the model's queue, log entry 2), memory lists nothing, PT is 0 and
BASE is 0, Assigned is 0 and the Chip ID reads 0, no unit is retired, the chip is Unsighted, and only domain 1 is on
(R22, R28, R61, R62, R70). -/
def Obligations.ResetStartsInOrder : Prop :=
  State.reset.mem = [] ∧ State.reset.memoryWf = true ∧ State.reset.pending = [] ∧ State.reset.hub.pt = 0 ∧ State.reset.hub.time.base = 0 ∧
    State.reset.hub.time.sub ≤ 39 ∧ State.reset.hub.ident.assigned = false ∧ State.reset.hub.ident.chipId = 0 ∧
    State.reset.hub.ident.retired = [] ∧ State.reset.hub.ident.retiredGen = 0 ∧ State.reset.hub.unsighted = true ∧
    ∀ d, 1 ≤ d → d ≤ 20 → State.reset.hub.domainOn d = decide (d = 1)
end

