-- ==== Sys2Proof/Laws/Reply.lean ====
section
/-! SUPPORT. Laws of frames and of replies: an answer changes only the reply path and puts its packets out whole,
and a packet that is admitted runs its opcode on the hub as it finds it. -/

namespace Sys2Proof.Machine

/-! ### Frames -/

theorem Hub.onlyIn_refl (h : Hub) (bs : List Block) : h.onlyIn bs h := fun b _ => by cases b <;> rfl

theorem Hub.onlyIn_trans {a b c : Hub} {bs : List Block} (x : a.onlyIn bs b) (y : b.onlyIn bs c) : a.onlyIn bs c := by
  intro k n
  have e := x k n
  have f := y k n
  cases k <;> exact f.trans e

theorem Hub.onlyIn_mono {a b : Hub} {bs cs : List Block} (x : a.onlyIn bs b) (s : bs ⊆ cs) : a.onlyIn cs b :=
  fun k n => x k fun m => n (s m)

/-- A frame whose block list is closed under both parts. -/
theorem Hub.onlyIn_step {a b c : Hub} {bs cs ds : List Block} (x : a.onlyIn bs b) (y : b.onlyIn cs c) (s : bs ⊆ ds)
    (t : cs ⊆ ds) : a.onlyIn ds c := Hub.onlyIn_trans (Hub.onlyIn_mono x s) (Hub.onlyIn_mono y t)

/-! ### Sending -/

theorem Hub.transport_congr {a b : Hub} (e : a.port.lane = b.port.lane) : a.transport = b.transport := by
  simp only [Hub.transport, e]

theorem Hub.emit_only (h : Hub) (o : Out) : h.onlyIn [.out] (h.emit o) := by
  intro b n; cases b <;> first | rfl | simp at n

theorem pumpFuel_only (f : Nat) (h : Hub) : h.onlyIn [.port, .out] (pumpFuel f h) ∧
    (pumpFuel f h).port.lane = h.port.lane ∧ ∃ l, (pumpFuel f h).out = h.out ++ l := by
  induction f generalizing h with
  | zero => exact ⟨h.onlyIn_refl _, rfl, [], by simp [pumpFuel]⟩
  | succ f ih =>
    unfold pumpFuel
    split
    · exact ⟨h.onlyIn_refl _, rfl, [], by simp⟩
    · split
      · exact ⟨h.onlyIn_refl _, rfl, [], by simp⟩
      · refine ⟨Hub.onlyIn_trans ?_ (ih _).1, ?_, ?_⟩
        · intro b n; cases b <;> first | rfl | simp at n
        · rw [(ih _).2.1]; rfl
        · obtain ⟨l, e⟩ := (ih (({ h with port := _ } : Hub).emit _)).2.2
          exact ⟨_ :: l, by rw [e]; simp [Hub.emit]; rfl⟩

/-- What an output stage refuses depends on the controllers and the domains alone. -/
theorem Hub.refuses_same {a b : Hub} (i : Nat) (r : b.red = a.red) (p : b.power = a.power) : b.refuses i = a.refuses i := by
  simp only [Hub.refuses, Hub.domainOn, r, p]

theorem Hub.muxRefuses_same {a b : Hub} (t : b.transport = a.transport) (r : b.red = a.red) (p : b.power = a.power) :
    b.muxRefuses = a.muxRefuses := by
  simp only [Hub.muxRefuses, Hub.refuses_same 0 r p, t]

/-- Where the mux refuses, a packet is refused, and the next one is. -/
theorem Hub.send_refused (h : Hub) (p : Packet) (e : h.muxRefuses = true) :
    h.send h.transport p = h.refuse 0 h.red.holder ∧ (h.refuse 0 h.red.holder).muxRefuses = true := by
  have x := e
  simp only [Hub.muxRefuses, Bool.and_eq_true, beq_iff_eq] at x
  refine ⟨?_, e⟩
  unfold Hub.send
  simp only [ne_eq, not_true_eq_false, if_false, x.1]
  simp only [Hub.atStage, x.2, if_true]

/-- Where the mux does not refuse it, sending a packet on the selected transport puts it out, and changes only the reply
path. -/
theorem Hub.send_only (h : Hub) (p : Packet) (e : h.muxRefuses = false) :
    h.onlyIn [.port, .tap, .out] (h.send h.transport p) ∧ (h.send h.transport p).transport = h.transport ∧
      ∃ l, (h.send h.transport p).out = h.out ++ Out.reply p :: l := by
  unfold Hub.send
  simp only [ne_eq, not_true_eq_false, if_false]
  split
  · rename_i d
    have r : h.refuses 0 = false := by simpa [Hub.muxRefuses, d] using e
    simp only [Hub.atStage, r, Bool.false_eq_true, if_false]
    obtain ⟨o, q, l, x⟩ := pumpFuel_only (h.port.waiting ++ [p]).length
      { h.emit (.reply p) with port := { h.port with waiting := h.port.waiting ++ [p] } }
    refine ⟨Hub.onlyIn_step (bs := [.port, .out]) ?_ o (by decide) (by decide), Hub.transport_congr q |>.trans ?_, l, ?_⟩
    · intro b n; cases b <;> first | rfl | simp at n
    · exact (Hub.transport_congr (b := h) rfl)
    · refine x.trans ?_
      simp [Hub.emit]
  · rename_i d
    refine ⟨?_, Hub.transport_congr (b := h) rfl, [], ?_⟩
    · intro b n; cases b <;> first | rfl | simp at n
    · simp [Hub.fillJtag, Hub.emit]

theorem Hub.sendAll_only (ps : List Packet) (h : Hub) (w : h.muxRefuses = false) :
    h.onlyIn [.port, .tap, .out] (ps.foldl (fun h p => h.send h.transport p) h) ∧
      ∃ l, (ps.foldl (fun h p => h.send h.transport p) h).out = h.out ++ l ∧ ∀ p ∈ ps, Out.reply p ∈ l := by
  induction ps generalizing h with
  | nil => exact ⟨h.onlyIn_refl _, [], by simp⟩
  | cons p ps ih =>
    obtain ⟨o, q, l, x⟩ := h.send_only p w
    obtain ⟨o', l', x', m⟩ := ih (h.send h.transport p)
      ((Hub.muxRefuses_same q (o .red (by decide)) (o .power (by decide))).trans w)
    refine ⟨Hub.onlyIn_trans o o', Out.reply p :: l ++ l', ?_, ?_⟩
    · rw [List.foldl_cons, x', x]; simp
    · intro z hz
      rcases List.mem_cons.1 hz with e | e
      · simp [e]
      · exact List.mem_append_right _ (m z e)

/-- Where the mux refuses, every packet of a reply is refused and counted. -/
theorem Hub.sendAll_refused (ps : List Packet) (h : Hub) (w : h.muxRefuses = true) :
    ∃ n, ps.foldl (fun h p => h.send h.transport p) h =
      { h with out := h.out ++ ps.map (fun _ => Out.rejected 0 h.red.holder), red := { h.red with rejects := n } } := by
  induction ps generalizing h with
  | nil => exact ⟨h.red.rejects, by simp⟩
  | cons p ps ih =>
    obtain ⟨e, w'⟩ := h.send_refused p w
    obtain ⟨n, x⟩ := ih _ w'
    refine ⟨n, ?_⟩
    rw [List.foldl_cons, e, x]
    simp [Hub.refuse, Hub.emit]

theorem Hub.send_transport (h : Hub) (p : Packet) : (h.send h.transport p).transport = h.transport := by
  cases w : h.muxRefuses with
  | true => rw [(h.send_refused p w).1]; rfl
  | false => exact (h.send_only p w).2.1

theorem Hub.sendAll_same (ps : List Packet) (h : Hub) (tr : Transport) (e : h.transport = tr) :
    ps.foldl (fun h p => h.send tr p) h = ps.foldl (fun h p => h.send h.transport p) h := by
  induction ps generalizing h with
  | nil => rfl
  | cons p ps ih =>
    subst e
    rw [List.foldl_cons, List.foldl_cons]
    exact ih _ (h.send_transport p)

/-- A reply that the mux does not refuse changes only the Debug Port, the TAP and what has been put out, and is put out
whole. -/
theorem Hub.sendReply_only (h : Hub) (code : W16) (hdr : Hdr) (st : Status) (body : List Byte) (w : h.muxRefuses = false) :
    h.onlyIn [.port, .tap, .out] (h.sendReply h.transport code hdr st body) ∧
      ∃ l, (h.sendReply h.transport code hdr st body).out = h.out ++ l ∧
        ∀ p ∈ replyPackets code hdr st body, Out.reply p ∈ l := by
  unfold Hub.sendReply
  rw [h.sendAll_same _ _ rfl]
  exact h.sendAll_only (replyPackets code hdr st body) w

/-- A reply that the mux refuses is counted packet by packet. -/
theorem Hub.sendReply_refused (h : Hub) (code : W16) (hdr : Hdr) (st : Status) (body : List Byte) (w : h.muxRefuses = true) :
    ∃ n, h.sendReply h.transport code hdr st body =
      { h with out := h.out ++ (replyPackets code hdr st body).map (fun _ => Out.rejected 0 h.red.holder),
               red := { h.red with rejects := n } } := by
  unfold Hub.sendReply
  rw [h.sendAll_same _ _ rfl]
  exact h.sendAll_refused _ w

/-- An answer changes only the reply path. -/
theorem Hub.answer_only (h : Hub) (code : Nat) (hdr : Hdr) (st : Status) (body : List Byte) :
    h.onlyIn replyBlocks (h.answer code hdr st body) := by
  unfold Hub.answer Hub.answerOn
  split
  · intro b n; cases b <;> first | rfl | simp [replyBlocks] at n
  · cases w : h.muxRefuses with
    | false => exact Hub.onlyIn_mono (h.sendReply_only _ _ _ _ w).1 (by decide)
    | true =>
      obtain ⟨n, e⟩ := h.sendReply_refused (BitVec.ofNat 16 code) hdr st body w
      rw [e]
      intro b k; cases b <;> first | rfl | simp [replyBlocks] at k

/-- An answer leaves of the controllers' block everything but the replies that are held and the count of refusals. -/
theorem Hub.answer_red (h : Hub) (code : Nat) (hdr : Hdr) (st : Status) (body : List Byte) :
    ∃ l n, (h.answer code hdr st body).red = { h.red with heldReplies := l, rejects := n } := by
  unfold Hub.answer Hub.answerOn
  split
  · exact ⟨_, _, rfl⟩
  · cases w : h.muxRefuses with
    | false => exact ⟨_, _, (h.sendReply_only _ _ _ _ w).1 .red (by decide)⟩
    | true =>
      obtain ⟨n, e⟩ := h.sendReply_refused (BitVec.ofNat 16 code) hdr st body w
      exact ⟨_, n, by rw [e]⟩

/-- An answer is put out whole, or refused whole, or held whole. -/
theorem Hub.answer_replied (h : Hub) (code : Nat) (hdr : Hdr) (st : Status) (body : List Byte) :
    h.replied (h.answer code hdr st body) code hdr st body := by
  unfold Hub.answer Hub.answerOn
  refine ⟨fun e w => ?_, fun e w => ?_, fun e => ?_⟩
  · simp only [e, Option.isSome_none, Bool.false_eq_true, if_false]
    exact (h.sendReply_only _ _ _ _ w).2
  · simp only [e, Option.isSome_none, Bool.false_eq_true, if_false]
    obtain ⟨n, x⟩ := h.sendReply_refused (BitVec.ofNat 16 code) hdr st body w
    exact ⟨[], [], by rw [x, List.append_nil, List.append_nil]⟩
  · simp only [Option.isSome_iff_ne_none.2 e, if_true]

/-! ### Taking a packet -/

theorem Hub.powerDomain_only (h : Hub) (d : Nat) : h.onlyIn [.power, .red, .dcn, .pat] (h.powerDomain d) := by
  intro b n
  unfold Hub.powerDomain
  split
  · cases b <;> rfl
  · split <;> cases b <;> first | rfl | simp at n

theorem Hub.powerDomain_pat (h : Hub) (d : Nat) (n : d ≠ 17) : (h.powerDomain d).pat = h.pat := by
  unfold Hub.powerDomain
  split
  · rfl
  · split <;> first | rfl | omega

theorem Hub.wakeDomains_only (h : Hub) : h.onlyIn [.power, .red, .dcn] h.wakeDomains := by
  have p : h.onlyIn [.power, .red, .dcn, .pat] h.wakeDomains := by
    simp only [Hub.wakeDomains, Hub.powerDomains, List.foldl]
    exact Hub.onlyIn_trans (Hub.onlyIn_trans (Hub.onlyIn_trans (Hub.onlyIn_trans (h.powerDomain_only 2)
      (Hub.powerDomain_only _ 3)) (Hub.powerDomain_only _ 18)) (Hub.powerDomain_only _ 4)) (Hub.powerDomain_only _ 5)
  have q : h.wakeDomains.pat = h.pat := by
    simp only [Hub.wakeDomains, Hub.powerDomains, List.foldl]
    rw [Hub.powerDomain_pat _ 5 (by decide), Hub.powerDomain_pat _ 4 (by decide), Hub.powerDomain_pat _ 18 (by decide),
      Hub.powerDomain_pat _ 3 (by decide), Hub.powerDomain_pat _ 2 (by decide)]
  intro b n
  by_cases e : b = .pat
  · subst e; exact q
  · exact p b (by simp at n ⊢; exact ⟨n.1, n.2.1, n.2.2, e⟩)

/-- Waking, once the image has passed verification, powers domains and notes the time. -/
theorem Hub.wake_only (h : Hub) : h.onlyIn [.power, .red, .dcn] h.wake := by
  unfold Hub.wake
  split
  · refine Hub.onlyIn_trans (b := { h with power := { h.power with idleSince := h.pt } }) ?_ (Hub.wakeDomains_only _)
    intro b n; cases b <;> first | rfl | simp at n
  · exact h.onlyIn_refl _

theorem Hub.working_only (h : Hub) : h.onlyIn [.red] h.working := by
  intro b n; cases b <;> first | rfl | simp at n

theorem Hub.touch_only (h : Hub) (tag : W32) : h.onlyIn [.island] (h.touch tag) := by
  intro b n; cases b <;> first | rfl | simp at n

/-- Taking a packet touches only sessions, domains, the DCN's counts and the controllers. -/
theorem Hub.taken_only (h : Hub) (hdr : Hdr) : h.onlyIn takenBlocks (h.taken hdr) :=
  Hub.onlyIn_step (Hub.onlyIn_step (ds := takenBlocks) (h.touch_only hdr.session) (Hub.wake_only _) (by decide) (by decide))
    (Hub.working_only _) (by decide) (by decide)

theorem Hub.taken_island (h : Hub) (hdr : Hdr) : (h.taken hdr).island = (h.touch hdr.session).island :=
  (Hub.working_only _ .island (by decide)).trans (Hub.wake_only _ .island (by decide))

/-- A session keeps its tag and role as a packet of it is taken. -/
theorem Hub.taken_session (h : Hub) (hdr : Hdr) (tag : W32) :
    ((h.taken hdr).session tag).map (fun s => (s.tag, s.role, s.partition, s.soundKey)) =
      (h.session tag).map fun s => (s.tag, s.role, s.partition, s.soundKey) := by
  unfold Hub.session
  rw [h.taken_island]
  simp only [Hub.touch]
  induction h.island.sessions with
  | nil => rfl
  | cons s l ih =>
    by_cases e : s.tag = hdr.session
    · by_cases f : s.tag == tag <;> simp_all
    · by_cases f : s.tag == tag <;> simp_all

theorem Hub.taken_out (h : Hub) (hdr : Hdr) : (h.taken hdr).out = h.out := h.taken_only hdr .out (by decide)

end Sys2Proof.Machine
end

