-- ==== Sys2Proof/Laws/State.lean ====
section
/-! SUPPORT. One lemma for each field and each shared update of the hub: what the update leaves as it was. -/

namespace Sys2Proof.Machine

/-! ### Hub.emit -/

@[simp] theorem Hub.emit_time (h : Hub) (o : Out) : (h.emit o).time = h.time := rfl
@[simp] theorem Hub.emit_sight (h : Hub) (o : Out) : (h.emit o).sight = h.sight := rfl
@[simp] theorem Hub.emit_ident (h : Hub) (o : Out) : (h.emit o).ident = h.ident := rfl
@[simp] theorem Hub.emit_port (h : Hub) (o : Out) : (h.emit o).port = h.port := rfl
@[simp] theorem Hub.emit_tap (h : Hub) (o : Out) : (h.emit o).tap = h.tap := rfl
@[simp] theorem Hub.emit_i3c (h : Hub) (o : Out) : (h.emit o).i3c = h.i3c := rfl
@[simp] theorem Hub.emit_trig (h : Hub) (o : Out) : (h.emit o).trig = h.trig := rfl
@[simp] theorem Hub.emit_ctl (h : Hub) (o : Out) : (h.emit o).ctl = h.ctl := rfl
@[simp] theorem Hub.emit_dcn (h : Hub) (o : Out) : (h.emit o).dcn = h.dcn := rfl
@[simp] theorem Hub.emit_agents (h : Hub) (o : Out) : (h.emit o).agents = h.agents := rfl
@[simp] theorem Hub.emit_stops (h : Hub) (o : Out) : (h.emit o).stops = h.stops := rfl
@[simp] theorem Hub.emit_dump (h : Hub) (o : Out) : (h.emit o).dump = h.dump := rfl
@[simp] theorem Hub.emit_trace (h : Hub) (o : Out) : (h.emit o).trace = h.trace := rfl
@[simp] theorem Hub.emit_arrays (h : Hub) (o : Out) : (h.emit o).arrays = h.arrays := rfl
@[simp] theorem Hub.emit_soundings (h : Hub) (o : Out) : (h.emit o).soundings = h.soundings := rfl
@[simp] theorem Hub.emit_soundBudget (h : Hub) (o : Out) : (h.emit o).soundBudget = h.soundBudget := rfl
@[simp] theorem Hub.emit_replayStat (h : Hub) (o : Out) : (h.emit o).replayStat = h.replayStat := rfl
@[simp] theorem Hub.emit_probe (h : Hub) (o : Out) : (h.emit o).probe = h.probe := rfl
@[simp] theorem Hub.emit_fc (h : Hub) (o : Out) : (h.emit o).fc = h.fc := rfl
@[simp] theorem Hub.emit_pat (h : Hub) (o : Out) : (h.emit o).pat = h.pat := rfl
@[simp] theorem Hub.emit_red (h : Hub) (o : Out) : (h.emit o).red = h.red := rfl
@[simp] theorem Hub.emit_island (h : Hub) (o : Out) : (h.emit o).island = h.island := rfl
@[simp] theorem Hub.emit_power (h : Hub) (o : Out) : (h.emit o).power = h.power := rfl
@[simp] theorem Hub.emit_fe (h : Hub) (o : Out) : (h.emit o).fe = h.fe := rfl
@[simp] theorem Hub.emit_chip (h : Hub) (o : Out) : (h.emit o).chip = h.chip := rfl
@[simp] theorem Hub.emit_slot (h : Hub) (o : Out) : (h.emit o).slot = h.slot := rfl
@[simp] theorem Hub.emit_discards (h : Hub) (o : Out) : (h.emit o).discards = h.discards := rfl
@[simp] theorem Hub.emit_latches (h : Hub) (o : Out) : (h.emit o).latches = h.latches := rfl
@[simp] theorem Hub.emit_free (h : Hub) (o : Out) : (h.emit o).free = h.free := rfl

/-! ### Hub.drawFree -/

@[simp] theorem Hub.drawFree_time (h : Hub) : (h.drawFree).time = h.time := rfl
@[simp] theorem Hub.drawFree_sight (h : Hub) : (h.drawFree).sight = h.sight := rfl
@[simp] theorem Hub.drawFree_ident (h : Hub) : (h.drawFree).ident = h.ident := rfl
@[simp] theorem Hub.drawFree_port (h : Hub) : (h.drawFree).port = h.port := rfl
@[simp] theorem Hub.drawFree_tap (h : Hub) : (h.drawFree).tap = h.tap := rfl
@[simp] theorem Hub.drawFree_i3c (h : Hub) : (h.drawFree).i3c = h.i3c := rfl
@[simp] theorem Hub.drawFree_trig (h : Hub) : (h.drawFree).trig = h.trig := rfl
@[simp] theorem Hub.drawFree_ctl (h : Hub) : (h.drawFree).ctl = h.ctl := rfl
@[simp] theorem Hub.drawFree_dcn (h : Hub) : (h.drawFree).dcn = h.dcn := rfl
@[simp] theorem Hub.drawFree_agents (h : Hub) : (h.drawFree).agents = h.agents := rfl
@[simp] theorem Hub.drawFree_stops (h : Hub) : (h.drawFree).stops = h.stops := rfl
@[simp] theorem Hub.drawFree_dump (h : Hub) : (h.drawFree).dump = h.dump := rfl
@[simp] theorem Hub.drawFree_trace (h : Hub) : (h.drawFree).trace = h.trace := rfl
@[simp] theorem Hub.drawFree_arrays (h : Hub) : (h.drawFree).arrays = h.arrays := rfl
@[simp] theorem Hub.drawFree_soundings (h : Hub) : (h.drawFree).soundings = h.soundings := rfl
@[simp] theorem Hub.drawFree_soundBudget (h : Hub) : (h.drawFree).soundBudget = h.soundBudget := rfl
@[simp] theorem Hub.drawFree_replayStat (h : Hub) : (h.drawFree).replayStat = h.replayStat := rfl
@[simp] theorem Hub.drawFree_probe (h : Hub) : (h.drawFree).probe = h.probe := rfl
@[simp] theorem Hub.drawFree_fc (h : Hub) : (h.drawFree).fc = h.fc := rfl
@[simp] theorem Hub.drawFree_pat (h : Hub) : (h.drawFree).pat = h.pat := rfl
@[simp] theorem Hub.drawFree_red (h : Hub) : (h.drawFree).red = h.red := rfl
@[simp] theorem Hub.drawFree_island (h : Hub) : (h.drawFree).island = h.island := rfl
@[simp] theorem Hub.drawFree_power (h : Hub) : (h.drawFree).power = h.power := rfl
@[simp] theorem Hub.drawFree_fe (h : Hub) : (h.drawFree).fe = h.fe := rfl
@[simp] theorem Hub.drawFree_chip (h : Hub) : (h.drawFree).chip = h.chip := rfl
@[simp] theorem Hub.drawFree_slot (h : Hub) : (h.drawFree).slot = h.slot := rfl
@[simp] theorem Hub.drawFree_discards (h : Hub) : (h.drawFree).discards = h.discards := rfl
@[simp] theorem Hub.drawFree_latches (h : Hub) : (h.drawFree).latches = h.latches := rfl
@[simp] theorem Hub.drawFree_out (h : Hub) : (h.drawFree).out = h.out := rfl

/-! ### Hub.setAgent -/

@[simp] theorem Hub.setAgent_time (h : Hub) (u : UnitId) (a : Agent) : (h.setAgent u a).time = h.time := rfl
@[simp] theorem Hub.setAgent_sight (h : Hub) (u : UnitId) (a : Agent) : (h.setAgent u a).sight = h.sight := rfl
@[simp] theorem Hub.setAgent_ident (h : Hub) (u : UnitId) (a : Agent) : (h.setAgent u a).ident = h.ident := rfl
@[simp] theorem Hub.setAgent_port (h : Hub) (u : UnitId) (a : Agent) : (h.setAgent u a).port = h.port := rfl
@[simp] theorem Hub.setAgent_tap (h : Hub) (u : UnitId) (a : Agent) : (h.setAgent u a).tap = h.tap := rfl
@[simp] theorem Hub.setAgent_i3c (h : Hub) (u : UnitId) (a : Agent) : (h.setAgent u a).i3c = h.i3c := rfl
@[simp] theorem Hub.setAgent_trig (h : Hub) (u : UnitId) (a : Agent) : (h.setAgent u a).trig = h.trig := rfl
@[simp] theorem Hub.setAgent_ctl (h : Hub) (u : UnitId) (a : Agent) : (h.setAgent u a).ctl = h.ctl := rfl
@[simp] theorem Hub.setAgent_dcn (h : Hub) (u : UnitId) (a : Agent) : (h.setAgent u a).dcn = h.dcn := rfl
@[simp] theorem Hub.setAgent_stops (h : Hub) (u : UnitId) (a : Agent) : (h.setAgent u a).stops = h.stops := rfl
@[simp] theorem Hub.setAgent_dump (h : Hub) (u : UnitId) (a : Agent) : (h.setAgent u a).dump = h.dump := rfl
@[simp] theorem Hub.setAgent_trace (h : Hub) (u : UnitId) (a : Agent) : (h.setAgent u a).trace = h.trace := rfl
@[simp] theorem Hub.setAgent_arrays (h : Hub) (u : UnitId) (a : Agent) : (h.setAgent u a).arrays = h.arrays := rfl
@[simp] theorem Hub.setAgent_soundings (h : Hub) (u : UnitId) (a : Agent) : (h.setAgent u a).soundings = h.soundings := rfl
@[simp] theorem Hub.setAgent_soundBudget (h : Hub) (u : UnitId) (a : Agent) : (h.setAgent u a).soundBudget = h.soundBudget := rfl
@[simp] theorem Hub.setAgent_replayStat (h : Hub) (u : UnitId) (a : Agent) : (h.setAgent u a).replayStat = h.replayStat := rfl
@[simp] theorem Hub.setAgent_probe (h : Hub) (u : UnitId) (a : Agent) : (h.setAgent u a).probe = h.probe := rfl
@[simp] theorem Hub.setAgent_fc (h : Hub) (u : UnitId) (a : Agent) : (h.setAgent u a).fc = h.fc := rfl
@[simp] theorem Hub.setAgent_pat (h : Hub) (u : UnitId) (a : Agent) : (h.setAgent u a).pat = h.pat := rfl
@[simp] theorem Hub.setAgent_red (h : Hub) (u : UnitId) (a : Agent) : (h.setAgent u a).red = h.red := rfl
@[simp] theorem Hub.setAgent_island (h : Hub) (u : UnitId) (a : Agent) : (h.setAgent u a).island = h.island := rfl
@[simp] theorem Hub.setAgent_power (h : Hub) (u : UnitId) (a : Agent) : (h.setAgent u a).power = h.power := rfl
@[simp] theorem Hub.setAgent_fe (h : Hub) (u : UnitId) (a : Agent) : (h.setAgent u a).fe = h.fe := rfl
@[simp] theorem Hub.setAgent_chip (h : Hub) (u : UnitId) (a : Agent) : (h.setAgent u a).chip = h.chip := rfl
@[simp] theorem Hub.setAgent_slot (h : Hub) (u : UnitId) (a : Agent) : (h.setAgent u a).slot = h.slot := rfl
@[simp] theorem Hub.setAgent_discards (h : Hub) (u : UnitId) (a : Agent) : (h.setAgent u a).discards = h.discards := rfl
@[simp] theorem Hub.setAgent_latches (h : Hub) (u : UnitId) (a : Agent) : (h.setAgent u a).latches = h.latches := rfl
@[simp] theorem Hub.setAgent_out (h : Hub) (u : UnitId) (a : Agent) : (h.setAgent u a).out = h.out := rfl
@[simp] theorem Hub.setAgent_free (h : Hub) (u : UnitId) (a : Agent) : (h.setAgent u a).free = h.free := rfl

/-! ### Hub.modAgent -/

@[simp] theorem Hub.modAgent_time (h : Hub) (u : UnitId) (f : Agent → Agent) : (h.modAgent u f).time = h.time := rfl
@[simp] theorem Hub.modAgent_sight (h : Hub) (u : UnitId) (f : Agent → Agent) : (h.modAgent u f).sight = h.sight := rfl
@[simp] theorem Hub.modAgent_ident (h : Hub) (u : UnitId) (f : Agent → Agent) : (h.modAgent u f).ident = h.ident := rfl
@[simp] theorem Hub.modAgent_port (h : Hub) (u : UnitId) (f : Agent → Agent) : (h.modAgent u f).port = h.port := rfl
@[simp] theorem Hub.modAgent_tap (h : Hub) (u : UnitId) (f : Agent → Agent) : (h.modAgent u f).tap = h.tap := rfl
@[simp] theorem Hub.modAgent_i3c (h : Hub) (u : UnitId) (f : Agent → Agent) : (h.modAgent u f).i3c = h.i3c := rfl
@[simp] theorem Hub.modAgent_trig (h : Hub) (u : UnitId) (f : Agent → Agent) : (h.modAgent u f).trig = h.trig := rfl
@[simp] theorem Hub.modAgent_ctl (h : Hub) (u : UnitId) (f : Agent → Agent) : (h.modAgent u f).ctl = h.ctl := rfl
@[simp] theorem Hub.modAgent_dcn (h : Hub) (u : UnitId) (f : Agent → Agent) : (h.modAgent u f).dcn = h.dcn := rfl
@[simp] theorem Hub.modAgent_stops (h : Hub) (u : UnitId) (f : Agent → Agent) : (h.modAgent u f).stops = h.stops := rfl
@[simp] theorem Hub.modAgent_dump (h : Hub) (u : UnitId) (f : Agent → Agent) : (h.modAgent u f).dump = h.dump := rfl
@[simp] theorem Hub.modAgent_trace (h : Hub) (u : UnitId) (f : Agent → Agent) : (h.modAgent u f).trace = h.trace := rfl
@[simp] theorem Hub.modAgent_arrays (h : Hub) (u : UnitId) (f : Agent → Agent) : (h.modAgent u f).arrays = h.arrays := rfl
@[simp] theorem Hub.modAgent_soundings (h : Hub) (u : UnitId) (f : Agent → Agent) : (h.modAgent u f).soundings = h.soundings := rfl
@[simp] theorem Hub.modAgent_soundBudget (h : Hub) (u : UnitId) (f : Agent → Agent) : (h.modAgent u f).soundBudget = h.soundBudget := rfl
@[simp] theorem Hub.modAgent_replayStat (h : Hub) (u : UnitId) (f : Agent → Agent) : (h.modAgent u f).replayStat = h.replayStat := rfl
@[simp] theorem Hub.modAgent_probe (h : Hub) (u : UnitId) (f : Agent → Agent) : (h.modAgent u f).probe = h.probe := rfl
@[simp] theorem Hub.modAgent_fc (h : Hub) (u : UnitId) (f : Agent → Agent) : (h.modAgent u f).fc = h.fc := rfl
@[simp] theorem Hub.modAgent_pat (h : Hub) (u : UnitId) (f : Agent → Agent) : (h.modAgent u f).pat = h.pat := rfl
@[simp] theorem Hub.modAgent_red (h : Hub) (u : UnitId) (f : Agent → Agent) : (h.modAgent u f).red = h.red := rfl
@[simp] theorem Hub.modAgent_island (h : Hub) (u : UnitId) (f : Agent → Agent) : (h.modAgent u f).island = h.island := rfl
@[simp] theorem Hub.modAgent_power (h : Hub) (u : UnitId) (f : Agent → Agent) : (h.modAgent u f).power = h.power := rfl
@[simp] theorem Hub.modAgent_fe (h : Hub) (u : UnitId) (f : Agent → Agent) : (h.modAgent u f).fe = h.fe := rfl
@[simp] theorem Hub.modAgent_chip (h : Hub) (u : UnitId) (f : Agent → Agent) : (h.modAgent u f).chip = h.chip := rfl
@[simp] theorem Hub.modAgent_slot (h : Hub) (u : UnitId) (f : Agent → Agent) : (h.modAgent u f).slot = h.slot := rfl
@[simp] theorem Hub.modAgent_discards (h : Hub) (u : UnitId) (f : Agent → Agent) : (h.modAgent u f).discards = h.discards := rfl
@[simp] theorem Hub.modAgent_latches (h : Hub) (u : UnitId) (f : Agent → Agent) : (h.modAgent u f).latches = h.latches := rfl
@[simp] theorem Hub.modAgent_out (h : Hub) (u : UnitId) (f : Agent → Agent) : (h.modAgent u f).out = h.out := rfl
@[simp] theorem Hub.modAgent_free (h : Hub) (u : UnitId) (f : Agent → Agent) : (h.modAgent u f).free = h.free := rfl

/-! ### Hub.setLink -/

@[simp] theorem Hub.setLink_time (h : Hub) (n : LinkName) (l : LinkSt) : (h.setLink n l).time = h.time := rfl
@[simp] theorem Hub.setLink_sight (h : Hub) (n : LinkName) (l : LinkSt) : (h.setLink n l).sight = h.sight := rfl
@[simp] theorem Hub.setLink_ident (h : Hub) (n : LinkName) (l : LinkSt) : (h.setLink n l).ident = h.ident := rfl
@[simp] theorem Hub.setLink_port (h : Hub) (n : LinkName) (l : LinkSt) : (h.setLink n l).port = h.port := rfl
@[simp] theorem Hub.setLink_tap (h : Hub) (n : LinkName) (l : LinkSt) : (h.setLink n l).tap = h.tap := rfl
@[simp] theorem Hub.setLink_i3c (h : Hub) (n : LinkName) (l : LinkSt) : (h.setLink n l).i3c = h.i3c := rfl
@[simp] theorem Hub.setLink_trig (h : Hub) (n : LinkName) (l : LinkSt) : (h.setLink n l).trig = h.trig := rfl
@[simp] theorem Hub.setLink_ctl (h : Hub) (n : LinkName) (l : LinkSt) : (h.setLink n l).ctl = h.ctl := rfl
@[simp] theorem Hub.setLink_agents (h : Hub) (n : LinkName) (l : LinkSt) : (h.setLink n l).agents = h.agents := rfl
@[simp] theorem Hub.setLink_stops (h : Hub) (n : LinkName) (l : LinkSt) : (h.setLink n l).stops = h.stops := rfl
@[simp] theorem Hub.setLink_dump (h : Hub) (n : LinkName) (l : LinkSt) : (h.setLink n l).dump = h.dump := rfl
@[simp] theorem Hub.setLink_trace (h : Hub) (n : LinkName) (l : LinkSt) : (h.setLink n l).trace = h.trace := rfl
@[simp] theorem Hub.setLink_arrays (h : Hub) (n : LinkName) (l : LinkSt) : (h.setLink n l).arrays = h.arrays := rfl
@[simp] theorem Hub.setLink_soundings (h : Hub) (n : LinkName) (l : LinkSt) : (h.setLink n l).soundings = h.soundings := rfl
@[simp] theorem Hub.setLink_soundBudget (h : Hub) (n : LinkName) (l : LinkSt) : (h.setLink n l).soundBudget = h.soundBudget := rfl
@[simp] theorem Hub.setLink_replayStat (h : Hub) (n : LinkName) (l : LinkSt) : (h.setLink n l).replayStat = h.replayStat := rfl
@[simp] theorem Hub.setLink_probe (h : Hub) (n : LinkName) (l : LinkSt) : (h.setLink n l).probe = h.probe := rfl
@[simp] theorem Hub.setLink_fc (h : Hub) (n : LinkName) (l : LinkSt) : (h.setLink n l).fc = h.fc := rfl
@[simp] theorem Hub.setLink_pat (h : Hub) (n : LinkName) (l : LinkSt) : (h.setLink n l).pat = h.pat := rfl
@[simp] theorem Hub.setLink_red (h : Hub) (n : LinkName) (l : LinkSt) : (h.setLink n l).red = h.red := rfl
@[simp] theorem Hub.setLink_island (h : Hub) (n : LinkName) (l : LinkSt) : (h.setLink n l).island = h.island := rfl
@[simp] theorem Hub.setLink_power (h : Hub) (n : LinkName) (l : LinkSt) : (h.setLink n l).power = h.power := rfl
@[simp] theorem Hub.setLink_fe (h : Hub) (n : LinkName) (l : LinkSt) : (h.setLink n l).fe = h.fe := rfl
@[simp] theorem Hub.setLink_chip (h : Hub) (n : LinkName) (l : LinkSt) : (h.setLink n l).chip = h.chip := rfl
@[simp] theorem Hub.setLink_slot (h : Hub) (n : LinkName) (l : LinkSt) : (h.setLink n l).slot = h.slot := rfl
@[simp] theorem Hub.setLink_discards (h : Hub) (n : LinkName) (l : LinkSt) : (h.setLink n l).discards = h.discards := rfl
@[simp] theorem Hub.setLink_latches (h : Hub) (n : LinkName) (l : LinkSt) : (h.setLink n l).latches = h.latches := rfl
@[simp] theorem Hub.setLink_out (h : Hub) (n : LinkName) (l : LinkSt) : (h.setLink n l).out = h.out := rfl
@[simp] theorem Hub.setLink_free (h : Hub) (n : LinkName) (l : LinkSt) : (h.setLink n l).free = h.free := rfl

/-! ### Hub.setProg -/

@[simp] theorem Hub.setProg_time (h : Hub) (p : Prog) : (h.setProg p).time = h.time := rfl
@[simp] theorem Hub.setProg_sight (h : Hub) (p : Prog) : (h.setProg p).sight = h.sight := rfl
@[simp] theorem Hub.setProg_ident (h : Hub) (p : Prog) : (h.setProg p).ident = h.ident := rfl
@[simp] theorem Hub.setProg_port (h : Hub) (p : Prog) : (h.setProg p).port = h.port := rfl
@[simp] theorem Hub.setProg_tap (h : Hub) (p : Prog) : (h.setProg p).tap = h.tap := rfl
@[simp] theorem Hub.setProg_i3c (h : Hub) (p : Prog) : (h.setProg p).i3c = h.i3c := rfl
@[simp] theorem Hub.setProg_trig (h : Hub) (p : Prog) : (h.setProg p).trig = h.trig := rfl
@[simp] theorem Hub.setProg_ctl (h : Hub) (p : Prog) : (h.setProg p).ctl = h.ctl := rfl
@[simp] theorem Hub.setProg_dcn (h : Hub) (p : Prog) : (h.setProg p).dcn = h.dcn := rfl
@[simp] theorem Hub.setProg_agents (h : Hub) (p : Prog) : (h.setProg p).agents = h.agents := rfl
@[simp] theorem Hub.setProg_stops (h : Hub) (p : Prog) : (h.setProg p).stops = h.stops := rfl
@[simp] theorem Hub.setProg_dump (h : Hub) (p : Prog) : (h.setProg p).dump = h.dump := rfl
@[simp] theorem Hub.setProg_trace (h : Hub) (p : Prog) : (h.setProg p).trace = h.trace := rfl
@[simp] theorem Hub.setProg_arrays (h : Hub) (p : Prog) : (h.setProg p).arrays = h.arrays := rfl
@[simp] theorem Hub.setProg_soundings (h : Hub) (p : Prog) : (h.setProg p).soundings = h.soundings := rfl
@[simp] theorem Hub.setProg_soundBudget (h : Hub) (p : Prog) : (h.setProg p).soundBudget = h.soundBudget := rfl
@[simp] theorem Hub.setProg_replayStat (h : Hub) (p : Prog) : (h.setProg p).replayStat = h.replayStat := rfl
@[simp] theorem Hub.setProg_probe (h : Hub) (p : Prog) : (h.setProg p).probe = h.probe := rfl
@[simp] theorem Hub.setProg_fc (h : Hub) (p : Prog) : (h.setProg p).fc = h.fc := rfl
@[simp] theorem Hub.setProg_pat (h : Hub) (p : Prog) : (h.setProg p).pat = h.pat := rfl
@[simp] theorem Hub.setProg_red (h : Hub) (p : Prog) : (h.setProg p).red = h.red := rfl
@[simp] theorem Hub.setProg_island (h : Hub) (p : Prog) : (h.setProg p).island = h.island := rfl
@[simp] theorem Hub.setProg_power (h : Hub) (p : Prog) : (h.setProg p).power = h.power := rfl
@[simp] theorem Hub.setProg_fe (h : Hub) (p : Prog) : (h.setProg p).fe = h.fe := rfl
@[simp] theorem Hub.setProg_chip (h : Hub) (p : Prog) : (h.setProg p).chip = h.chip := rfl
@[simp] theorem Hub.setProg_discards (h : Hub) (p : Prog) : (h.setProg p).discards = h.discards := rfl
@[simp] theorem Hub.setProg_latches (h : Hub) (p : Prog) : (h.setProg p).latches = h.latches := rfl
@[simp] theorem Hub.setProg_out (h : Hub) (p : Prog) : (h.setProg p).out = h.out := rfl
@[simp] theorem Hub.setProg_free (h : Hub) (p : Prog) : (h.setProg p).free = h.free := rfl

/-! ### Hub.occupy -/

@[simp] theorem Hub.occupy_time (h : Hub) (c : Nat) (d : Hdr) (p : Prog) : (h.occupy c d p).time = h.time := rfl
@[simp] theorem Hub.occupy_sight (h : Hub) (c : Nat) (d : Hdr) (p : Prog) : (h.occupy c d p).sight = h.sight := rfl
@[simp] theorem Hub.occupy_ident (h : Hub) (c : Nat) (d : Hdr) (p : Prog) : (h.occupy c d p).ident = h.ident := rfl
@[simp] theorem Hub.occupy_port (h : Hub) (c : Nat) (d : Hdr) (p : Prog) : (h.occupy c d p).port = h.port := rfl
@[simp] theorem Hub.occupy_tap (h : Hub) (c : Nat) (d : Hdr) (p : Prog) : (h.occupy c d p).tap = h.tap := rfl
@[simp] theorem Hub.occupy_i3c (h : Hub) (c : Nat) (d : Hdr) (p : Prog) : (h.occupy c d p).i3c = h.i3c := rfl
@[simp] theorem Hub.occupy_trig (h : Hub) (c : Nat) (d : Hdr) (p : Prog) : (h.occupy c d p).trig = h.trig := rfl
@[simp] theorem Hub.occupy_ctl (h : Hub) (c : Nat) (d : Hdr) (p : Prog) : (h.occupy c d p).ctl = h.ctl := rfl
@[simp] theorem Hub.occupy_dcn (h : Hub) (c : Nat) (d : Hdr) (p : Prog) : (h.occupy c d p).dcn = h.dcn := rfl
@[simp] theorem Hub.occupy_agents (h : Hub) (c : Nat) (d : Hdr) (p : Prog) : (h.occupy c d p).agents = h.agents := rfl
@[simp] theorem Hub.occupy_stops (h : Hub) (c : Nat) (d : Hdr) (p : Prog) : (h.occupy c d p).stops = h.stops := rfl
@[simp] theorem Hub.occupy_dump (h : Hub) (c : Nat) (d : Hdr) (p : Prog) : (h.occupy c d p).dump = h.dump := rfl
@[simp] theorem Hub.occupy_trace (h : Hub) (c : Nat) (d : Hdr) (p : Prog) : (h.occupy c d p).trace = h.trace := rfl
@[simp] theorem Hub.occupy_arrays (h : Hub) (c : Nat) (d : Hdr) (p : Prog) : (h.occupy c d p).arrays = h.arrays := rfl
@[simp] theorem Hub.occupy_soundings (h : Hub) (c : Nat) (d : Hdr) (p : Prog) : (h.occupy c d p).soundings = h.soundings := rfl
@[simp] theorem Hub.occupy_soundBudget (h : Hub) (c : Nat) (d : Hdr) (p : Prog) : (h.occupy c d p).soundBudget = h.soundBudget := rfl
@[simp] theorem Hub.occupy_replayStat (h : Hub) (c : Nat) (d : Hdr) (p : Prog) : (h.occupy c d p).replayStat = h.replayStat := rfl
@[simp] theorem Hub.occupy_probe (h : Hub) (c : Nat) (d : Hdr) (p : Prog) : (h.occupy c d p).probe = h.probe := rfl
@[simp] theorem Hub.occupy_fc (h : Hub) (c : Nat) (d : Hdr) (p : Prog) : (h.occupy c d p).fc = h.fc := rfl
@[simp] theorem Hub.occupy_pat (h : Hub) (c : Nat) (d : Hdr) (p : Prog) : (h.occupy c d p).pat = h.pat := rfl
@[simp] theorem Hub.occupy_red (h : Hub) (c : Nat) (d : Hdr) (p : Prog) : (h.occupy c d p).red = h.red := rfl
@[simp] theorem Hub.occupy_island (h : Hub) (c : Nat) (d : Hdr) (p : Prog) : (h.occupy c d p).island = h.island := rfl
@[simp] theorem Hub.occupy_power (h : Hub) (c : Nat) (d : Hdr) (p : Prog) : (h.occupy c d p).power = h.power := rfl
@[simp] theorem Hub.occupy_fe (h : Hub) (c : Nat) (d : Hdr) (p : Prog) : (h.occupy c d p).fe = h.fe := rfl
@[simp] theorem Hub.occupy_chip (h : Hub) (c : Nat) (d : Hdr) (p : Prog) : (h.occupy c d p).chip = h.chip := rfl
@[simp] theorem Hub.occupy_discards (h : Hub) (c : Nat) (d : Hdr) (p : Prog) : (h.occupy c d p).discards = h.discards := rfl
@[simp] theorem Hub.occupy_latches (h : Hub) (c : Nat) (d : Hdr) (p : Prog) : (h.occupy c d p).latches = h.latches := rfl
@[simp] theorem Hub.occupy_out (h : Hub) (c : Nat) (d : Hdr) (p : Prog) : (h.occupy c d p).out = h.out := rfl
@[simp] theorem Hub.occupy_free (h : Hub) (c : Nat) (d : Hdr) (p : Prog) : (h.occupy c d p).free = h.free := rfl

/-! ### Hub.touch -/

@[simp] theorem Hub.touch_time (h : Hub) (t : W32) : (h.touch t).time = h.time := rfl
@[simp] theorem Hub.touch_sight (h : Hub) (t : W32) : (h.touch t).sight = h.sight := rfl
@[simp] theorem Hub.touch_ident (h : Hub) (t : W32) : (h.touch t).ident = h.ident := rfl
@[simp] theorem Hub.touch_port (h : Hub) (t : W32) : (h.touch t).port = h.port := rfl
@[simp] theorem Hub.touch_tap (h : Hub) (t : W32) : (h.touch t).tap = h.tap := rfl
@[simp] theorem Hub.touch_i3c (h : Hub) (t : W32) : (h.touch t).i3c = h.i3c := rfl
@[simp] theorem Hub.touch_trig (h : Hub) (t : W32) : (h.touch t).trig = h.trig := rfl
@[simp] theorem Hub.touch_ctl (h : Hub) (t : W32) : (h.touch t).ctl = h.ctl := rfl
@[simp] theorem Hub.touch_dcn (h : Hub) (t : W32) : (h.touch t).dcn = h.dcn := rfl
@[simp] theorem Hub.touch_agents (h : Hub) (t : W32) : (h.touch t).agents = h.agents := rfl
@[simp] theorem Hub.touch_stops (h : Hub) (t : W32) : (h.touch t).stops = h.stops := rfl
@[simp] theorem Hub.touch_dump (h : Hub) (t : W32) : (h.touch t).dump = h.dump := rfl
@[simp] theorem Hub.touch_trace (h : Hub) (t : W32) : (h.touch t).trace = h.trace := rfl
@[simp] theorem Hub.touch_arrays (h : Hub) (t : W32) : (h.touch t).arrays = h.arrays := rfl
@[simp] theorem Hub.touch_soundings (h : Hub) (t : W32) : (h.touch t).soundings = h.soundings := rfl
@[simp] theorem Hub.touch_soundBudget (h : Hub) (t : W32) : (h.touch t).soundBudget = h.soundBudget := rfl
@[simp] theorem Hub.touch_replayStat (h : Hub) (t : W32) : (h.touch t).replayStat = h.replayStat := rfl
@[simp] theorem Hub.touch_probe (h : Hub) (t : W32) : (h.touch t).probe = h.probe := rfl
@[simp] theorem Hub.touch_fc (h : Hub) (t : W32) : (h.touch t).fc = h.fc := rfl
@[simp] theorem Hub.touch_pat (h : Hub) (t : W32) : (h.touch t).pat = h.pat := rfl
@[simp] theorem Hub.touch_red (h : Hub) (t : W32) : (h.touch t).red = h.red := rfl
@[simp] theorem Hub.touch_power (h : Hub) (t : W32) : (h.touch t).power = h.power := rfl
@[simp] theorem Hub.touch_fe (h : Hub) (t : W32) : (h.touch t).fe = h.fe := rfl
@[simp] theorem Hub.touch_chip (h : Hub) (t : W32) : (h.touch t).chip = h.chip := rfl
@[simp] theorem Hub.touch_slot (h : Hub) (t : W32) : (h.touch t).slot = h.slot := rfl
@[simp] theorem Hub.touch_discards (h : Hub) (t : W32) : (h.touch t).discards = h.discards := rfl
@[simp] theorem Hub.touch_latches (h : Hub) (t : W32) : (h.touch t).latches = h.latches := rfl
@[simp] theorem Hub.touch_out (h : Hub) (t : W32) : (h.touch t).out = h.out := rfl
@[simp] theorem Hub.touch_free (h : Hub) (t : W32) : (h.touch t).free = h.free := rfl

/-! ### Hub.working -/

@[simp] theorem Hub.working_time (h : Hub) : (h.working).time = h.time := rfl
@[simp] theorem Hub.working_sight (h : Hub) : (h.working).sight = h.sight := rfl
@[simp] theorem Hub.working_ident (h : Hub) : (h.working).ident = h.ident := rfl
@[simp] theorem Hub.working_port (h : Hub) : (h.working).port = h.port := rfl
@[simp] theorem Hub.working_tap (h : Hub) : (h.working).tap = h.tap := rfl
@[simp] theorem Hub.working_i3c (h : Hub) : (h.working).i3c = h.i3c := rfl
@[simp] theorem Hub.working_trig (h : Hub) : (h.working).trig = h.trig := rfl
@[simp] theorem Hub.working_ctl (h : Hub) : (h.working).ctl = h.ctl := rfl
@[simp] theorem Hub.working_dcn (h : Hub) : (h.working).dcn = h.dcn := rfl
@[simp] theorem Hub.working_agents (h : Hub) : (h.working).agents = h.agents := rfl
@[simp] theorem Hub.working_stops (h : Hub) : (h.working).stops = h.stops := rfl
@[simp] theorem Hub.working_dump (h : Hub) : (h.working).dump = h.dump := rfl
@[simp] theorem Hub.working_trace (h : Hub) : (h.working).trace = h.trace := rfl
@[simp] theorem Hub.working_arrays (h : Hub) : (h.working).arrays = h.arrays := rfl
@[simp] theorem Hub.working_soundings (h : Hub) : (h.working).soundings = h.soundings := rfl
@[simp] theorem Hub.working_soundBudget (h : Hub) : (h.working).soundBudget = h.soundBudget := rfl
@[simp] theorem Hub.working_replayStat (h : Hub) : (h.working).replayStat = h.replayStat := rfl
@[simp] theorem Hub.working_probe (h : Hub) : (h.working).probe = h.probe := rfl
@[simp] theorem Hub.working_fc (h : Hub) : (h.working).fc = h.fc := rfl
@[simp] theorem Hub.working_pat (h : Hub) : (h.working).pat = h.pat := rfl
@[simp] theorem Hub.working_island (h : Hub) : (h.working).island = h.island := rfl
@[simp] theorem Hub.working_power (h : Hub) : (h.working).power = h.power := rfl
@[simp] theorem Hub.working_fe (h : Hub) : (h.working).fe = h.fe := rfl
@[simp] theorem Hub.working_chip (h : Hub) : (h.working).chip = h.chip := rfl
@[simp] theorem Hub.working_slot (h : Hub) : (h.working).slot = h.slot := rfl
@[simp] theorem Hub.working_discards (h : Hub) : (h.working).discards = h.discards := rfl
@[simp] theorem Hub.working_latches (h : Hub) : (h.working).latches = h.latches := rfl
@[simp] theorem Hub.working_out (h : Hub) : (h.working).out = h.out := rfl
@[simp] theorem Hub.working_free (h : Hub) : (h.working).free = h.free := rfl

/-! ### Hub.setCombine -/

@[simp] theorem Hub.setCombine_time (h : Hub) (c : Combine) : (h.setCombine c).time = h.time := rfl
@[simp] theorem Hub.setCombine_sight (h : Hub) (c : Combine) : (h.setCombine c).sight = h.sight := rfl
@[simp] theorem Hub.setCombine_ident (h : Hub) (c : Combine) : (h.setCombine c).ident = h.ident := rfl
@[simp] theorem Hub.setCombine_port (h : Hub) (c : Combine) : (h.setCombine c).port = h.port := rfl
@[simp] theorem Hub.setCombine_tap (h : Hub) (c : Combine) : (h.setCombine c).tap = h.tap := rfl
@[simp] theorem Hub.setCombine_i3c (h : Hub) (c : Combine) : (h.setCombine c).i3c = h.i3c := rfl
@[simp] theorem Hub.setCombine_trig (h : Hub) (c : Combine) : (h.setCombine c).trig = h.trig := rfl
@[simp] theorem Hub.setCombine_ctl (h : Hub) (c : Combine) : (h.setCombine c).ctl = h.ctl := rfl
@[simp] theorem Hub.setCombine_agents (h : Hub) (c : Combine) : (h.setCombine c).agents = h.agents := rfl
@[simp] theorem Hub.setCombine_stops (h : Hub) (c : Combine) : (h.setCombine c).stops = h.stops := rfl
@[simp] theorem Hub.setCombine_dump (h : Hub) (c : Combine) : (h.setCombine c).dump = h.dump := rfl
@[simp] theorem Hub.setCombine_trace (h : Hub) (c : Combine) : (h.setCombine c).trace = h.trace := rfl
@[simp] theorem Hub.setCombine_arrays (h : Hub) (c : Combine) : (h.setCombine c).arrays = h.arrays := rfl
@[simp] theorem Hub.setCombine_soundings (h : Hub) (c : Combine) : (h.setCombine c).soundings = h.soundings := rfl
@[simp] theorem Hub.setCombine_soundBudget (h : Hub) (c : Combine) : (h.setCombine c).soundBudget = h.soundBudget := rfl
@[simp] theorem Hub.setCombine_replayStat (h : Hub) (c : Combine) : (h.setCombine c).replayStat = h.replayStat := rfl
@[simp] theorem Hub.setCombine_probe (h : Hub) (c : Combine) : (h.setCombine c).probe = h.probe := rfl
@[simp] theorem Hub.setCombine_fc (h : Hub) (c : Combine) : (h.setCombine c).fc = h.fc := rfl
@[simp] theorem Hub.setCombine_pat (h : Hub) (c : Combine) : (h.setCombine c).pat = h.pat := rfl
@[simp] theorem Hub.setCombine_red (h : Hub) (c : Combine) : (h.setCombine c).red = h.red := rfl
@[simp] theorem Hub.setCombine_island (h : Hub) (c : Combine) : (h.setCombine c).island = h.island := rfl
@[simp] theorem Hub.setCombine_power (h : Hub) (c : Combine) : (h.setCombine c).power = h.power := rfl
@[simp] theorem Hub.setCombine_fe (h : Hub) (c : Combine) : (h.setCombine c).fe = h.fe := rfl
@[simp] theorem Hub.setCombine_chip (h : Hub) (c : Combine) : (h.setCombine c).chip = h.chip := rfl
@[simp] theorem Hub.setCombine_slot (h : Hub) (c : Combine) : (h.setCombine c).slot = h.slot := rfl
@[simp] theorem Hub.setCombine_discards (h : Hub) (c : Combine) : (h.setCombine c).discards = h.discards := rfl
@[simp] theorem Hub.setCombine_latches (h : Hub) (c : Combine) : (h.setCombine c).latches = h.latches := rfl
@[simp] theorem Hub.setCombine_out (h : Hub) (c : Combine) : (h.setCombine c).out = h.out := rfl
@[simp] theorem Hub.setCombine_free (h : Hub) (c : Combine) : (h.setCombine c).free = h.free := rfl

/-! ### Hub.setSounding -/

@[simp] theorem Hub.setSounding_time (h : Hub) (s : Nat) (x : Sounding) : (h.setSounding s x).time = h.time := rfl
@[simp] theorem Hub.setSounding_sight (h : Hub) (s : Nat) (x : Sounding) : (h.setSounding s x).sight = h.sight := rfl
@[simp] theorem Hub.setSounding_ident (h : Hub) (s : Nat) (x : Sounding) : (h.setSounding s x).ident = h.ident := rfl
@[simp] theorem Hub.setSounding_port (h : Hub) (s : Nat) (x : Sounding) : (h.setSounding s x).port = h.port := rfl
@[simp] theorem Hub.setSounding_tap (h : Hub) (s : Nat) (x : Sounding) : (h.setSounding s x).tap = h.tap := rfl
@[simp] theorem Hub.setSounding_i3c (h : Hub) (s : Nat) (x : Sounding) : (h.setSounding s x).i3c = h.i3c := rfl
@[simp] theorem Hub.setSounding_trig (h : Hub) (s : Nat) (x : Sounding) : (h.setSounding s x).trig = h.trig := rfl
@[simp] theorem Hub.setSounding_ctl (h : Hub) (s : Nat) (x : Sounding) : (h.setSounding s x).ctl = h.ctl := rfl
@[simp] theorem Hub.setSounding_dcn (h : Hub) (s : Nat) (x : Sounding) : (h.setSounding s x).dcn = h.dcn := rfl
@[simp] theorem Hub.setSounding_agents (h : Hub) (s : Nat) (x : Sounding) : (h.setSounding s x).agents = h.agents := rfl
@[simp] theorem Hub.setSounding_stops (h : Hub) (s : Nat) (x : Sounding) : (h.setSounding s x).stops = h.stops := rfl
@[simp] theorem Hub.setSounding_dump (h : Hub) (s : Nat) (x : Sounding) : (h.setSounding s x).dump = h.dump := rfl
@[simp] theorem Hub.setSounding_trace (h : Hub) (s : Nat) (x : Sounding) : (h.setSounding s x).trace = h.trace := rfl
@[simp] theorem Hub.setSounding_arrays (h : Hub) (s : Nat) (x : Sounding) : (h.setSounding s x).arrays = h.arrays := rfl
@[simp] theorem Hub.setSounding_soundBudget (h : Hub) (s : Nat) (x : Sounding) : (h.setSounding s x).soundBudget = h.soundBudget := rfl
@[simp] theorem Hub.setSounding_replayStat (h : Hub) (s : Nat) (x : Sounding) : (h.setSounding s x).replayStat = h.replayStat := rfl
@[simp] theorem Hub.setSounding_probe (h : Hub) (s : Nat) (x : Sounding) : (h.setSounding s x).probe = h.probe := rfl
@[simp] theorem Hub.setSounding_fc (h : Hub) (s : Nat) (x : Sounding) : (h.setSounding s x).fc = h.fc := rfl
@[simp] theorem Hub.setSounding_pat (h : Hub) (s : Nat) (x : Sounding) : (h.setSounding s x).pat = h.pat := rfl
@[simp] theorem Hub.setSounding_red (h : Hub) (s : Nat) (x : Sounding) : (h.setSounding s x).red = h.red := rfl
@[simp] theorem Hub.setSounding_island (h : Hub) (s : Nat) (x : Sounding) : (h.setSounding s x).island = h.island := rfl
@[simp] theorem Hub.setSounding_power (h : Hub) (s : Nat) (x : Sounding) : (h.setSounding s x).power = h.power := rfl
@[simp] theorem Hub.setSounding_fe (h : Hub) (s : Nat) (x : Sounding) : (h.setSounding s x).fe = h.fe := rfl
@[simp] theorem Hub.setSounding_chip (h : Hub) (s : Nat) (x : Sounding) : (h.setSounding s x).chip = h.chip := rfl
@[simp] theorem Hub.setSounding_slot (h : Hub) (s : Nat) (x : Sounding) : (h.setSounding s x).slot = h.slot := rfl
@[simp] theorem Hub.setSounding_discards (h : Hub) (s : Nat) (x : Sounding) : (h.setSounding s x).discards = h.discards := rfl
@[simp] theorem Hub.setSounding_latches (h : Hub) (s : Nat) (x : Sounding) : (h.setSounding s x).latches = h.latches := rfl
@[simp] theorem Hub.setSounding_out (h : Hub) (s : Nat) (x : Sounding) : (h.setSounding s x).out = h.out := rfl
@[simp] theorem Hub.setSounding_free (h : Hub) (s : Nat) (x : Sounding) : (h.setSounding s x).free = h.free := rfl

/-! ### Hub.setCollector -/

@[simp] theorem Hub.setCollector_time (h : Hub) (i : Nat) (c : Collector) : (h.setCollector i c).time = h.time := rfl
@[simp] theorem Hub.setCollector_sight (h : Hub) (i : Nat) (c : Collector) : (h.setCollector i c).sight = h.sight := rfl
@[simp] theorem Hub.setCollector_ident (h : Hub) (i : Nat) (c : Collector) : (h.setCollector i c).ident = h.ident := rfl
@[simp] theorem Hub.setCollector_port (h : Hub) (i : Nat) (c : Collector) : (h.setCollector i c).port = h.port := rfl
@[simp] theorem Hub.setCollector_tap (h : Hub) (i : Nat) (c : Collector) : (h.setCollector i c).tap = h.tap := rfl
@[simp] theorem Hub.setCollector_i3c (h : Hub) (i : Nat) (c : Collector) : (h.setCollector i c).i3c = h.i3c := rfl
@[simp] theorem Hub.setCollector_trig (h : Hub) (i : Nat) (c : Collector) : (h.setCollector i c).trig = h.trig := rfl
@[simp] theorem Hub.setCollector_ctl (h : Hub) (i : Nat) (c : Collector) : (h.setCollector i c).ctl = h.ctl := rfl
@[simp] theorem Hub.setCollector_dcn (h : Hub) (i : Nat) (c : Collector) : (h.setCollector i c).dcn = h.dcn := rfl
@[simp] theorem Hub.setCollector_agents (h : Hub) (i : Nat) (c : Collector) : (h.setCollector i c).agents = h.agents := rfl
@[simp] theorem Hub.setCollector_stops (h : Hub) (i : Nat) (c : Collector) : (h.setCollector i c).stops = h.stops := rfl
@[simp] theorem Hub.setCollector_dump (h : Hub) (i : Nat) (c : Collector) : (h.setCollector i c).dump = h.dump := rfl
@[simp] theorem Hub.setCollector_arrays (h : Hub) (i : Nat) (c : Collector) : (h.setCollector i c).arrays = h.arrays := rfl
@[simp] theorem Hub.setCollector_soundings (h : Hub) (i : Nat) (c : Collector) : (h.setCollector i c).soundings = h.soundings := rfl
@[simp] theorem Hub.setCollector_soundBudget (h : Hub) (i : Nat) (c : Collector) : (h.setCollector i c).soundBudget = h.soundBudget := rfl
@[simp] theorem Hub.setCollector_replayStat (h : Hub) (i : Nat) (c : Collector) : (h.setCollector i c).replayStat = h.replayStat := rfl
@[simp] theorem Hub.setCollector_probe (h : Hub) (i : Nat) (c : Collector) : (h.setCollector i c).probe = h.probe := rfl
@[simp] theorem Hub.setCollector_fc (h : Hub) (i : Nat) (c : Collector) : (h.setCollector i c).fc = h.fc := rfl
@[simp] theorem Hub.setCollector_pat (h : Hub) (i : Nat) (c : Collector) : (h.setCollector i c).pat = h.pat := rfl
@[simp] theorem Hub.setCollector_red (h : Hub) (i : Nat) (c : Collector) : (h.setCollector i c).red = h.red := rfl
@[simp] theorem Hub.setCollector_island (h : Hub) (i : Nat) (c : Collector) : (h.setCollector i c).island = h.island := rfl
@[simp] theorem Hub.setCollector_power (h : Hub) (i : Nat) (c : Collector) : (h.setCollector i c).power = h.power := rfl
@[simp] theorem Hub.setCollector_fe (h : Hub) (i : Nat) (c : Collector) : (h.setCollector i c).fe = h.fe := rfl
@[simp] theorem Hub.setCollector_chip (h : Hub) (i : Nat) (c : Collector) : (h.setCollector i c).chip = h.chip := rfl
@[simp] theorem Hub.setCollector_slot (h : Hub) (i : Nat) (c : Collector) : (h.setCollector i c).slot = h.slot := rfl
@[simp] theorem Hub.setCollector_discards (h : Hub) (i : Nat) (c : Collector) : (h.setCollector i c).discards = h.discards := rfl
@[simp] theorem Hub.setCollector_latches (h : Hub) (i : Nat) (c : Collector) : (h.setCollector i c).latches = h.latches := rfl
@[simp] theorem Hub.setCollector_out (h : Hub) (i : Nat) (c : Collector) : (h.setCollector i c).out = h.out := rfl
@[simp] theorem Hub.setCollector_free (h : Hub) (i : Nat) (c : Collector) : (h.setCollector i c).free = h.free := rfl

/-! ### Hub.answer -/

@[simp] theorem Hub.answer_time (h : Hub) (c : Nat) (d : Hdr) (st : Status) (b : List Byte) : (h.answer c d st b).time = h.time :=
  h.answer_only c d st b .time (by decide)
@[simp] theorem Hub.answer_sight (h : Hub) (c : Nat) (d : Hdr) (st : Status) (b : List Byte) : (h.answer c d st b).sight = h.sight :=
  h.answer_only c d st b .sight (by decide)
@[simp] theorem Hub.answer_ident (h : Hub) (c : Nat) (d : Hdr) (st : Status) (b : List Byte) : (h.answer c d st b).ident = h.ident :=
  h.answer_only c d st b .ident (by decide)
@[simp] theorem Hub.answer_i3c (h : Hub) (c : Nat) (d : Hdr) (st : Status) (b : List Byte) : (h.answer c d st b).i3c = h.i3c :=
  h.answer_only c d st b .i3c (by decide)
@[simp] theorem Hub.answer_trig (h : Hub) (c : Nat) (d : Hdr) (st : Status) (b : List Byte) : (h.answer c d st b).trig = h.trig :=
  h.answer_only c d st b .trig (by decide)
@[simp] theorem Hub.answer_ctl (h : Hub) (c : Nat) (d : Hdr) (st : Status) (b : List Byte) : (h.answer c d st b).ctl = h.ctl :=
  h.answer_only c d st b .ctl (by decide)
@[simp] theorem Hub.answer_dcn (h : Hub) (c : Nat) (d : Hdr) (st : Status) (b : List Byte) : (h.answer c d st b).dcn = h.dcn :=
  h.answer_only c d st b .dcn (by decide)
@[simp] theorem Hub.answer_agents (h : Hub) (c : Nat) (d : Hdr) (st : Status) (b : List Byte) : (h.answer c d st b).agents = h.agents :=
  h.answer_only c d st b .agents (by decide)
@[simp] theorem Hub.answer_stops (h : Hub) (c : Nat) (d : Hdr) (st : Status) (b : List Byte) : (h.answer c d st b).stops = h.stops :=
  h.answer_only c d st b .stops (by decide)
@[simp] theorem Hub.answer_dump (h : Hub) (c : Nat) (d : Hdr) (st : Status) (b : List Byte) : (h.answer c d st b).dump = h.dump :=
  h.answer_only c d st b .dump (by decide)
@[simp] theorem Hub.answer_trace (h : Hub) (c : Nat) (d : Hdr) (st : Status) (b : List Byte) : (h.answer c d st b).trace = h.trace :=
  h.answer_only c d st b .trace (by decide)
@[simp] theorem Hub.answer_arrays (h : Hub) (c : Nat) (d : Hdr) (st : Status) (b : List Byte) : (h.answer c d st b).arrays = h.arrays :=
  h.answer_only c d st b .arrays (by decide)
@[simp] theorem Hub.answer_soundings (h : Hub) (c : Nat) (d : Hdr) (st : Status) (b : List Byte) : (h.answer c d st b).soundings = h.soundings :=
  h.answer_only c d st b .soundings (by decide)
@[simp] theorem Hub.answer_soundBudget (h : Hub) (c : Nat) (d : Hdr) (st : Status) (b : List Byte) : (h.answer c d st b).soundBudget = h.soundBudget :=
  h.answer_only c d st b .soundBudget (by decide)
@[simp] theorem Hub.answer_replayStat (h : Hub) (c : Nat) (d : Hdr) (st : Status) (b : List Byte) : (h.answer c d st b).replayStat = h.replayStat :=
  h.answer_only c d st b .replayStat (by decide)
@[simp] theorem Hub.answer_probe (h : Hub) (c : Nat) (d : Hdr) (st : Status) (b : List Byte) : (h.answer c d st b).probe = h.probe :=
  h.answer_only c d st b .probe (by decide)
@[simp] theorem Hub.answer_fc (h : Hub) (c : Nat) (d : Hdr) (st : Status) (b : List Byte) : (h.answer c d st b).fc = h.fc :=
  h.answer_only c d st b .fc (by decide)
@[simp] theorem Hub.answer_pat (h : Hub) (c : Nat) (d : Hdr) (st : Status) (b : List Byte) : (h.answer c d st b).pat = h.pat :=
  h.answer_only c d st b .pat (by decide)
@[simp] theorem Hub.answer_island (h : Hub) (c : Nat) (d : Hdr) (st : Status) (b : List Byte) : (h.answer c d st b).island = h.island :=
  h.answer_only c d st b .island (by decide)
@[simp] theorem Hub.answer_power (h : Hub) (c : Nat) (d : Hdr) (st : Status) (b : List Byte) : (h.answer c d st b).power = h.power :=
  h.answer_only c d st b .power (by decide)
@[simp] theorem Hub.answer_fe (h : Hub) (c : Nat) (d : Hdr) (st : Status) (b : List Byte) : (h.answer c d st b).fe = h.fe :=
  h.answer_only c d st b .fe (by decide)
@[simp] theorem Hub.answer_chip (h : Hub) (c : Nat) (d : Hdr) (st : Status) (b : List Byte) : (h.answer c d st b).chip = h.chip :=
  h.answer_only c d st b .chip (by decide)
@[simp] theorem Hub.answer_slot (h : Hub) (c : Nat) (d : Hdr) (st : Status) (b : List Byte) : (h.answer c d st b).slot = h.slot :=
  h.answer_only c d st b .slot (by decide)
@[simp] theorem Hub.answer_discards (h : Hub) (c : Nat) (d : Hdr) (st : Status) (b : List Byte) : (h.answer c d st b).discards = h.discards :=
  h.answer_only c d st b .discards (by decide)
@[simp] theorem Hub.answer_latches (h : Hub) (c : Nat) (d : Hdr) (st : Status) (b : List Byte) : (h.answer c d st b).latches = h.latches :=
  h.answer_only c d st b .latches (by decide)
@[simp] theorem Hub.answer_free (h : Hub) (c : Nat) (d : Hdr) (st : Status) (b : List Byte) : (h.answer c d st b).free = h.free :=
  h.answer_only c d st b .free (by decide)

@[simp] theorem Hub.answer_red_west (h : Hub) (c : Nat) (d : Hdr) (st : Status) (b : List Byte) :
    (h.answer c d st b).red.west = h.red.west := by
  obtain ⟨l, n, e⟩ := h.answer_red c d st b; rw [e]
@[simp] theorem Hub.answer_red_east (h : Hub) (c : Nat) (d : Hdr) (st : Status) (b : List Byte) :
    (h.answer c d st b).red.east = h.red.east := by
  obtain ⟨l, n, e⟩ := h.answer_red c d st b; rw [e]
@[simp] theorem Hub.answer_red_ksWest (h : Hub) (c : Nat) (d : Hdr) (st : Status) (b : List Byte) :
    (h.answer c d st b).red.ksWest = h.red.ksWest := by
  obtain ⟨l, n, e⟩ := h.answer_red c d st b; rw [e]
@[simp] theorem Hub.answer_red_ksEast (h : Hub) (c : Nat) (d : Hdr) (st : Status) (b : List Byte) :
    (h.answer c d st b).red.ksEast = h.red.ksEast := by
  obtain ⟨l, n, e⟩ := h.answer_red c d st b; rw [e]
@[simp] theorem Hub.answer_red_claim (h : Hub) (c : Nat) (d : Hdr) (st : Status) (b : List Byte) :
    (h.answer c d st b).red.claim = h.red.claim := by
  obtain ⟨l, n, e⟩ := h.answer_red c d st b; rw [e]
@[simp] theorem Hub.answer_red_holder (h : Hub) (c : Nat) (d : Hdr) (st : Status) (b : List Byte) :
    (h.answer c d st b).red.holder = h.red.holder := by
  obtain ⟨l, n, e⟩ := h.answer_red c d st b; rw [e]
@[simp] theorem Hub.answer_red_granted (h : Hub) (c : Nat) (d : Hdr) (st : Status) (b : List Byte) :
    (h.answer c d st b).red.granted = h.red.granted := by
  obtain ⟨l, n, e⟩ := h.answer_red c d st b; rw [e]
@[simp] theorem Hub.answer_red_headless (h : Hub) (c : Nat) (d : Hdr) (st : Status) (b : List Byte) :
    (h.answer c d st b).red.headless = h.red.headless := by
  obtain ⟨l, n, e⟩ := h.answer_red c d st b; rw [e]
@[simp] theorem Hub.answer_red_frozen (h : Hub) (c : Nat) (d : Hdr) (st : Status) (b : List Byte) :
    (h.answer c d st b).red.frozen = h.red.frozen := by
  obtain ⟨l, n, e⟩ := h.answer_red c d st b; rw [e]
@[simp] theorem Hub.answer_red_grants (h : Hub) (c : Nat) (d : Hdr) (st : Status) (b : List Byte) :
    (h.answer c d st b).red.grants = h.red.grants := by
  obtain ⟨l, n, e⟩ := h.answer_red c d st b; rw [e]
@[simp] theorem Hub.answer_red_grantPt (h : Hub) (c : Nat) (d : Hdr) (st : Status) (b : List Byte) :
    (h.answer c d st b).red.grantPt = h.red.grantPt := by
  obtain ⟨l, n, e⟩ := h.answer_red c d st b; rw [e]
@[simp] theorem Hub.answer_red_cause (h : Hub) (c : Nat) (d : Hdr) (st : Status) (b : List Byte) :
    (h.answer c d st b).red.cause = h.red.cause := by
  obtain ⟨l, n, e⟩ := h.answer_red c d st b; rw [e]
@[simp] theorem Hub.answer_red_boundary (h : Hub) (c : Nat) (d : Hdr) (st : Status) (b : List Byte) :
    (h.answer c d st b).red.boundary = h.red.boundary := by
  obtain ⟨l, n, e⟩ := h.answer_red c d st b; rw [e]
@[simp] theorem Hub.answer_red_stages (h : Hub) (c : Nat) (d : Hdr) (st : Status) (b : List Byte) :
    (h.answer c d st b).red.stages = h.red.stages := by
  obtain ⟨l, n, e⟩ := h.answer_red c d st b; rw [e]
@[simp] theorem Hub.answer_red_syncSent (h : Hub) (c : Nat) (d : Hdr) (st : Status) (b : List Byte) :
    (h.answer c d st b).red.syncSent = h.red.syncSent := by
  obtain ⟨l, n, e⟩ := h.answer_red c d st b; rw [e]
@[simp] theorem Hub.answer_red_syncRecv (h : Hub) (c : Nat) (d : Hdr) (st : Status) (b : List Byte) :
    (h.answer c d st b).red.syncRecv = h.red.syncRecv := by
  obtain ⟨l, n, e⟩ := h.answer_red c d st b; rw [e]
@[simp] theorem Hub.answer_red_syncWait (h : Hub) (c : Nat) (d : Hdr) (st : Status) (b : List Byte) :
    (h.answer c d st b).red.syncWait = h.red.syncWait := by
  obtain ⟨l, n, e⟩ := h.answer_red c d st b; rw [e]
@[simp] theorem Hub.answer_red_synced (h : Hub) (c : Nat) (d : Hdr) (st : Status) (b : List Byte) :
    (h.answer c d st b).red.synced = h.red.synced := by
  obtain ⟨l, n, e⟩ := h.answer_red c d st b; rw [e]
@[simp] theorem Hub.answer_red_resyncSince (h : Hub) (c : Nat) (d : Hdr) (st : Status) (b : List Byte) :
    (h.answer c d st b).red.resyncSince = h.red.resyncSince := by
  obtain ⟨l, n, e⟩ := h.answer_red c d st b; rw [e]
@[simp] theorem Hub.answer_red_lastAttempt (h : Hub) (c : Nat) (d : Hdr) (st : Status) (b : List Byte) :
    (h.answer c d st b).red.lastAttempt = h.red.lastAttempt := by
  obtain ⟨l, n, e⟩ := h.answer_red c d st b; rw [e]

/-! ### Hub.taken -/

@[simp] theorem Hub.taken_time (h : Hub) (d : Hdr) : (h.taken d).time = h.time := h.taken_only d .time (by decide)
@[simp] theorem Hub.taken_sight (h : Hub) (d : Hdr) : (h.taken d).sight = h.sight := h.taken_only d .sight (by decide)
@[simp] theorem Hub.taken_ident (h : Hub) (d : Hdr) : (h.taken d).ident = h.ident := h.taken_only d .ident (by decide)
@[simp] theorem Hub.taken_port (h : Hub) (d : Hdr) : (h.taken d).port = h.port := h.taken_only d .port (by decide)
@[simp] theorem Hub.taken_tap (h : Hub) (d : Hdr) : (h.taken d).tap = h.tap := h.taken_only d .tap (by decide)
@[simp] theorem Hub.taken_i3c (h : Hub) (d : Hdr) : (h.taken d).i3c = h.i3c := h.taken_only d .i3c (by decide)
@[simp] theorem Hub.taken_trig (h : Hub) (d : Hdr) : (h.taken d).trig = h.trig := h.taken_only d .trig (by decide)
@[simp] theorem Hub.taken_ctl (h : Hub) (d : Hdr) : (h.taken d).ctl = h.ctl := h.taken_only d .ctl (by decide)
@[simp] theorem Hub.taken_agents (h : Hub) (d : Hdr) : (h.taken d).agents = h.agents := h.taken_only d .agents (by decide)
@[simp] theorem Hub.taken_stops (h : Hub) (d : Hdr) : (h.taken d).stops = h.stops := h.taken_only d .stops (by decide)
@[simp] theorem Hub.taken_dump (h : Hub) (d : Hdr) : (h.taken d).dump = h.dump := h.taken_only d .dump (by decide)
@[simp] theorem Hub.taken_trace (h : Hub) (d : Hdr) : (h.taken d).trace = h.trace := h.taken_only d .trace (by decide)
@[simp] theorem Hub.taken_arrays (h : Hub) (d : Hdr) : (h.taken d).arrays = h.arrays := h.taken_only d .arrays (by decide)
@[simp] theorem Hub.taken_soundings (h : Hub) (d : Hdr) : (h.taken d).soundings = h.soundings := h.taken_only d .soundings (by decide)
@[simp] theorem Hub.taken_soundBudget (h : Hub) (d : Hdr) : (h.taken d).soundBudget = h.soundBudget := h.taken_only d .soundBudget (by decide)
@[simp] theorem Hub.taken_replayStat (h : Hub) (d : Hdr) : (h.taken d).replayStat = h.replayStat := h.taken_only d .replayStat (by decide)
@[simp] theorem Hub.taken_probe (h : Hub) (d : Hdr) : (h.taken d).probe = h.probe := h.taken_only d .probe (by decide)
@[simp] theorem Hub.taken_fc (h : Hub) (d : Hdr) : (h.taken d).fc = h.fc := h.taken_only d .fc (by decide)
@[simp] theorem Hub.taken_pat (h : Hub) (d : Hdr) : (h.taken d).pat = h.pat := h.taken_only d .pat (by decide)
@[simp] theorem Hub.taken_fe (h : Hub) (d : Hdr) : (h.taken d).fe = h.fe := h.taken_only d .fe (by decide)
@[simp] theorem Hub.taken_chip (h : Hub) (d : Hdr) : (h.taken d).chip = h.chip := h.taken_only d .chip (by decide)
@[simp] theorem Hub.taken_slot (h : Hub) (d : Hdr) : (h.taken d).slot = h.slot := h.taken_only d .slot (by decide)
@[simp] theorem Hub.taken_discards (h : Hub) (d : Hdr) : (h.taken d).discards = h.discards := h.taken_only d .discards (by decide)
@[simp] theorem Hub.taken_latches (h : Hub) (d : Hdr) : (h.taken d).latches = h.latches := h.taken_only d .latches (by decide)
@[simp] theorem Hub.taken_free (h : Hub) (d : Hdr) : (h.taken d).free = h.free := h.taken_only d .free (by decide)

@[simp] theorem Hub.taken_out_eq (h : Hub) (d : Hdr) : (h.taken d).out = h.out := h.taken_out d

@[simp] theorem Hub.taken_island_otp (h : Hub) (d : Hdr) : (h.taken d).island.otp = h.island.otp := by
  rw [h.taken_island]; rfl
@[simp] theorem Hub.taken_island_decoded (h : Hub) (d : Hdr) : (h.taken d).island.decoded = h.island.decoded := by
  rw [h.taken_island]; rfl
@[simp] theorem Hub.taken_island_entropyFail (h : Hub) (d : Hdr) : (h.taken d).island.entropyFail = h.island.entropyFail := by
  rw [h.taken_island]; rfl
@[simp] theorem Hub.taken_island_entropyDraws (h : Hub) (d : Hdr) : (h.taken d).island.entropyDraws = h.island.entropyDraws := by
  rw [h.taken_island]; rfl
@[simp] theorem Hub.taken_island_drbg (h : Hub) (d : Hdr) : (h.taken d).island.drbg = h.island.drbg := by
  rw [h.taken_island]; rfl
@[simp] theorem Hub.taken_island_challenge (h : Hub) (d : Hdr) : (h.taken d).island.challenge = h.island.challenge := by
  rw [h.taken_island]; rfl
@[simp] theorem Hub.taken_island_failCount (h : Hub) (d : Hdr) : (h.taken d).island.failCount = h.island.failCount := by
  rw [h.taken_island]; rfl
@[simp] theorem Hub.taken_island_holdPt (h : Hub) (d : Hdr) : (h.taken d).island.holdPt = h.island.holdPt := by
  rw [h.taken_island]; rfl
@[simp] theorem Hub.taken_island_cert (h : Hub) (d : Hdr) : (h.taken d).island.cert = h.island.cert := by
  rw [h.taken_island]; rfl
@[simp] theorem Hub.taken_island_testGate (h : Hub) (d : Hdr) : (h.taken d).island.testGate = h.island.testGate := by
  rw [h.taken_island]; rfl
@[simp] theorem Hub.taken_island_job (h : Hub) (d : Hdr) : (h.taken d).island.job = h.island.job := by
  rw [h.taken_island]; rfl
@[simp] theorem Hub.taken_island_jobTarget (h : Hub) (d : Hdr) : (h.taken d).island.jobTarget = h.island.jobTarget := by
  rw [h.taken_island]; rfl
@[simp] theorem Hub.taken_island_signs (h : Hub) (d : Hdr) : (h.taken d).island.signs = h.island.signs := by
  rw [h.taken_island]; rfl

@[simp] theorem Hub.taken_pt (h : Hub) (d : Hdr) : (h.taken d).pt = h.pt := by simp [Hub.pt]

@[simp] theorem Hub.answer_pt (h : Hub) (c : Nat) (d : Hdr) (st : Status) (b : List Byte) : (h.answer c d st b).pt = h.pt := by
  simp [Hub.pt]

@[simp] theorem Hub.taken_transport (h : Hub) (d : Hdr) : (h.taken d).transport = h.transport := by simp [Hub.transport]

@[simp] theorem Hub.taken_lcNat (h : Hub) (d : Hdr) : (h.taken d).lcNat = h.lcNat := by simp [Hub.lcNat]

@[simp] theorem Hub.taken_measuring (h : Hub) (d : Hdr) : (h.taken d).measuring = h.measuring := by simp [Hub.measuring]

@[simp] theorem Hub.taken_agent (h : Hub) (d : Hdr) (u : UnitId) : (h.taken d).agent u = h.agent u := by simp [Hub.agent]

@[simp] theorem Hub.taken_retired (h : Hub) (d : Hdr) (u : UnitId) : (h.taken d).retired u = h.retired u := by
  simp [Hub.retired]

@[simp] theorem Hub.taken_presence (h : Hub) (d : Hdr) (u : UnitId) : (h.taken d).presence u = h.presence u := by
  simp [Hub.presence]

/-! ### What waking leaves of the controllers and of the power block -/

theorem Hub.powerDomain_power_startUp (h : Hub) (d : Nat) : (h.powerDomain d).power.startUp = h.power.startUp := by
  unfold Hub.powerDomain; split
  · rfl
  · split <;> rfl
@[simp] theorem Hub.wake_power_startUp (h : Hub) : h.wake.power.startUp = h.power.startUp := by
  unfold Hub.wake; split
  · simp only [Hub.wakeDomains, Hub.powerDomains, List.foldl, Hub.powerDomain_power_startUp]
  · rfl
@[simp] theorem Hub.taken_power_startUp (h : Hub) (d : Hdr) : (h.taken d).power.startUp = h.power.startUp :=
  (Hub.wake_power_startUp (h.touch d.session)).trans rfl
theorem Hub.powerDomain_power_image (h : Hub) (d : Nat) : (h.powerDomain d).power.image = h.power.image := by
  unfold Hub.powerDomain; split
  · rfl
  · split <;> rfl
@[simp] theorem Hub.wake_power_image (h : Hub) : h.wake.power.image = h.power.image := by
  unfold Hub.wake; split
  · simp only [Hub.wakeDomains, Hub.powerDomains, List.foldl, Hub.powerDomain_power_image]
  · rfl
@[simp] theorem Hub.taken_power_image (h : Hub) (d : Hdr) : (h.taken d).power.image = h.power.image :=
  (Hub.wake_power_image (h.touch d.session)).trans rfl
theorem Hub.powerDomain_power_imageGood (h : Hub) (d : Nat) : (h.powerDomain d).power.imageGood = h.power.imageGood := by
  unfold Hub.powerDomain; split
  · rfl
  · split <;> rfl
@[simp] theorem Hub.wake_power_imageGood (h : Hub) : h.wake.power.imageGood = h.power.imageGood := by
  unfold Hub.wake; split
  · simp only [Hub.wakeDomains, Hub.powerDomains, List.foldl, Hub.powerDomain_power_imageGood]
  · rfl
@[simp] theorem Hub.taken_power_imageGood (h : Hub) (d : Hdr) : (h.taken d).power.imageGood = h.power.imageGood :=
  (Hub.wake_power_imageGood (h.touch d.session)).trans rfl
theorem Hub.powerDomain_power_fw (h : Hub) (d : Nat) : (h.powerDomain d).power.fw = h.power.fw := by
  unfold Hub.powerDomain; split
  · rfl
  · split <;> rfl
@[simp] theorem Hub.wake_power_fw (h : Hub) : h.wake.power.fw = h.power.fw := by
  unfold Hub.wake; split
  · simp only [Hub.wakeDomains, Hub.powerDomains, List.foldl, Hub.powerDomain_power_fw]
  · rfl
@[simp] theorem Hub.taken_power_fw (h : Hub) (d : Hdr) : (h.taken d).power.fw = h.power.fw :=
  (Hub.wake_power_fw (h.touch d.session)).trans rfl
theorem Hub.powerDomain_power_verified (h : Hub) (d : Nat) : (h.powerDomain d).power.verified = h.power.verified := by
  unfold Hub.powerDomain; split
  · rfl
  · split <;> rfl
@[simp] theorem Hub.wake_power_verified (h : Hub) : h.wake.power.verified = h.power.verified := by
  unfold Hub.wake; split
  · simp only [Hub.wakeDomains, Hub.powerDomains, List.foldl, Hub.powerDomain_power_verified]
  · rfl
@[simp] theorem Hub.taken_power_verified (h : Hub) (d : Hdr) : (h.taken d).power.verified = h.power.verified :=
  (Hub.wake_power_verified (h.touch d.session)).trans rfl
theorem Hub.powerDomain_power_fwPart (h : Hub) (d : Nat) : (h.powerDomain d).power.fwPart = h.power.fwPart := by
  unfold Hub.powerDomain; split
  · rfl
  · split <;> rfl
@[simp] theorem Hub.wake_power_fwPart (h : Hub) : h.wake.power.fwPart = h.power.fwPart := by
  unfold Hub.wake; split
  · simp only [Hub.wakeDomains, Hub.powerDomains, List.foldl, Hub.powerDomain_power_fwPart]
  · rfl
@[simp] theorem Hub.taken_power_fwPart (h : Hub) (d : Hdr) : (h.taken d).power.fwPart = h.power.fwPart :=
  (Hub.wake_power_fwPart (h.touch d.session)).trans rfl
theorem Hub.powerDomain_power_excursions (h : Hub) (d : Nat) : (h.powerDomain d).power.excursions = h.power.excursions := by
  unfold Hub.powerDomain; split
  · rfl
  · split <;> rfl
@[simp] theorem Hub.wake_power_excursions (h : Hub) : h.wake.power.excursions = h.power.excursions := by
  unfold Hub.wake; split
  · simp only [Hub.wakeDomains, Hub.powerDomains, List.foldl, Hub.powerDomain_power_excursions]
  · rfl
@[simp] theorem Hub.taken_power_excursions (h : Hub) (d : Hdr) : (h.taken d).power.excursions = h.power.excursions :=
  (Hub.wake_power_excursions (h.touch d.session)).trans rfl

theorem Hub.powerDomain_red_claim (h : Hub) (d : Nat) : (h.powerDomain d).red.claim = h.red.claim := by
  unfold Hub.powerDomain; split
  · rfl
  · split <;> rfl
@[simp] theorem Red.setCtrl_claim (r : Red) (s : Half) (c : Ctrl) : (r.setCtrl s c).claim = r.claim := by cases s <;> rfl
@[simp] theorem Hub.wake_red_claim (h : Hub) : h.wake.red.claim = h.red.claim := by
  unfold Hub.wake; split
  · simp only [Hub.wakeDomains, Hub.powerDomains, List.foldl, Hub.powerDomain_red_claim]
  · rfl
@[simp] theorem Hub.taken_red_claim (h : Hub) (d : Hdr) : (h.taken d).red.claim = h.red.claim := by
  have e : (h.taken d).red.claim = (h.touch d.session).wake.red.claim := by
    simp only [Hub.taken, Hub.working, Red.setCtrl_claim]
  rw [e, Hub.wake_red_claim]; rfl
theorem Hub.powerDomain_red_holder (h : Hub) (d : Nat) : (h.powerDomain d).red.holder = h.red.holder := by
  unfold Hub.powerDomain; split
  · rfl
  · split <;> rfl
@[simp] theorem Red.setCtrl_holder (r : Red) (s : Half) (c : Ctrl) : (r.setCtrl s c).holder = r.holder := by cases s <;> rfl
@[simp] theorem Hub.wake_red_holder (h : Hub) : h.wake.red.holder = h.red.holder := by
  unfold Hub.wake; split
  · simp only [Hub.wakeDomains, Hub.powerDomains, List.foldl, Hub.powerDomain_red_holder]
  · rfl
@[simp] theorem Hub.taken_red_holder (h : Hub) (d : Hdr) : (h.taken d).red.holder = h.red.holder := by
  have e : (h.taken d).red.holder = (h.touch d.session).wake.red.holder := by
    simp only [Hub.taken, Hub.working, Red.setCtrl_holder]
  rw [e, Hub.wake_red_holder]; rfl
theorem Hub.powerDomain_red_granted (h : Hub) (d : Nat) : (h.powerDomain d).red.granted = h.red.granted := by
  unfold Hub.powerDomain; split
  · rfl
  · split <;> rfl
@[simp] theorem Red.setCtrl_granted (r : Red) (s : Half) (c : Ctrl) : (r.setCtrl s c).granted = r.granted := by cases s <;> rfl
@[simp] theorem Hub.wake_red_granted (h : Hub) : h.wake.red.granted = h.red.granted := by
  unfold Hub.wake; split
  · simp only [Hub.wakeDomains, Hub.powerDomains, List.foldl, Hub.powerDomain_red_granted]
  · rfl
@[simp] theorem Hub.taken_red_granted (h : Hub) (d : Hdr) : (h.taken d).red.granted = h.red.granted := by
  have e : (h.taken d).red.granted = (h.touch d.session).wake.red.granted := by
    simp only [Hub.taken, Hub.working, Red.setCtrl_granted]
  rw [e, Hub.wake_red_granted]; rfl
theorem Hub.powerDomain_red_headless (h : Hub) (d : Nat) : (h.powerDomain d).red.headless = h.red.headless := by
  unfold Hub.powerDomain; split
  · rfl
  · split <;> rfl
@[simp] theorem Red.setCtrl_headless (r : Red) (s : Half) (c : Ctrl) : (r.setCtrl s c).headless = r.headless := by cases s <;> rfl
@[simp] theorem Hub.wake_red_headless (h : Hub) : h.wake.red.headless = h.red.headless := by
  unfold Hub.wake; split
  · simp only [Hub.wakeDomains, Hub.powerDomains, List.foldl, Hub.powerDomain_red_headless]
  · rfl
@[simp] theorem Hub.taken_red_headless (h : Hub) (d : Hdr) : (h.taken d).red.headless = h.red.headless := by
  have e : (h.taken d).red.headless = (h.touch d.session).wake.red.headless := by
    simp only [Hub.taken, Hub.working, Red.setCtrl_headless]
  rw [e, Hub.wake_red_headless]; rfl
theorem Hub.powerDomain_red_frozen (h : Hub) (d : Nat) : (h.powerDomain d).red.frozen = h.red.frozen := by
  unfold Hub.powerDomain; split
  · rfl
  · split <;> rfl
@[simp] theorem Red.setCtrl_frozen (r : Red) (s : Half) (c : Ctrl) : (r.setCtrl s c).frozen = r.frozen := by cases s <;> rfl
@[simp] theorem Hub.wake_red_frozen (h : Hub) : h.wake.red.frozen = h.red.frozen := by
  unfold Hub.wake; split
  · simp only [Hub.wakeDomains, Hub.powerDomains, List.foldl, Hub.powerDomain_red_frozen]
  · rfl
@[simp] theorem Hub.taken_red_frozen (h : Hub) (d : Hdr) : (h.taken d).red.frozen = h.red.frozen := by
  have e : (h.taken d).red.frozen = (h.touch d.session).wake.red.frozen := by
    simp only [Hub.taken, Hub.working, Red.setCtrl_frozen]
  rw [e, Hub.wake_red_frozen]; rfl
theorem Hub.powerDomain_red_grants (h : Hub) (d : Nat) : (h.powerDomain d).red.grants = h.red.grants := by
  unfold Hub.powerDomain; split
  · rfl
  · split <;> rfl
@[simp] theorem Red.setCtrl_grants (r : Red) (s : Half) (c : Ctrl) : (r.setCtrl s c).grants = r.grants := by cases s <;> rfl
@[simp] theorem Hub.wake_red_grants (h : Hub) : h.wake.red.grants = h.red.grants := by
  unfold Hub.wake; split
  · simp only [Hub.wakeDomains, Hub.powerDomains, List.foldl, Hub.powerDomain_red_grants]
  · rfl
@[simp] theorem Hub.taken_red_grants (h : Hub) (d : Hdr) : (h.taken d).red.grants = h.red.grants := by
  have e : (h.taken d).red.grants = (h.touch d.session).wake.red.grants := by
    simp only [Hub.taken, Hub.working, Red.setCtrl_grants]
  rw [e, Hub.wake_red_grants]; rfl
theorem Hub.powerDomain_red_grantPt (h : Hub) (d : Nat) : (h.powerDomain d).red.grantPt = h.red.grantPt := by
  unfold Hub.powerDomain; split
  · rfl
  · split <;> rfl
@[simp] theorem Red.setCtrl_grantPt (r : Red) (s : Half) (c : Ctrl) : (r.setCtrl s c).grantPt = r.grantPt := by cases s <;> rfl
@[simp] theorem Hub.wake_red_grantPt (h : Hub) : h.wake.red.grantPt = h.red.grantPt := by
  unfold Hub.wake; split
  · simp only [Hub.wakeDomains, Hub.powerDomains, List.foldl, Hub.powerDomain_red_grantPt]
  · rfl
@[simp] theorem Hub.taken_red_grantPt (h : Hub) (d : Hdr) : (h.taken d).red.grantPt = h.red.grantPt := by
  have e : (h.taken d).red.grantPt = (h.touch d.session).wake.red.grantPt := by
    simp only [Hub.taken, Hub.working, Red.setCtrl_grantPt]
  rw [e, Hub.wake_red_grantPt]; rfl
theorem Hub.powerDomain_red_cause (h : Hub) (d : Nat) : (h.powerDomain d).red.cause = h.red.cause := by
  unfold Hub.powerDomain; split
  · rfl
  · split <;> rfl
@[simp] theorem Red.setCtrl_cause (r : Red) (s : Half) (c : Ctrl) : (r.setCtrl s c).cause = r.cause := by cases s <;> rfl
@[simp] theorem Hub.wake_red_cause (h : Hub) : h.wake.red.cause = h.red.cause := by
  unfold Hub.wake; split
  · simp only [Hub.wakeDomains, Hub.powerDomains, List.foldl, Hub.powerDomain_red_cause]
  · rfl
@[simp] theorem Hub.taken_red_cause (h : Hub) (d : Hdr) : (h.taken d).red.cause = h.red.cause := by
  have e : (h.taken d).red.cause = (h.touch d.session).wake.red.cause := by
    simp only [Hub.taken, Hub.working, Red.setCtrl_cause]
  rw [e, Hub.wake_red_cause]; rfl
theorem Hub.powerDomain_red_rejects (h : Hub) (d : Nat) : (h.powerDomain d).red.rejects = h.red.rejects := by
  unfold Hub.powerDomain; split
  · rfl
  · split <;> rfl
@[simp] theorem Red.setCtrl_rejects (r : Red) (s : Half) (c : Ctrl) : (r.setCtrl s c).rejects = r.rejects := by cases s <;> rfl
@[simp] theorem Hub.wake_red_rejects (h : Hub) : h.wake.red.rejects = h.red.rejects := by
  unfold Hub.wake; split
  · simp only [Hub.wakeDomains, Hub.powerDomains, List.foldl, Hub.powerDomain_red_rejects]
  · rfl
@[simp] theorem Hub.taken_red_rejects (h : Hub) (d : Hdr) : (h.taken d).red.rejects = h.red.rejects := by
  have e : (h.taken d).red.rejects = (h.touch d.session).wake.red.rejects := by
    simp only [Hub.taken, Hub.working, Red.setCtrl_rejects]
  rw [e, Hub.wake_red_rejects]; rfl
theorem Hub.powerDomain_red_boundary (h : Hub) (d : Nat) : (h.powerDomain d).red.boundary = h.red.boundary := by
  unfold Hub.powerDomain; split
  · rfl
  · split <;> rfl
@[simp] theorem Red.setCtrl_boundary (r : Red) (s : Half) (c : Ctrl) : (r.setCtrl s c).boundary = r.boundary := by cases s <;> rfl
@[simp] theorem Hub.wake_red_boundary (h : Hub) : h.wake.red.boundary = h.red.boundary := by
  unfold Hub.wake; split
  · simp only [Hub.wakeDomains, Hub.powerDomains, List.foldl, Hub.powerDomain_red_boundary]
  · rfl
@[simp] theorem Hub.taken_red_boundary (h : Hub) (d : Hdr) : (h.taken d).red.boundary = h.red.boundary := by
  have e : (h.taken d).red.boundary = (h.touch d.session).wake.red.boundary := by
    simp only [Hub.taken, Hub.working, Red.setCtrl_boundary]
  rw [e, Hub.wake_red_boundary]; rfl
theorem Hub.powerDomain_red_stages (h : Hub) (d : Nat) : (h.powerDomain d).red.stages = h.red.stages := by
  unfold Hub.powerDomain; split
  · rfl
  · split <;> rfl
@[simp] theorem Red.setCtrl_stages (r : Red) (s : Half) (c : Ctrl) : (r.setCtrl s c).stages = r.stages := by cases s <;> rfl
@[simp] theorem Hub.wake_red_stages (h : Hub) : h.wake.red.stages = h.red.stages := by
  unfold Hub.wake; split
  · simp only [Hub.wakeDomains, Hub.powerDomains, List.foldl, Hub.powerDomain_red_stages]
  · rfl
@[simp] theorem Hub.taken_red_stages (h : Hub) (d : Hdr) : (h.taken d).red.stages = h.red.stages := by
  have e : (h.taken d).red.stages = (h.touch d.session).wake.red.stages := by
    simp only [Hub.taken, Hub.working, Red.setCtrl_stages]
  rw [e, Hub.wake_red_stages]; rfl
theorem Hub.powerDomain_red_syncSent (h : Hub) (d : Nat) : (h.powerDomain d).red.syncSent = h.red.syncSent := by
  unfold Hub.powerDomain; split
  · rfl
  · split <;> rfl
@[simp] theorem Red.setCtrl_syncSent (r : Red) (s : Half) (c : Ctrl) : (r.setCtrl s c).syncSent = r.syncSent := by cases s <;> rfl
@[simp] theorem Hub.wake_red_syncSent (h : Hub) : h.wake.red.syncSent = h.red.syncSent := by
  unfold Hub.wake; split
  · simp only [Hub.wakeDomains, Hub.powerDomains, List.foldl, Hub.powerDomain_red_syncSent]
  · rfl
@[simp] theorem Hub.taken_red_syncSent (h : Hub) (d : Hdr) : (h.taken d).red.syncSent = h.red.syncSent := by
  have e : (h.taken d).red.syncSent = (h.touch d.session).wake.red.syncSent := by
    simp only [Hub.taken, Hub.working, Red.setCtrl_syncSent]
  rw [e, Hub.wake_red_syncSent]; rfl
theorem Hub.powerDomain_red_syncRecv (h : Hub) (d : Nat) : (h.powerDomain d).red.syncRecv = h.red.syncRecv := by
  unfold Hub.powerDomain; split
  · rfl
  · split <;> rfl
@[simp] theorem Red.setCtrl_syncRecv (r : Red) (s : Half) (c : Ctrl) : (r.setCtrl s c).syncRecv = r.syncRecv := by cases s <;> rfl
@[simp] theorem Hub.wake_red_syncRecv (h : Hub) : h.wake.red.syncRecv = h.red.syncRecv := by
  unfold Hub.wake; split
  · simp only [Hub.wakeDomains, Hub.powerDomains, List.foldl, Hub.powerDomain_red_syncRecv]
  · rfl
@[simp] theorem Hub.taken_red_syncRecv (h : Hub) (d : Hdr) : (h.taken d).red.syncRecv = h.red.syncRecv := by
  have e : (h.taken d).red.syncRecv = (h.touch d.session).wake.red.syncRecv := by
    simp only [Hub.taken, Hub.working, Red.setCtrl_syncRecv]
  rw [e, Hub.wake_red_syncRecv]; rfl
theorem Hub.powerDomain_red_syncWait (h : Hub) (d : Nat) : (h.powerDomain d).red.syncWait = h.red.syncWait := by
  unfold Hub.powerDomain; split
  · rfl
  · split <;> rfl
@[simp] theorem Red.setCtrl_syncWait (r : Red) (s : Half) (c : Ctrl) : (r.setCtrl s c).syncWait = r.syncWait := by cases s <;> rfl
@[simp] theorem Hub.wake_red_syncWait (h : Hub) : h.wake.red.syncWait = h.red.syncWait := by
  unfold Hub.wake; split
  · simp only [Hub.wakeDomains, Hub.powerDomains, List.foldl, Hub.powerDomain_red_syncWait]
  · rfl
@[simp] theorem Hub.taken_red_syncWait (h : Hub) (d : Hdr) : (h.taken d).red.syncWait = h.red.syncWait := by
  have e : (h.taken d).red.syncWait = (h.touch d.session).wake.red.syncWait := by
    simp only [Hub.taken, Hub.working, Red.setCtrl_syncWait]
  rw [e, Hub.wake_red_syncWait]; rfl
theorem Hub.powerDomain_red_synced (h : Hub) (d : Nat) : (h.powerDomain d).red.synced = h.red.synced := by
  unfold Hub.powerDomain; split
  · rfl
  · split <;> rfl
@[simp] theorem Red.setCtrl_synced (r : Red) (s : Half) (c : Ctrl) : (r.setCtrl s c).synced = r.synced := by cases s <;> rfl
@[simp] theorem Hub.wake_red_synced (h : Hub) : h.wake.red.synced = h.red.synced := by
  unfold Hub.wake; split
  · simp only [Hub.wakeDomains, Hub.powerDomains, List.foldl, Hub.powerDomain_red_synced]
  · rfl
@[simp] theorem Hub.taken_red_synced (h : Hub) (d : Hdr) : (h.taken d).red.synced = h.red.synced := by
  have e : (h.taken d).red.synced = (h.touch d.session).wake.red.synced := by
    simp only [Hub.taken, Hub.working, Red.setCtrl_synced]
  rw [e, Hub.wake_red_synced]; rfl
theorem Hub.powerDomain_red_heldReplies (h : Hub) (d : Nat) : (h.powerDomain d).red.heldReplies = h.red.heldReplies := by
  unfold Hub.powerDomain; split
  · rfl
  · split <;> rfl
@[simp] theorem Red.setCtrl_heldReplies (r : Red) (s : Half) (c : Ctrl) : (r.setCtrl s c).heldReplies = r.heldReplies := by cases s <;> rfl
@[simp] theorem Hub.wake_red_heldReplies (h : Hub) : h.wake.red.heldReplies = h.red.heldReplies := by
  unfold Hub.wake; split
  · simp only [Hub.wakeDomains, Hub.powerDomains, List.foldl, Hub.powerDomain_red_heldReplies]
  · rfl
@[simp] theorem Hub.taken_red_heldReplies (h : Hub) (d : Hdr) : (h.taken d).red.heldReplies = h.red.heldReplies := by
  have e : (h.taken d).red.heldReplies = (h.touch d.session).wake.red.heldReplies := by
    simp only [Hub.taken, Hub.working, Red.setCtrl_heldReplies]
  rw [e, Hub.wake_red_heldReplies]; rfl
theorem Hub.powerDomain_red_resyncSince (h : Hub) (d : Nat) : (h.powerDomain d).red.resyncSince = h.red.resyncSince := by
  unfold Hub.powerDomain; split
  · rfl
  · split <;> rfl
@[simp] theorem Red.setCtrl_resyncSince (r : Red) (s : Half) (c : Ctrl) : (r.setCtrl s c).resyncSince = r.resyncSince := by cases s <;> rfl
@[simp] theorem Hub.wake_red_resyncSince (h : Hub) : h.wake.red.resyncSince = h.red.resyncSince := by
  unfold Hub.wake; split
  · simp only [Hub.wakeDomains, Hub.powerDomains, List.foldl, Hub.powerDomain_red_resyncSince]
  · rfl
@[simp] theorem Hub.taken_red_resyncSince (h : Hub) (d : Hdr) : (h.taken d).red.resyncSince = h.red.resyncSince := by
  have e : (h.taken d).red.resyncSince = (h.touch d.session).wake.red.resyncSince := by
    simp only [Hub.taken, Hub.working, Red.setCtrl_resyncSince]
  rw [e, Hub.wake_red_resyncSince]; rfl
theorem Hub.powerDomain_red_lastAttempt (h : Hub) (d : Nat) : (h.powerDomain d).red.lastAttempt = h.red.lastAttempt := by
  unfold Hub.powerDomain; split
  · rfl
  · split <;> rfl
@[simp] theorem Red.setCtrl_lastAttempt (r : Red) (s : Half) (c : Ctrl) : (r.setCtrl s c).lastAttempt = r.lastAttempt := by cases s <;> rfl
@[simp] theorem Hub.wake_red_lastAttempt (h : Hub) : h.wake.red.lastAttempt = h.red.lastAttempt := by
  unfold Hub.wake; split
  · simp only [Hub.wakeDomains, Hub.powerDomains, List.foldl, Hub.powerDomain_red_lastAttempt]
  · rfl
@[simp] theorem Hub.taken_red_lastAttempt (h : Hub) (d : Hdr) : (h.taken d).red.lastAttempt = h.red.lastAttempt := by
  have e : (h.taken d).red.lastAttempt = (h.touch d.session).wake.red.lastAttempt := by
    simp only [Hub.taken, Hub.working, Red.setCtrl_lastAttempt]
  rw [e, Hub.wake_red_lastAttempt]; rfl

theorem Hub.powerDomain_dcn_seqs (h : Hub) (d : Nat) : (h.powerDomain d).dcn.seqs = h.dcn.seqs := by
  unfold Hub.powerDomain; split
  · rfl
  · split <;> rfl
@[simp] theorem Hub.wake_dcn_seqs (h : Hub) : h.wake.dcn.seqs = h.dcn.seqs := by
  unfold Hub.wake; split
  · simp only [Hub.wakeDomains, Hub.powerDomains, List.foldl, Hub.powerDomain_dcn_seqs]
  · rfl
@[simp] theorem Hub.taken_dcn_seqs (h : Hub) (d : Hdr) : (h.taken d).dcn.seqs = h.dcn.seqs :=
  (Hub.wake_dcn_seqs (h.touch d.session)).trans rfl
theorem Hub.powerDomain_dcn_issued (h : Hub) (d : Nat) : (h.powerDomain d).dcn.issued = h.dcn.issued := by
  unfold Hub.powerDomain; split
  · rfl
  · split <;> rfl
@[simp] theorem Hub.wake_dcn_issued (h : Hub) : h.wake.dcn.issued = h.dcn.issued := by
  unfold Hub.wake; split
  · simp only [Hub.wakeDomains, Hub.powerDomains, List.foldl, Hub.powerDomain_dcn_issued]
  · rfl
@[simp] theorem Hub.taken_dcn_issued (h : Hub) (d : Hdr) : (h.taken d).dcn.issued = h.dcn.issued :=
  (Hub.wake_dcn_issued (h.touch d.session)).trans rfl
theorem Hub.powerDomain_dcn_lastIssue (h : Hub) (d : Nat) : (h.powerDomain d).dcn.lastIssue = h.dcn.lastIssue := by
  unfold Hub.powerDomain; split
  · rfl
  · split <;> rfl
@[simp] theorem Hub.wake_dcn_lastIssue (h : Hub) : h.wake.dcn.lastIssue = h.dcn.lastIssue := by
  unfold Hub.wake; split
  · simp only [Hub.wakeDomains, Hub.powerDomains, List.foldl, Hub.powerDomain_dcn_lastIssue]
  · rfl
@[simp] theorem Hub.taken_dcn_lastIssue (h : Hub) (d : Hdr) : (h.taken d).dcn.lastIssue = h.dcn.lastIssue :=
  (Hub.wake_dcn_lastIssue (h.touch d.session)).trans rfl
theorem Hub.powerDomain_dcn_nextTag (h : Hub) (d : Nat) : (h.powerDomain d).dcn.nextTag = h.dcn.nextTag := by
  unfold Hub.powerDomain; split
  · rfl
  · split <;> rfl
@[simp] theorem Hub.wake_dcn_nextTag (h : Hub) : h.wake.dcn.nextTag = h.dcn.nextTag := by
  unfold Hub.wake; split
  · simp only [Hub.wakeDomains, Hub.powerDomains, List.foldl, Hub.powerDomain_dcn_nextTag]
  · rfl
@[simp] theorem Hub.taken_dcn_nextTag (h : Hub) (d : Hdr) : (h.taken d).dcn.nextTag = h.dcn.nextTag :=
  (Hub.wake_dcn_nextTag (h.touch d.session)).trans rfl
theorem Hub.powerDomain_dcn_txns (h : Hub) (d : Nat) : (h.powerDomain d).dcn.txns = h.dcn.txns := by
  unfold Hub.powerDomain; split
  · rfl
  · split <;> rfl
@[simp] theorem Hub.wake_dcn_txns (h : Hub) : h.wake.dcn.txns = h.dcn.txns := by
  unfold Hub.wake; split
  · simp only [Hub.wakeDomains, Hub.powerDomains, List.foldl, Hub.powerDomain_dcn_txns]
  · rfl
@[simp] theorem Hub.taken_dcn_txns (h : Hub) (d : Hdr) : (h.taken d).dcn.txns = h.dcn.txns :=
  (Hub.wake_dcn_txns (h.touch d.session)).trans rfl
theorem Hub.powerDomain_dcn_combines (h : Hub) (d : Nat) : (h.powerDomain d).dcn.combines = h.dcn.combines := by
  unfold Hub.powerDomain; split
  · rfl
  · split <;> rfl
@[simp] theorem Hub.wake_dcn_combines (h : Hub) : h.wake.dcn.combines = h.dcn.combines := by
  unfold Hub.wake; split
  · simp only [Hub.wakeDomains, Hub.powerDomains, List.foldl, Hub.powerDomain_dcn_combines]
  · rfl
@[simp] theorem Hub.taken_dcn_combines (h : Hub) (d : Hdr) : (h.taken d).dcn.combines = h.dcn.combines :=
  (Hub.wake_dcn_combines (h.touch d.session)).trans rfl
theorem Hub.powerDomain_dcn_ended (h : Hub) (d : Nat) : (h.powerDomain d).dcn.ended = h.dcn.ended := by
  unfold Hub.powerDomain; split
  · rfl
  · split <;> rfl
@[simp] theorem Hub.wake_dcn_ended (h : Hub) : h.wake.dcn.ended = h.dcn.ended := by
  unfold Hub.wake; split
  · simp only [Hub.wakeDomains, Hub.powerDomains, List.foldl, Hub.powerDomain_dcn_ended]
  · rfl
@[simp] theorem Hub.taken_dcn_ended (h : Hub) (d : Hdr) : (h.taken d).dcn.ended = h.dcn.ended :=
  (Hub.wake_dcn_ended (h.touch d.session)).trans rfl
theorem Hub.powerDomain_dcn_collects (h : Hub) (d : Nat) : (h.powerDomain d).dcn.collects = h.dcn.collects := by
  unfold Hub.powerDomain; split
  · rfl
  · split <;> rfl
@[simp] theorem Hub.wake_dcn_collects (h : Hub) : h.wake.dcn.collects = h.dcn.collects := by
  unfold Hub.wake; split
  · simp only [Hub.wakeDomains, Hub.powerDomains, List.foldl, Hub.powerDomain_dcn_collects]
  · rfl
@[simp] theorem Hub.taken_dcn_collects (h : Hub) (d : Hdr) : (h.taken d).dcn.collects = h.dcn.collects :=
  (Hub.wake_dcn_collects (h.touch d.session)).trans rfl
theorem Hub.powerDomain_dcn_mcasts (h : Hub) (d : Nat) : (h.powerDomain d).dcn.mcasts = h.dcn.mcasts := by
  unfold Hub.powerDomain; split
  · rfl
  · split <;> rfl
@[simp] theorem Hub.wake_dcn_mcasts (h : Hub) : h.wake.dcn.mcasts = h.dcn.mcasts := by
  unfold Hub.wake; split
  · simp only [Hub.wakeDomains, Hub.powerDomains, List.foldl, Hub.powerDomain_dcn_mcasts]
  · rfl
@[simp] theorem Hub.taken_dcn_mcasts (h : Hub) (d : Hdr) : (h.taken d).dcn.mcasts = h.dcn.mcasts :=
  (Hub.wake_dcn_mcasts (h.touch d.session)).trans rfl
theorem Hub.powerDomain_dcn_timeoutM1 (h : Hub) (d : Nat) : (h.powerDomain d).dcn.timeoutM1 = h.dcn.timeoutM1 := by
  unfold Hub.powerDomain; split
  · rfl
  · split <;> rfl
@[simp] theorem Hub.wake_dcn_timeoutM1 (h : Hub) : h.wake.dcn.timeoutM1 = h.dcn.timeoutM1 := by
  unfold Hub.wake; split
  · simp only [Hub.wakeDomains, Hub.powerDomains, List.foldl, Hub.powerDomain_dcn_timeoutM1]
  · rfl
@[simp] theorem Hub.taken_dcn_timeoutM1 (h : Hub) (d : Hdr) : (h.taken d).dcn.timeoutM1 = h.dcn.timeoutM1 :=
  (Hub.wake_dcn_timeoutM1 (h.touch d.session)).trans rfl
theorem Hub.powerDomain_dcn_links (h : Hub) (d : Nat) : (h.powerDomain d).dcn.links = h.dcn.links := by
  unfold Hub.powerDomain; split
  · rfl
  · split <;> rfl
@[simp] theorem Hub.wake_dcn_links (h : Hub) : h.wake.dcn.links = h.dcn.links := by
  unfold Hub.wake; split
  · simp only [Hub.wakeDomains, Hub.powerDomains, List.foldl, Hub.powerDomain_dcn_links]
  · rfl
@[simp] theorem Hub.taken_dcn_links (h : Hub) (d : Hdr) : (h.taken d).dcn.links = h.dcn.links :=
  (Hub.wake_dcn_links (h.touch d.session)).trans rfl
theorem Hub.powerDomain_dcn_adopted (h : Hub) (d : Nat) : (h.powerDomain d).dcn.adopted = h.dcn.adopted := by
  unfold Hub.powerDomain; split
  · rfl
  · split <;> rfl
@[simp] theorem Hub.wake_dcn_adopted (h : Hub) : h.wake.dcn.adopted = h.dcn.adopted := by
  unfold Hub.wake; split
  · simp only [Hub.wakeDomains, Hub.powerDomains, List.foldl, Hub.powerDomain_dcn_adopted]
  · rfl
@[simp] theorem Hub.taken_dcn_adopted (h : Hub) (d : Hdr) : (h.taken d).dcn.adopted = h.dcn.adopted :=
  (Hub.wake_dcn_adopted (h.touch d.session)).trans rfl
theorem Hub.powerDomain_dcn_inbox (h : Hub) (d : Nat) : (h.powerDomain d).dcn.inbox = h.dcn.inbox := by
  unfold Hub.powerDomain; split
  · rfl
  · split <;> rfl
@[simp] theorem Hub.wake_dcn_inbox (h : Hub) : h.wake.dcn.inbox = h.dcn.inbox := by
  unfold Hub.wake; split
  · simp only [Hub.wakeDomains, Hub.powerDomains, List.foldl, Hub.powerDomain_dcn_inbox]
  · rfl
@[simp] theorem Hub.taken_dcn_inbox (h : Hub) (d : Hdr) : (h.taken d).dcn.inbox = h.dcn.inbox :=
  (Hub.wake_dcn_inbox (h.touch d.session)).trans rfl
theorem Hub.powerDomain_dcn_nodes (h : Hub) (d : Nat) : (h.powerDomain d).dcn.nodes = h.dcn.nodes := by
  unfold Hub.powerDomain; split
  · rfl
  · split <;> rfl
@[simp] theorem Hub.wake_dcn_nodes (h : Hub) : h.wake.dcn.nodes = h.dcn.nodes := by
  unfold Hub.wake; split
  · simp only [Hub.wakeDomains, Hub.powerDomains, List.foldl, Hub.powerDomain_dcn_nodes]
  · rfl
@[simp] theorem Hub.taken_dcn_nodes (h : Hub) (d : Hdr) : (h.taken d).dcn.nodes = h.dcn.nodes :=
  (Hub.wake_dcn_nodes (h.touch d.session)).trans rfl
theorem Hub.powerDomain_dcn_sources (h : Hub) (d : Nat) : (h.powerDomain d).dcn.sources = h.dcn.sources := by
  unfold Hub.powerDomain; split
  · rfl
  · split <;> rfl
@[simp] theorem Hub.wake_dcn_sources (h : Hub) : h.wake.dcn.sources = h.dcn.sources := by
  unfold Hub.wake; split
  · simp only [Hub.wakeDomains, Hub.powerDomains, List.foldl, Hub.powerDomain_dcn_sources]
  · rfl
@[simp] theorem Hub.taken_dcn_sources (h : Hub) (d : Hdr) : (h.taken d).dcn.sources = h.dcn.sources :=
  (Hub.wake_dcn_sources (h.touch d.session)).trans rfl
theorem Hub.powerDomain_dcn_latches (h : Hub) (d : Nat) : (h.powerDomain d).dcn.latches = h.dcn.latches := by
  unfold Hub.powerDomain; split
  · rfl
  · split <;> rfl
@[simp] theorem Hub.wake_dcn_latches (h : Hub) : h.wake.dcn.latches = h.dcn.latches := by
  unfold Hub.wake; split
  · simp only [Hub.wakeDomains, Hub.powerDomains, List.foldl, Hub.powerDomain_dcn_latches]
  · rfl
@[simp] theorem Hub.taken_dcn_latches (h : Hub) (d : Hdr) : (h.taken d).dcn.latches = h.dcn.latches :=
  (Hub.wake_dcn_latches (h.touch d.session)).trans rfl
theorem Hub.powerDomain_dcn_enums (h : Hub) (d : Nat) : (h.powerDomain d).dcn.enums = h.dcn.enums := by
  unfold Hub.powerDomain; split
  · rfl
  · split <;> rfl
@[simp] theorem Hub.wake_dcn_enums (h : Hub) : h.wake.dcn.enums = h.dcn.enums := by
  unfold Hub.wake; split
  · simp only [Hub.wakeDomains, Hub.powerDomains, List.foldl, Hub.powerDomain_dcn_enums]
  · rfl
@[simp] theorem Hub.taken_dcn_enums (h : Hub) (d : Hdr) : (h.taken d).dcn.enums = h.dcn.enums :=
  (Hub.wake_dcn_enums (h.touch d.session)).trans rfl
theorem Hub.powerDomain_dcn_readyPt (h : Hub) (d : Nat) : (h.powerDomain d).dcn.readyPt = h.dcn.readyPt := by
  unfold Hub.powerDomain; split
  · rfl
  · split <;> rfl
@[simp] theorem Hub.wake_dcn_readyPt (h : Hub) : h.wake.dcn.readyPt = h.dcn.readyPt := by
  unfold Hub.wake; split
  · simp only [Hub.wakeDomains, Hub.powerDomains, List.foldl, Hub.powerDomain_dcn_readyPt]
  · rfl
@[simp] theorem Hub.taken_dcn_readyPt (h : Hub) (d : Hdr) : (h.taken d).dcn.readyPt = h.dcn.readyPt :=
  (Hub.wake_dcn_readyPt (h.touch d.session)).trans rfl
theorem Hub.powerDomain_dcn_known (h : Hub) (d : Nat) : (h.powerDomain d).dcn.known = h.dcn.known := by
  unfold Hub.powerDomain; split
  · rfl
  · split <;> rfl
@[simp] theorem Hub.wake_dcn_known (h : Hub) : h.wake.dcn.known = h.dcn.known := by
  unfold Hub.wake; split
  · simp only [Hub.wakeDomains, Hub.powerDomains, List.foldl, Hub.powerDomain_dcn_known]
  · rfl
@[simp] theorem Hub.taken_dcn_known (h : Hub) (d : Hdr) : (h.taken d).dcn.known = h.dcn.known :=
  (Hub.wake_dcn_known (h.touch d.session)).trans rfl

end Sys2Proof.Machine
end

