-- ==== Sys2Proof/Laws/Completion.lean ====
section
/-! SUPPORT. Laws of completion: a packet that is admitted runs its opcode on the hub as it finds it, and what a command
then has to show to complete, to be answered or to be refused. -/

namespace Sys2Proof.Machine

/-- A packet that is admitted runs its opcode on the hub as it finds it. -/
theorem Hub.icp_admits (h : Hub) (code : Nat) (hdr : Hdr) (run : Hub → Hub) (a : h.admits code hdr = true) :
    h.icp code hdr run = run (h.taken hdr) := by
  unfold Hub.admits at a
  simp only [Bool.and_eq_true] at a
  obtain ⟨⟨⟨⟨tp, nb⟩, nd⟩, ns⟩, pr⟩ := a
  cases r : opRow code with
  | none => simp [r] at pr
  | some r' =>
    simp only [r] at pr
    have su : h.power.startUp = .ready := by
      simp only [Hub.takesPackets, Bool.and_eq_true, decide_eq_true_eq] at tp; exact tp.1
    have rc : r'.code = code := by
      have := List.find?_some r
      simpa using this
    have v : (h.taken hdr).verdict r' hdr = none := by
      have k := h.taken_only hdr
      have b : (h.taken hdr).busy = false := by
        unfold Hub.busy at nb ⊢
        rw [k .slot (by decide), k .tap (by decide), h.taken_red_heldReplies hdr]
        simpa using nb
      have d : ((h.taken hdr).discards.find? fun d => d.1 == hdr.session) = none := by
        rw [k .discards (by decide)]
        simpa using nd
      have f : ((h.taken hdr).fc.safe && decide (0x0200 ≤ r'.code)) = false := by
        rw [k .fc (by decide), rc]
        simpa only [Bool.not_eq_true'] using ns
      have se := h.taken_session hdr hdr.session
      have de : (h.taken hdr).island.decoded = h.island.decoded := by rw [h.taken_island]; rfl
      unfold Hub.verdict
      simp only [b, d, f, de]
      unfold Hub.permits at pr
      cases s : h.session hdr.session with
      | none =>
        simp only [s] at pr se
        simp only [Option.map_none, Option.map_eq_none_iff] at se
        simp only [se]
        simpa using pr
      | some x =>
        simp only [s] at pr se
        cases y : (h.taken hdr).session hdr.session with
        | none => simp [y] at se
        | some z =>
          simp only [y, Option.map_some, Option.some.injEq, Prod.mk.injEq] at se
          simp only [se.2.1]
          cases fr : r'.free
          · simp only [fr, Bool.false_or] at pr
            cases l : h.island.decoded with
            | none => simp [l] at pr
            | some l' => simp only [l] at pr; simp [pr]
          · simp
    unfold Hub.icp
    simp only [r, su, tp]
    change (match (h.taken hdr).verdict r' hdr with | none => run (h.taken hdr) | some (st, body) => _) = _
    simp [v]

/-- The replies of two hubs go the same way: on the same transport, past the same mux, with the same ones held. -/
def Hub.sameReplies (h g : Hub) : Prop :=
  g.transport = h.transport ∧ g.red.syncWait = h.red.syncWait ∧ g.red.heldReplies = h.red.heldReplies ∧
    g.muxRefuses = h.muxRefuses ∧ g.red.holder = h.red.holder

/-- A reply seen from before the packet was taken. -/
theorem Hub.replied_from {h g t : Hub} {code : Nat} {hdr : Hdr} {st : Status} {body : List Byte} (w : h.sameReplies g)
    (e : ∃ l, g.out = h.out ++ l) (r : g.replied t code hdr st body) : h.replied t code hdr st body := by
  obtain ⟨a, b, c, d, x⟩ := w
  obtain ⟨l, e⟩ := e
  refine ⟨fun n m => ?_, fun n m => ?_, fun n => ?_⟩
  · obtain ⟨k, y, z⟩ := r.1 (b.trans n) (d.trans m)
    exact ⟨l ++ k, by rw [y, e, List.append_assoc], fun p hp => List.mem_append_right _ (z p hp)⟩
  · obtain ⟨k, k', y⟩ := r.2.1 (b.trans n) (d.trans m)
    exact ⟨l ++ k, k', by rw [y, e, x, List.append_assoc h.out]⟩
  · rw [← a, ← c]
    exact r.2.2 fun y => n (b.symm.trans y)

/-- Powering a domain leaves the Debug Port's as it is. -/
theorem Hub.powerDomain_port_on (h : Hub) (d : Nat) (m : d = 2 ∨ d = 3 ∨ d = 18 ∨ d = 4 ∨ d = 5) :
    (h.powerDomain d).domainOn 16 = h.domainOn 16 := by
  unfold Hub.powerDomain
  split
  · rfl
  · rcases m with rfl | rfl | rfl | rfl | rfl <;> simp [Hub.domainOn, domainBit]

/-- Powering a domain leaves what a controller bears, and what the stages hold. -/
theorem Hub.powerDomain_bears (h : Hub) (d : Nat) (s : Half) : (h.powerDomain d).red.bears s = h.red.bears s := by
  unfold Hub.powerDomain
  split
  · rfl
  · split <;> cases s <;> rfl

theorem Hub.powerDomain_refuses (h : Hub) (d : Nat) (m : d = 2 ∨ d = 3 ∨ d = 18 ∨ d = 4 ∨ d = 5) :
    (h.powerDomain d).refuses 0 = h.refuses 0 := by
  have o := h.powerDomain_port_on d m
  simp only [Hub.refuses, show stageDomain 0 = 16 from rfl, o, h.powerDomain_red_granted, h.powerDomain_red_stages,
    h.powerDomain_red_holder, h.powerDomain_bears]

theorem Hub.wakeDomains_refuses (h : Hub) : h.wakeDomains.refuses 0 = h.refuses 0 := by
  simp only [Hub.wakeDomains, Hub.powerDomains, List.foldl]
  rw [Hub.powerDomain_refuses _ 5 (by simp), Hub.powerDomain_refuses _ 4 (by simp), Hub.powerDomain_refuses _ 18 (by simp),
    Hub.powerDomain_refuses _ 3 (by simp), Hub.powerDomain_refuses _ 2 (by simp)]

theorem Hub.wake_refuses (h : Hub) : h.wake.refuses 0 = h.refuses 0 := by
  unfold Hub.wake
  split
  · exact (Hub.wakeDomains_refuses _).trans rfl
  · rfl

theorem Hub.working_bears (h : Hub) (s : Half) : h.working.red.bears s = h.red.bears s := by
  unfold Hub.working Red.bears
  cases h.red.holder <;> cases s <;> rfl

theorem Hub.working_refuses (h : Hub) : h.working.refuses 0 = h.refuses 0 := by
  simp only [Hub.refuses, h.working_bears, show h.working.red.holder = h.red.holder from Red.setCtrl_holder _ _ _,
    show h.working.red.granted = h.red.granted from Red.setCtrl_granted _ _ _,
    show h.working.red.stages = h.red.stages from Red.setCtrl_stages _ _ _]
  rfl

theorem Hub.taken_sameReplies (h : Hub) (hdr : Hdr) : h.sameReplies (h.taken hdr) := by
  refine ⟨h.taken_transport hdr, h.taken_red_syncWait hdr, h.taken_red_heldReplies hdr, ?_, h.taken_red_holder hdr⟩
  have r : (h.taken hdr).refuses 0 = h.refuses 0 :=
    (Hub.working_refuses _).trans ((Hub.wake_refuses _).trans rfl)
  simp only [Hub.muxRefuses, h.taken_transport hdr, r]

/-! ### Completion -/

/-- A command that changes the hub it finds to `g`, and answers. -/
theorem State.answers_intro {s : State} {i : Instr} {code : Nat} {hdr : Hdr} {bs : List Block} {body : List Byte}
    {q : Hub → Prop} (g : Hub) (e : exec i s = .next { s with hub := g.answer code hdr .ok body })
    (w : s.hub.sameReplies g) (o : ∃ l, g.out = s.hub.out ++ l) (f : (s.hub.taken hdr).onlyIn (icpBlocks ++ bs) g)
    (k : q (g.answer code hdr .ok body)) : s.answers i code hdr bs body q :=
  ⟨_, e, rfl, rfl, Hub.onlyIn_trans (Hub.onlyIn_trans (Hub.onlyIn_mono (s.hub.taken_only hdr) (by simp [icpBlocks]))
      f) (Hub.onlyIn_mono (g.answer_only _ _ _ _) (by simp [icpBlocks])), Hub.replied_from w o (g.answer_replied _ _ _ _), k⟩

/-- A command that only reads. -/
theorem State.answers_read {s : State} {i : Instr} {code : Nat} {hdr : Hdr} {bs : List Block} {body : List Byte}
    (e : exec i s = .next { s with hub := (s.hub.taken hdr).answer code hdr .ok body }) :
    s.answers i code hdr bs body fun _ => True :=
  State.answers_intro _ e (s.hub.taken_sameReplies hdr) ⟨[], by rw [s.hub.taken_out hdr, List.append_nil]⟩ (Hub.onlyIn_refl _ _) trivial

/-- A command that is refused. -/
theorem State.refuses_intro {s : State} {i : Instr} {code : Nat} {hdr : Hdr} {st : Status} {body : List Byte}
    (e : exec i s = .next { s with hub := (s.hub.taken hdr).answer code hdr st body }) : s.refuses i code hdr st body :=
  ⟨_, e, rfl, rfl, Hub.onlyIn_trans (Hub.onlyIn_mono (s.hub.taken_only hdr) (by simp [icpBlocks]))
      (Hub.onlyIn_mono (Hub.answer_only _ _ _ _ _) (by simp [icpBlocks])),
    Hub.replied_from (s.hub.taken_sameReplies hdr) ⟨[], by rw [s.hub.taken_out hdr, List.append_nil]⟩ (Hub.answer_replied _ _ _ _ _)⟩

/-- A command or event that changes the hub to `g`. -/
theorem State.completes_intro {s : State} {i : Instr} {bs : List Block} {q : Hub → Prop} (g : Hub)
    (e : exec i s = .next { s with hub := g }) (f : s.hub.onlyIn bs g) (k : q g) : s.completes i bs q :=
  ⟨_, e, rfl, rfl, f, k⟩

end Sys2Proof.Machine
end

