-- ==== Sys2Proof/Laws/Memory.lean ====
section
/-! SUPPORT. Laws of the sparse maps and of memory: reading after writing, and that every write keeps the
canonical form. -/

namespace Sys2Proof.Machine

/-! ### Reading after writing -/

@[simp] theorem mapGet_erase_same {α : Type} (d : α) (m : SMap α) (i : Nat) : mapGet d (mapErase m i) i = d := by
  induction m with
  | nil => rfl
  | cons p m ih =>
    obtain ⟨k, v⟩ := p
    by_cases e : i = k
    · simpa only [mapErase, e, if_true] using ih
    · simpa only [mapErase, e, if_false, mapGet] using ih

theorem mapGet_erase_other {α : Type} (d : α) (m : SMap α) (i j : Nat) (h : j ≠ i) :
    mapGet d (mapErase m i) j = mapGet d m j := by
  induction m with
  | nil => rfl
  | cons p m ih =>
    obtain ⟨k, v⟩ := p
    by_cases e : i = k
    · have n : j ≠ k := by omega
      simp only [mapErase, e, if_true, mapGet, n, if_false] at ih ⊢
      exact ih
    · simp [mapErase, mapGet, e, ih]

theorem mapGet_insert {α : Type} (d : α) (m : SMap α) (i j : Nat) (v : α) :
    mapGet d (mapInsert m i v) j = if j = i then v else mapGet d m j := by
  induction m with
  | nil => rfl
  | cons p m ih =>
    obtain ⟨k, w⟩ := p
    simp only [mapInsert]
    split
    · rfl
    · split
      · rename_i e; subst e
        by_cases f : j = i <;> simp [mapGet, f]
      · rename_i e
        by_cases f : j = k
        · have n : j ≠ i := by omega
          simp [mapGet, f]; intro x; omega
        · simp [mapGet, f, ih]

/-- Reading a map after a write. -/
theorem mapGet_set {α : Type} [DecidableEq α] (d : α) (m : SMap α) (i j : Nat) (v : α) :
    mapGet d (mapSet d m i v) j = if j = i then v else mapGet d m j := by
  unfold mapSet
  split
  · rename_i e; subst e
    by_cases f : j = i
    · subst f; simp [mapGet_erase_same]
    · simp [f, mapGet_erase_other v m i j f]
  · exact mapGet_insert d m i j v

/-- Another key reads as before, whatever the form. -/
theorem mapGet_set_other {α : Type} [DecidableEq α] (d : α) (m : SMap α) (i j : Nat) (v : α) (h : j ≠ i) :
    mapGet d (mapSet d m i v) j = mapGet d m j := by
  unfold mapSet
  split
  · exact mapGet_erase_other d m i j h
  · simp [mapGet_insert, h]

/-! ### The canonical form -/

theorem mapWfFrom_mono {α : Type} [DecidableEq α] (d : α) (m : SMap α) (lo lo' : Nat) (h : lo' ≤ lo)
    (w : mapWfFrom d lo m = true) : mapWfFrom d lo' m = true := by
  cases m with
  | nil => rfl
  | cons p m =>
    obtain ⟨k, v⟩ := p
    simp only [mapWfFrom, Bool.and_eq_true, decide_eq_true_eq] at w ⊢
    exact ⟨⟨by omega, w.1.2⟩, w.2⟩

theorem mapErase_wf {α : Type} [DecidableEq α] (d : α) (m : SMap α) (lo i : Nat) (w : mapWfFrom d lo m = true) :
    mapWfFrom d lo (mapErase m i) = true := by
  induction m generalizing lo with
  | nil => rfl
  | cons p m ih =>
    obtain ⟨k, v⟩ := p
    simp only [mapWfFrom, Bool.and_eq_true, decide_eq_true_eq] at w
    simp only [mapErase]
    split
    · exact mapWfFrom_mono d _ (k + 1) lo (by omega) (ih (k + 1) w.2)
    · simp only [mapWfFrom, Bool.and_eq_true, decide_eq_true_eq]
      exact ⟨w.1, ih (k + 1) w.2⟩

theorem mapInsert_wf {α : Type} [DecidableEq α] (d : α) (m : SMap α) (lo i : Nat) (v : α) (l : lo ≤ i) (n : v ≠ d)
    (w : mapWfFrom d lo m = true) : mapWfFrom d lo (mapInsert m i v) = true := by
  induction m generalizing lo with
  | nil => simp [mapInsert, mapWfFrom, l, n]
  | cons p m ih =>
    obtain ⟨k, x⟩ := p
    have w' := w
    simp only [mapWfFrom, Bool.and_eq_true, decide_eq_true_eq] at w
    simp only [mapInsert]
    split
    · simp only [mapWfFrom, Bool.and_eq_true, decide_eq_true_eq]
      exact ⟨⟨l, n⟩, ⟨by omega, w.1.2⟩, w.2⟩
    · split
      · simp only [mapWfFrom, Bool.and_eq_true, decide_eq_true_eq]
        exact ⟨⟨w.1.1, n⟩, w.2⟩
      · simp only [mapWfFrom, Bool.and_eq_true, decide_eq_true_eq]
        exact ⟨w.1, ih (k + 1) (by omega) w.2⟩

theorem mapSet_wf {α : Type} [DecidableEq α] (d : α) (m : SMap α) (i : Nat) (v : α) (w : mapWf d m = true) :
    mapWf d (mapSet d m i v) = true := by
  unfold mapSet
  split
  · exact mapErase_wf d m 0 i w
  · exact mapInsert_wf d m 0 i v (Nat.zero_le i) (by assumption) w

/-! ### Memory -/

theorem memSet_wf (m : SMap Byte) (a : Nat) (b : Byte) (w : memWf m = true) : memWf (memSet m a b) = true :=
  mapSet_wf 0 m a b w

theorem memByte_set_other (m : SMap Byte) (a x : Nat) (b : Byte) (h : x ≠ a) : memByte (memSet m a b) x = memByte m x :=
  mapGet_set_other 0 m a x b h

/-! ### Writing octets -/

theorem mapWfFrom_filter {α : Type} [DecidableEq α] (d : α) (m : SMap α) (lo : Nat) (f : Nat × α → Bool)
    (w : mapWfFrom d lo m = true) : mapWfFrom d lo (m.filter f) = true := by
  induction m generalizing lo with
  | nil => rfl
  | cons p m ih =>
    obtain ⟨k, v⟩ := p
    simp only [mapWfFrom, Bool.and_eq_true, decide_eq_true_eq] at w
    by_cases e : f (k, v) = true
    · simp only [List.filter, e, mapWfFrom, Bool.and_eq_true, decide_eq_true_eq]
      exact ⟨w.1, ih (k + 1) w.2⟩
    · simp only [List.filter, e]
      exact mapWfFrom_mono d _ (k + 1) lo (by omega) (ih (k + 1) w.2)

/-- A part whose keys lie below `hi`, before a part that begins at `hi`. -/
theorem mapWfFrom_append {α : Type} [DecidableEq α] (d : α) (m n : SMap α) (lo hi : Nat) (l : lo ≤ hi)
    (b : ∀ p ∈ m, p.1 < hi) (w : mapWfFrom d lo m = true) (x : mapWfFrom d hi n = true) :
    mapWfFrom d lo (m ++ n) = true := by
  induction m generalizing lo with
  | nil => exact mapWfFrom_mono d n hi lo l x
  | cons p m ih =>
    obtain ⟨k, v⟩ := p
    simp only [mapWfFrom, Bool.and_eq_true, decide_eq_true_eq, List.cons_append] at w ⊢
    have : k < hi := b (k, v) (by simp)
    exact ⟨w.1, ih (k + 1) (by omega) (fun q hq => b q (by simp [hq])) w.2⟩

theorem mapWfFrom_from {α : Type} [DecidableEq α] (d : α) (m : SMap α) (lo hi : Nat) (b : ∀ p ∈ m, hi ≤ p.1)
    (w : mapWfFrom d lo m = true) : mapWfFrom d hi m = true := by
  cases m with
  | nil => rfl
  | cons p m =>
    obtain ⟨k, v⟩ := p
    simp only [mapWfFrom, Bool.and_eq_true, decide_eq_true_eq] at w ⊢
    exact ⟨⟨b (k, v) (by simp), w.1.2⟩, w.2⟩

theorem listed_wf (a : Nat) (l : List Byte) : mapWfFrom 0 a (listed a l) = true := by
  induction l generalizing a with
  | nil => rfl
  | cons b l ih =>
    simp only [listed]
    split
    · exact mapWfFrom_mono 0 _ (a + 1) a (by omega) (ih (a + 1))
    · simp only [mapWfFrom, Bool.and_eq_true, decide_eq_true_eq]
      exact ⟨⟨Nat.le_refl a, by assumption⟩, ih (a + 1)⟩

theorem listed_keys (a : Nat) (l : List Byte) : ∀ p ∈ listed a l, p.1 < a + l.length := by
  induction l generalizing a with
  | nil => simp [listed]
  | cons b l ih =>
    intro p hp
    simp only [listed] at hp
    split at hp
    · have := ih (a + 1) p hp
      simp only [List.length_cons]; omega
    · rcases List.mem_cons.1 hp with e | e
      · subst e; simp only [List.length_cons]; omega
      · have := ih (a + 1) p e
        simp only [List.length_cons]; omega

/-- Every write keeps the canonical form. -/
theorem memWrite_wf (m : SMap Byte) (a : Nat) (l : List Byte) (w : memWf m = true) : memWf (memWrite m a l) = true := by
  unfold memWf mapWf memWrite at *
  refine mapWfFrom_append 0 _ _ 0 (a + l.length) (by omega) ?_ ?_ ?_
  · intro p hp
    rcases List.mem_append.1 hp with e | e
    · have := (List.mem_filter.1 e).2
      simp only [decide_eq_true_eq] at this
      omega
    · exact listed_keys a l p e
  · refine mapWfFrom_append 0 _ _ 0 a (Nat.zero_le a) ?_ (mapWfFrom_filter 0 m 0 _ w) (listed_wf a l)
    intro p hp
    simpa using (List.mem_filter.1 hp).2
  · refine mapWfFrom_from 0 _ 0 _ ?_ (mapWfFrom_filter 0 m 0 _ w)
    intro p hp
    simpa using (List.mem_filter.1 hp).2

theorem mapGet_absent {α : Type} (d : α) (m : SMap α) (x : Nat) (b : ∀ p ∈ m, p.1 ≠ x) : mapGet d m x = d := by
  induction m with
  | nil => rfl
  | cons p m ih =>
    obtain ⟨k, v⟩ := p
    have : x ≠ k := fun e => b (k, v) (by simp) e.symm
    simp only [mapGet, this, if_false]
    exact ih fun q hq => b q (by simp [hq])

theorem mapGet_append {α : Type} (d : α) (m n : SMap α) (x : Nat) (b : ∀ p ∈ m, p.1 ≠ x) :
    mapGet d (m ++ n) x = mapGet d n x := by
  induction m with
  | nil => rfl
  | cons p m ih =>
    obtain ⟨k, v⟩ := p
    have : x ≠ k := fun e => b (k, v) (by simp) e.symm
    simp only [List.cons_append, mapGet, this, if_false]
    exact ih fun q hq => b q (by simp [hq])

theorem mapGet_append_left {α : Type} (d : α) (m n : SMap α) (x : Nat) (b : ∀ p ∈ n, p.1 ≠ x) :
    mapGet d (m ++ n) x = mapGet d m x := by
  induction m with
  | nil => exact mapGet_absent d n x b
  | cons p m ih =>
    obtain ⟨k, v⟩ := p
    simp only [List.cons_append, mapGet, ih]

theorem mapGet_filter {α : Type} (d : α) (m : SMap α) (x : Nat) (f : Nat × α → Bool) (b : ∀ v, f (x, v) = true) :
    mapGet d (m.filter f) x = mapGet d m x := by
  induction m with
  | nil => rfl
  | cons p m ih =>
    obtain ⟨k, v⟩ := p
    by_cases e : x = k
    · subst e; simp [List.filter, b v, mapGet]
    · by_cases g : f (k, v) = true
      · simp [List.filter, g, mapGet, e, ih]
      · simp [List.filter, g, mapGet, e, ih]

theorem listed_low (a : Nat) (l : List Byte) : ∀ p ∈ listed a l, a ≤ p.1 := by
  induction l generalizing a with
  | nil => simp [listed]
  | cons b l ih =>
    intro p hp
    simp only [listed] at hp
    split at hp
    · have := ih (a + 1) p hp; omega
    · rcases List.mem_cons.1 hp with e | e
      · subst e; exact Nat.le_refl _
      · have := ih (a + 1) p e; omega

theorem listed_get (a i : Nat) (l : List Byte) (h : i < l.length) : mapGet 0 (listed a l) (a + i) = l[i] := by
  induction l generalizing a i with
  | nil => simp at h
  | cons b l ih =>
    cases i with
    | zero =>
      simp only [listed]
      split
      · rename_i e
        rw [mapGet_absent]
        · simp [e]
        · intro p hp; have := listed_low (a + 1) l p hp; omega
      · simp [mapGet]
    | succ i =>
      have e : a + (i + 1) = a + 1 + i := by omega
      have n : a + 1 + i ≠ a := by omega
      simp only [listed, e]
      split
      · simpa using ih (a + 1) i (by simpa using h)
      · simp only [mapGet, n, if_false]
        simpa using ih (a + 1) i (by simpa using h)

/-- Bytes outside what is written read as before. -/
theorem memByte_write_outside (m : SMap Byte) (a x : Nat) (l : List Byte) (h : x < a ∨ a + l.length ≤ x) :
    memByte (memWrite m a l) x = memByte m x := by
  unfold memByte memWrite
  rcases h with h | h
  · rw [mapGet_append_left, mapGet_append_left, mapGet_filter]
    · intro v; simpa using h
    · intro p hp; have := listed_low a l p hp; omega
    · intro p hp
      have := (List.mem_filter.1 hp).2
      simp only [decide_eq_true_eq] at this
      omega
  · rw [mapGet_append, mapGet_filter]
    · intro v; simpa using h
    · intro p hp
      rcases List.mem_append.1 hp with e | e
      · have := (List.mem_filter.1 e).2
        simp only [decide_eq_true_eq] at this
        omega
      · have := listed_keys a l p e; omega

/-- A written byte reads as written. -/
theorem memByte_write_inside (m : SMap Byte) (a i : Nat) (l : List Byte) (h : i < l.length) :
    memByte (memWrite m a l) (a + i) = l[i] := by
  unfold memByte memWrite
  rw [mapGet_append_left, mapGet_append, listed_get a i l h]
  · intro p hp
    have := (List.mem_filter.1 hp).2
    simp only [decide_eq_true_eq] at this
    omega
  · intro p hp
    have := (List.mem_filter.1 hp).2
    simp only [decide_eq_true_eq] at this
    omega

end Sys2Proof.Machine
end

