-- ==== Sys2Proof/Tests/Slice0.lean ====
section
/-! SUPPORT. The model's own tests: ill-formed commands are refused, the spec's own examples come out, and for each
statement there are a state and operands that meet its hypotheses together. Each is about one command. -/

namespace Sys2Proof.Tests

set_option Elab.async false

open Sys2Proof.Machine

/-! ### States to test in -/

/-- The packet header the tests use: SEQUENCE 7, session 1, which is the Operator's. -/
def hdr : Hdr := { sequence := 7, session := 1 }

/-- The open sessions of the tests: Operator 1, Observer 2 of partition 5, Vendor 3. -/
def sessions : List Session := [
  { tag := 1, role := .operator, partition := 0, transport := .jtag, soundKey := List.replicate 16 0, lastPt := 0 },
  { tag := 2, role := .observer, partition := 5, transport := .jtag, soundKey := List.replicate 16 0, lastPt := 0 },
  { tag := 3, role := .vendor, partition := 0, transport := .jtag, soundKey := List.replicate 16 0, lastPt := 0 }]

/-- A hub that is Ready in Production, 40 ms after counting started, with every domain on. -/
def hub : Hub := {
  time := { edge := 1000000 },
  power := { domains := 0xFFFFF, startUp := .ready },
  red := { west := { role := .active, up := true, claim := 1 }, granted := true, claim := 1 },
  island := { decoded := some .production, sessions := sessions } }

/-- The hub at another PT. -/
def atPt (n : Nat) (h : Hub) : Hub := { h with time := { h.time with edge := 0, base := n } }

/-- The hub in another life-cycle state. -/
def inState (l : LifeCycle) : Hub := { hub with island := { hub.island with decoded := some l } }

/-- The hub in Test, where the Vendor's header is admitted more widely. -/
def testHub : Hub := inState .test

/-- A header of session 3, which is the Vendor's. -/
def vendorHdr : Hdr := { sequence := 7, session := 3 }

/-- A hub in which one unit has the given agent. -/
def withAgent (u : UnitId) (a : Agent) (h : Hub) : Hub := h.setAgent u a

def st (h : Hub) : State := { State.reset with hub := h }

/-- The command answers a next state, of whose hub the test holds. -/
def after (i : Instr) (h : Hub) (q : Hub → Bool) : Bool :=
  match exec i (st h) with
  | .next t => q t.hub
  | _ => false

/-- The last reply put out has the status and the body. -/
def answered (st : Status) (body : List Byte) (h : Hub) : Bool :=
  h.out.any fun o => match o with
    | .reply p => p.status == st && p.payload == body
    | _ => false

/-! ### Ill-formed commands -/

/-- One ill-formed command for each check of `wellFormed` that a packet or a register write can fail. -/
theorem test_ill_formed_packets_are_refused :
    ([.sessionOpen hdr 1 0 [0], .unitStatus hdr ⟨0, 0, [0x1000]⟩, .hangStop hdr 0 0 ⟨1, 0, [0]⟩, .dump hdr 0 (List.replicate 256 (0, 0)), .dumpImageRegister hdr [] 0 0,
      .traceConfig hdr 0 (List.replicate 255 ⟨0, 0, 0⟩),
      .traceQuery hdr { collectors := 0, types := 0, always := 0, startCollector := 0, ptFrom := 0, ptTo := 0, tag := 0,
                        tagMask := 0, startLineSeq := 0, maxMatches := 0, sources := List.replicate 17 (0, 0) },
      .counterRead hdr 0 ⟨0, 0, [0]⟩, .counterAggregate hdr 0 ⟨2, 0, [0]⟩, .counterFreeze hdr 0 0 ⟨0, 0, [0]⟩,
      .counterSnapshotRead hdr ⟨0, 0, [0]⟩, .counterClear hdr ⟨0, 0, [0]⟩,
      .soundingKey hdr [], .probeLoad hdr 0 (List.replicate 257 0), .faultConfig hdr (List.replicate 512 ⟨0, 0, 0, 0, 0⟩),
      .faultAck hdr (List.replicate 256 0), .taintDestSet hdr [1, 2, 3, 4, 5],
      .patternKeyRegister hdr [], .roleKeyProgram hdr 1 [],
      .regWrite hdr 0 (List.replicate 1025 0),
      .wdogLimitWrite 0 16 ⟨0, none⟩, .fcCfgWrite 4096 0] : List Instr).all (fun i => !i.wellFormed) = true := by decide +kernel

/-- A SOUNDING_SET of the whole chip, for tap 0 in FP16, every 1 ms. -/
def plainSounding : SoundingSpec := {
  number := 0, tapMask := 1, format := 0x02, ctrl := 0, stats := 1, expBase := 0, shifts := 0, scaleBase := 0, depth := 1
  persist := 0, scope := ⟨0, 0, []⟩, periodUs := 1000, selA := 0, selB := 0, tc := 0 }

/-- A REPLAY of no inputs. -/
def plainReplay : ReplaySpec := {
  epoch := 0, origDigest := 0, origElements := 1, origBeginPt := 0, suspectFrom := 0, scratch := 0x10000, outBase := 0
  outScaleBase := 0, origUnit := 0, spare0 := 1, spare1 := 0xFFFF, origEngine := 0, outFormat := 0x02, options := 0
  tile := 0, ranges := [], descriptor := List.replicate 64 0 }

/-- The same for a SOUNDING_SET and a REPLAY. -/
theorem test_ill_formed_sounding_and_replay_are_refused :
    (Instr.soundingSet hdr { plainSounding with scope := ⟨1, 0, [0x1000]⟩ }).wellFormed = false ∧
    (Instr.replay hdr { plainReplay with ranges := List.replicate 256 ⟨0, 0, 0, 0, 0⟩ }).wellFormed = false := by decide +kernel

theorem too_long (n m : Nat) (x : Byte) (h : n < m) : octetsUpTo n (List.replicate m x) = false := by
  simp [octetsUpTo, h]

theorem too_many (n m : Nat) (x : UnitId) (h : n < m) : countUpTo n (List.replicate m x) = false := by
  simp [countUpTo, h]

theorem replay_fits (d : List Byte) :
    (Instr.replay hdr { plainReplay with descriptor := d }).wellFormed = octetsUpTo 65504 d := by
  simp [Instr.wellFormed, plainReplay, countUpTo]

theorem scope_fits (l : List UnitId) : (Instr.unitStatus hdr ⟨3, 0, l⟩).wellFormed = countUpTo 65535 l := by
  simp [Instr.wellFormed, ScopeBlock.fits]

/-- The same for the payloads that are too long for a packet, and the units that are too many for N. -/
theorem test_too_long_payloads_are_refused :
    (Instr.inspectWrite hdr 0 0 0 (List.replicate 65494 0)).wellFormed = false ∧
    (Instr.replay hdr { plainReplay with descriptor := List.replicate 65505 0 }).wellFormed = false ∧
    (Instr.patternLoad hdr 0 0 0 (List.replicate 65496 0)).wellFormed = false ∧
    (Instr.firmwareWrite hdr 0 0 0 (List.replicate 65496 0)).wellFormed = false ∧
    (Instr.runPatterns hdr 0 0 0 0 (List.replicate 65536 0)).wellFormed = false ∧
    (Instr.unitStatus hdr ⟨3, 0, List.replicate 65536 0⟩).wellFormed = false := by
  exact ⟨too_long _ _ 0 (by decide), (replay_fits _).trans (too_long _ _ 0 (by decide)), too_long _ _ 0 (by decide),
    too_long _ _ 0 (by decide), too_many _ _ 0 (by decide),
    (scope_fits _).trans (too_many _ _ 0 (by decide))⟩

/-- The same for the events: a number that names nothing. -/
theorem test_ill_formed_events_are_refused :
    ([.podTrigOutPulse 8, .sightOffset 16 ⟨0, 0, 0, false, 0⟩, .sightProbe 16 ⟨0, 0, 0, false⟩ 0 0,
      .sightEcho 16 ⟨0, 0, 0, false, false, 0, 0⟩ 0, .residualCheck 16 0, .residualRetry 16 0,
      .podStop 16 ⟨0, 0, false, 0, 0⟩, .flitReceived (.agent 1956) .down ⟨0, 0⟩, .linkControlFlit (.bay .west 16 0) .up ⟨0, 0⟩,
      .linkDown (.bay .west 0 4) .silent, .linkRetrain (.pier .east 16) true, .linkNotice (.side .west 16 0),
      .routeRestore (.side .west 0 4), .combineReceived (.pier .west 16) (.agent 0) 0,
      .combineReceived (.root .west) (.node (.bay .west 0 4)) 0, .combineTimeout (.bay .east 16 0) 0,
      .watchdogExpiry 0 16 none, .gapClose 32, .lineWrite 32, .periodicFix 32, .triggerInstant 32, .collectorWake 32,
      .writebackBeat 0 16 ⟨0, 0, 0, [], []⟩, .postingInstant 256, .postingEdge 0 256, .postingWrite 256,
      .probeEvaluation 8, .waitptResume 8, .probeTimer 8, .faultEvent 4096 0 0 none, .keystoneFault 37 0 0, .faultCleared 4096,
      .supplyExcursion 22 0 0 false, .grantWord (.stage 37) 0 0, .stageAccess 37 .west 0, .domainPowerOff 21,
      .markInstant 32] : List Instr).all (fun i => !i.wellFormed) = true := by decide +kernel

/-! ### Every packet is admitted somewhere -/

def lifeCycles : List LifeCycle := [.blank, .test, .production, .endOfLife]

/-- Every opcode of Table 16-5 is admitted in some life-cycle state, in the session of some role. -/
theorem test_every_opcode_is_admitted :
    (opRows.all fun r => lifeCycles.any fun l => [0, 1, 2, 3].any fun tag =>
      (inState l).admits r.code { sequence := 7, session := tag }) = true := by decide +kernel

/-! ### Sessions, status, identity -/

/-- A DRBG whose key and value are all zero. -/
def drbg : Drbg := { k := List.replicate 48 0, v := List.replicate 48 0, requests := 0 }

/-- An Operator's key is burnt, and its challenge is pending. -/
def challenged : Hub := { hub with island := { hub.island with
  drbg := some drbg, sessions := [], otp := { operator := { hash := List.replicate 48 0x11, sealed := true } }
  challenge := some { bytes := List.replicate 48 0x22, role := 2, partition := 0, pt := hub.pt } } }

def noSession : Hdr := { sequence := 7, session := 0 }

/-- SESSION_CHALLENGE: the greatest partition of an Observer, and the only one of an Operator. -/
theorem test_challenge_meets :
    challenged.admits 0x0001 noSession = true ∧ roleOf 1 ≠ none ∧ roleOf 2 ≠ none ∧
    (63 : Byte).toNat ≤ (if (1 : Byte) = 1 then 63 else 0) ∧ (0 : Byte).toNat ≤ (if (2 : Byte) = 1 then 63 else 0) ∧
    challenged.island.holdPt ≤ challenged.pt ∧ challenged.island.entropyFail = false ∧
    challenged.island.drbg = some drbg := by decide +kernel

/-- A hub with another island. -/
def withIsland (i : Island) (h : Hub) : Hub := { h with island := i }

/-- SESSION_CHALLENGE while FAIL_COUNT holds it up, after an entropy failure, and without a DRBG. -/
theorem test_challenge_refusals_meet :
    after (.sessionChallenge noSession 2 0) (withIsland { challenged.island with holdPt := challenged.pt + 1 } challenged)
      (answered .denied []) = true ∧
    after (.sessionChallenge noSession 2 0) (withIsland { challenged.island with entropyFail := true } challenged)
      (answered .badState []) = true ∧
    after (.sessionChallenge noSession 2 0) (withIsland { challenged.island with drbg := none } challenged)
      (answered .badState []) = true := by decide +kernel

/-- A response is good where it is the HMAC of the session message under the role's key. -/
theorem good_response (h : Hub) (c : Challenge) (r : Role) (role partition : Byte) (k : List Byte)
    (hc : h.island.challenge = some c) (hr : roleOf role.toNat = some r) (hk : h.roleKey r partition = some k)
    (hm : (c.role == role && c.partition == partition && decide (h.pt < c.pt + 1000000000)) = true) :
    h.responseGood role partition (hmac384 k (h.sessionMessage c)) = true := by
  simp [Hub.responseGood, hc, hr, hk] at hm ⊢
  exact hm

/-- SESSION_OPEN with the right response: the conditions of R397, and of at most four sessions. -/
theorem test_good_response_meets :
    challenged.responseGood 2 0 (hmac384 (List.replicate 48 0x11) (challenged.sessionMessage
      { bytes := List.replicate 48 0x22, role := 2, partition := 0, pt := hub.pt })) = true ∧
    challenged.admits 0x0002 noSession = true ∧ challenged.island.sessions.length < 4 ∧ roleOf 2 = some .operator :=
  ⟨good_response _ _ .operator 2 0 _ rfl rfl (by decide +kernel) (by decide +kernel), by decide +kernel, by decide +kernel,
    by decide +kernel⟩

/-- A tag is drawn that is not zero and that no session has. -/
theorem test_tag_is_drawn :
    ((drawTag 16 ((challenged.taken noSession).island.sessions.map (·.tag)) (challenged.taken noSession).island).any
      fun x => x.1 != 0) = true := by decide +kernel

/-- Four sessions are open, and one is the Vendor's. -/
theorem test_sessions_are_full :
    let full := withIsland { challenged.island with sessions := sessions ++ sessions.take 1 } challenged
    full.admits 0x0002 noSession = true ∧ full.island.sessions.length = 4 ∧
    full.island.sessions.any (fun x => x.role == .vendor) = true := by decide +kernel

/-- The fourth failure, and one more than 255. -/
theorem test_failures_hold_up_sessions :
    ([3, 255].all fun n => after (.sessionOpen noSession 1 0 (List.replicate 48 0))
      (withIsland { challenged.island with failCount := n } challenged) fun h =>
        h.island.failCount == min (n + 1) 255 && h.island.holdPt == hub.pt + 1000000000 * (if n = 3 then 1 else 256)) = true := by
  decide +kernel

/-- SESSION_OPEN with another role is no good response: denied, and the challenge is used up. -/
theorem test_bad_response_meets :
    challenged.admits 0x0002 noSession = true ∧ challenged.responseGood 1 0 (List.replicate 48 0) = false ∧
    after (.sessionOpen noSession 1 0 (List.replicate 48 0)) challenged (fun h =>
      h.island.challenge.isNone && h.island.failCount == 1 && answered .denied [] h) = true := by decide +kernel

/-- The status commands are admitted in the Operator's session; IDENTIFY answers version 0x09, Production, ID 0. -/
theorem test_status_commands_meet :
    ([0x0000, 0x0003, 0x0004, 0x0100, 0x0103, 0x0104, 0x0200, 0x0203].all fun c => hub.admits c hdr) = true ∧
    after (.sessionClose hdr) hub (fun h => (h.session 1).isNone && (h.session 2).isSome) = true ∧
    after (.timeGet hdr) hub (answered .ok ([0x00, 0x5A, 0x62, 0x02, 0, 0, 0, 0] ++ [1, 1])) = true := by decide +kernel

/-- UNIT_STATUS of one unit without power: Absent, STATE 0xFF (Table 16-5). -/
theorem test_unit_status_meets :
    hub.admits 0x0101 hdr = true ∧ scopeFault ⟨3, 0, [0x0005]⟩ 0 = none ∧
    after (.unitStatus hdr ⟨3, 0, [0x0005]⟩) hub (answered .ok [0x05, 0x00, 2, 0xFF]) = true ∧
    scopeFault ⟨1, 2, []⟩ 0 = some 1 ∧
    after (.unitStatus hdr ⟨1, 2, []⟩) hub (answered .badArg (badArgBody 1 0)) = true := by decide +kernel

def assigned : Hub := { hub with ident := { chipId := 0x3FFF, assigned := true } }

/-- CHIP_ID_SET before, with, and against the ID there is. -/
theorem test_chip_id_meets :
    hub.admits 0x0102 hdr = true ∧ hub.ident.assigned = false ∧ assigned.admits 0x0102 hdr = true ∧
    after (.chipIdSet hdr 0x1234) hub (fun h => h.ident.assigned && h.ident.chipId == 0x1234) = true ∧
    after (.chipIdSet hdr 0x3FFF) assigned (answered .ok []) = true ∧
    after (.chipIdSet hdr 0) assigned (fun h => answered .badState [] h && h.ident.chipId == 0x3FFF) = true := by
  decide +kernel

/-- AO power-on clears the ID (R22). -/
theorem test_ao_power_on_clears_the_id :
    after .aoPowerOn assigned (fun h => !h.ident.assigned && h.ident.chipId == 0) = true := by decide +kernel

/-! ### Time and sighting -/

/-- An Assigned chip one ns before an AO edge, in Interpolated mode. -/
def lastNs : Hub := { assigned with time := { edge := 1000000, sub := 39, mode := .interpolated, pllLocked := true } }

/-- SIGHT_START at the least and the greatest BASE of R69, in a later round; PT is BASE at the next edge. -/
theorem test_sight_start_meets :
    lastNs.admits 0x0201 hdr = true ∧ lastNs.sight.state = .idle ∧ lastNs.sight.starting = false ∧
    lastNs.pt + 1000000 = 41000039 ∧ laterThan 32 0 0xFFFFFFFF = true ∧
    after (.sightStart hdr 0 (BitVec.ofNat 64 (2 ^ 62))) { lastNs with sight := { lastRound := some 0xFFFFFFFF } } (fun h =>
      h.nanosecond.pt == 2 ^ 62 && h.nanosecond.sight.state == .committed && h.sight.state == .idle) = true ∧
    after (.sightStart hdr 5 41000039) lastNs (fun h => h.nanosecond.pt == 41000039) = true := by decide +kernel

theorem test_sight_reset_meets :
    lastNs.admits 0x0202 hdr = true ∧
    after (.sightReset hdr) { lastNs with sight := { state := .committed, lastRound := some 3 } } (fun h =>
      h.sight.state == .idle && h.sight.lastRound == some 3 && h.pt == lastNs.pt) = true := by decide +kernel

/-- The PLL's lock and unlock, and the reference's loss and return, each in a state that statement names. -/
theorem test_time_modes_meet :
    hub.domainOn 18 = true ∧ hub.time.refLost = false ∧
    after .pllLock { hub with time := { hub.time with sub := 39 } } (fun h =>
      h.nanosecond.time.mode == .interpolated && h.time.mode == .deadReckoned) = true ∧
    after .pllUnlock lastNs (fun h => h.nanosecond.time.mode == .deadReckoned) = true ∧
    after .referenceLoss lastNs (fun h => h.sight.state == .failed && h.nanosecond.time.mode == .holdover) = true ∧
    after .referenceReturn { lastNs with time := { lastNs.time with refLost := true, mode := .holdover } } (fun h =>
      h.nanosecond.time.mode == .interpolated) = true ∧
    after .pllLock { lastNs with time := { lastNs.time with refLost := true } } (fun h => h.time.pllLocked && h.time.nextMode.isNone) = true := by
  decide +kernel

def offer : OfferMsg := { round := 8, sender := 2, depth := 255, deep := false, ref := 1 }

/-- An offer of a later round in Idle, Behind and Failed, at the greatest depth and the greatest link. -/
theorem test_offer_meets :
    ([SightState.idle, .behind, .failed].all fun s =>
      after (.sightOffset 15 offer) { assigned with sight := { state := s, lastRound := some 7 } } fun h =>
        h.sight.state == .measuring && h.sight.parent == some 15 && h.sight.depth == 255 && h.sight.deep) = true ∧
    assigned.ident.assigned = true ∧ assigned.sight.starting = false ∧ laterThan 32 8 7 = true := by decide +kernel

def probeMsg : ProbeMsg := { round := 8, sender := 2, seq := 7, check := true }

/-- A Committed chip answers with its stamps; one that is not Committed, without them. -/
theorem test_probe_is_echoed :
    after (.sightProbe 0 probeMsg 65 66) { assigned with sight := { state := .committed, lastRound := some 8 } } (fun h =>
      h.out == [.ctl 0 0x02 [8, 0, 0, 0, 0xFF, 0x3F, 0x87, 1, 2, 0, 0, 0, 0, 0, 0, 0, 2, 0, 0, 0, 0, 0, 0, 0, 1, 2,
        0, 0, 0, 0, 0, 0]]) = true ∧
    after (.sightProbe 0 probeMsg 65 66) assigned (fun h =>
      h.out == [.ctl 0 0x02 ([8, 0, 0, 0, 0xFF, 0x3F, 0x87] ++ List.replicate 25 0)]) = true := by decide +kernel

/-- Measuring on link 3 with no probe on its way. -/
def measuring : Hub := { assigned with sight := { state := .measuring, parent := some 3, lastRound := some 8 } }

/-- The same with its first probe on its way. -/
def probing (sentPt : Nat) : Hub := { measuring with sight := { measuring.sight with
  sent := 1, probe := some { link := 3, seq := 0, t1 := 320, sentPt := sentPt, check := false } } }

theorem test_first_probe_meets :
    measuring.sight.probe = none ∧ measuring.sight.fourthPt = none ∧ measuring.sight.sent = 0 ∧
    measuring.actionArmed = false ∧
    after (.probeSendDue 320) measuring (fun h => h.sight.sent == 1 &&
      h.sight.probe == some { link := 3, seq := 0, t1 := 320, sentPt := 40000000, check := false }) = true := by decide +kernel

/-- An echo exactly at 50 us is too late; one ns earlier it counts. -/
theorem test_echo_meets :
    after .echoTimeout (probing (40000000 - 50000)) (fun h => h.sight.probe.isNone && h.sight.sent == 1) = true ∧
    after (.sightEcho 3 { round := 8, sender := 2, seq := 0, check := false, committed := true, t2 := 1000, t3 := 1010 } 400)
      (probing (40000000 - 49999)) (fun h => h.sight.probe.isNone &&
        h.sight.echoes == [{ seq := 0, offset := 645, trip := 70 }]) = true := by decide +kernel

theorem test_foreign_message_meets :
    (0x04 : Byte) ∉ ([0x01, 0x02, 0x03, 0x10, 0x20] : List Byte) ∧
    after (.foreignMessage 0x04) { hub with ctl := { foreign := 0xFFFFFFFF } } (fun h => h.ctl.foreign == 0xFFFFFFFF) = true := by
  decide +kernel

/-- Four echoes, the fourth 1 us before this AO edge; the best one's offset is 100 ns and 16/32. -/
def fourEchoes : Hub := { measuring with sight := { measuring.sight with
  sent := 4, fourthPt := some (40000000 - 1000)
  echoes := [⟨0, 9999, 9⟩, ⟨1, 3216, 2⟩, ⟨2, 7777, 3⟩, ⟨3, 8888, 4⟩] } }

theorem test_sight_step_meets :
    bestExchange fourEchoes.sight.echoes = some ⟨1, 3216, 2⟩ ∧ fourEchoes.time.sub = 0 ∧
    after .sightStep fourEchoes (fun h => h.pt == 40000100 && h.time.phase32 == 16 && h.sight.state == .committed &&
      h.sight.step == 100) = true := by decide +kernel

/-- Committed on every link, long enough for the residual checks. -/
def committed : Hub := { assigned with sight := { state := .committed, lastRound := some 8, committedPt := 40000000 - 10000 } }

theorem test_residual_check_meets :
    committed.checkOpen 15 = true ∧ (committed.residual 15).failedPt = none ∧
    after (.residualCheck 15 64) committed (fun h => (h.residual 15).sent == 1) = true ∧
    after (.residualRetry 15 64) { committed with sight := { committed.sight with residuals :=
      [(15, { failedPt := some (40000000 - 1000000), since := some 30000000, sent := 4, got := [⟨0, 1, 1⟩] })] } } (fun h =>
        (h.residual 15).sent == 1 && (h.residual 15).got == [] && (h.residual 15).failedPt.isNone) = true ∧
    after (.residualRetry 15 64) { committed with
      time := { hub.time with base := 100000000 }
      sight := { committed.sight with residuals := [(15, { failedPt := some 39000000, since := some 40000000 })] } } (fun h =>
        (h.residual 15).unchecked) = true := by decide +kernel

/-! ### Life cycle, keys, registers, firmware -/

/-- Two copies of three agree, whichever they are; no two of three give Locked (R385). -/
theorem test_vote :
    (vote 0xFF 0xFF 0 = .test ∧ vote 0xFFFF 0x1234 0xFFFF = .production ∧ vote 1 0xFFFFFFFF 0xFFFFFFFF = .endOfLife ∧
      vote 0 0xFF 0xFFFF = .locked ∧ vote 1 1 1 = .locked ∧ vote 0 1 2 = .locked ∧ vote 0 0 0 = .blank) := by decide +kernel

/-- The island's own events in states their conditions name: the vote at start-up, a challenge 1 s old, a session
600 s old, test mode's end. -/
theorem test_island_events_meet :
    after .otpVote { island := { otp := { copyA := 0xFF, copyB := 0xFF, wipeDone := true, sideDone := true } } } (fun h =>
      h.power.startUp == .voted && h.island.decoded == some .test) = true ∧
    after .challengeExpiry (atPt 1000000005 { hub with island := { hub.island with
      challenge := some { bytes := [], role := 1, partition := 0, pt := 5 } } }) (fun h => h.island.challenge.isNone) = true ∧
    after (.sessionIdleTimeout 2) (atPt 600000000000 hub) (fun h => (h.session 2).isNone && (h.session 1).isSome) = true ∧
    after .entropyFail challenged (fun h => h.island.entropyFail && h.island.drbg.isNone) = true ∧
    hub.island.testGate = false ∧
    after .testGateFall (withAgent 5 { powered := true, testMode := true } hub) (fun h => !(h.agent 5).testMode) = true := by
  decide +kernel

/-- Blank, with the Vendor's key burnt and one session: the conditions for Test (Table 17-3). -/
def blank : Hub := { inState .blank with island := { hub.island with
  decoded := some .blank, sessions := hub.island.sessions.drop 2
  otp := { vendor := { hash := List.replicate 48 0x33, sealed := true } } } }

theorem test_life_cycle_advance_meets :
    hub.admits 0x0C00 hdr = true ∧ blank.admits 0x0C01 vendorHdr = true ∧
    advanceTarget blank.island.decoded 1 = some .test ∧ blank.island.otp.vendor.sealed = true ∧
    blank.island.sessions.length ≤ 1 ∧
    after (.lifecycleAdvance vendorHdr 1 0x4C4353B9) blank (fun h =>
      h.slot.map (·.prog) == some .lifecycle && h.island.jobTarget == some .test && h.island.otp.sidePending &&
      h.island.otp.copyA == 0) = true ∧
    after (.lifecycleAdvance vendorHdr 1 0x4C4353B8) blank (fun h =>
      answered .badArg (badArgBody 4 0) h && h.slot.isNone && h.island.otp == blank.island.otp) = true := by decide +kernel

/-- LIFECYCLE_ADVANCE without the Vendor's key, after an entropy failure, and to a target that is none. -/
theorem test_life_cycle_refusals_meet :
    after (.lifecycleAdvance vendorHdr 1 0x4C4353B9) (withIsland { blank.island with otp := {} } blank)
      (answered .badState []) = true ∧
    after (.lifecycleAdvance vendorHdr 1 0x4C4353B9) (withIsland { blank.island with entropyFail := true } blank)
      (answered .badState []) = true ∧
    advanceTarget blank.island.decoded 2 = none ∧
    after (.lifecycleAdvance vendorHdr 2 0x4C4353B9) blank (answered .badArg (badArgBody 0 0)) = true := by decide +kernel

/-- Test, with the Operator's key burnt and a certificate: the conditions for Production; and from Production, the
Operator may end the chip's life. -/
theorem test_life_cycle_advances :
    after (.lifecycleAdvance vendorHdr 2 0x4C43ACB9) { blank with island := { blank.island with
      decoded := some .test, cert := some (List.replicate 272 0 ++ [0x87, 0xC0, 0xA5, 0x88]), otp := { blank.island.otp with
        operator := { hash := List.replicate 48 0x44, sealed := true } } } } (fun h =>
      h.island.jobTarget == some .production && !h.island.otp.wipePending) = true ∧
    after (.lifecycleAdvance hdr 3 0xB3BCACB9) { hub with island := { hub.island with sessions := hub.island.sessions.take 1 } }
      (fun h => h.island.jobTarget == some .endOfLife && h.island.otp.wipePending) = true := by decide +kernel

/-- ROLE_KEY_PROGRAM on a blank field, and on the one it has sealed. -/
theorem test_role_key_meets :
    blank.admits 0x0C02 vendorHdr = true ∧ blank.island.otp.keyBad = false ∧
    fit 48 (blank.island.otp.keyField .observer).hash = List.replicate 48 0 ∧
    after (.roleKeyProgram vendorHdr 1 (List.replicate 48 0x55)) blank (fun h =>
      h.island.otp.observer == { hash := List.replicate 48 0x55, sealed := true } &&
      h.island.otp.vendor == blank.island.otp.vendor) = true ∧
    after (.roleKeyProgram vendorHdr 3 (List.replicate 48 0x55)) blank (fun h =>
      answered .badState [] h && h.island.otp == blank.island.otp) = true := by decide +kernel

/-- REG_READ and REG_WRITE at the ends of a range, past it, and outside every range. -/
theorem test_register_ranges_meet :
    hub.admits 0x0E00 hdr = true ∧ testHub.admits 0x0E01 vendorHdr = true ∧
    regRange 0x0FFFC = some (0, 0x10000, none) ∧ regRange 0x10000 = some (0x10000, 0x20000, none) ∧
    regRange 0x30000 = none ∧ regRange 2 = none ∧ regRange 0x11000000 = none ∧
    after (.regRead hdr 0x30000 1) hub (answered .badArg (badArgBody 0 0)) = true ∧
    after (.regRead hdr 0x0FFFC 2) hub (answered .badArg (badArgBody 4 0)) = true ∧
    after (.regRead hdr 0 1025) hub (answered .badArg (badArgBody 4 0)) = true ∧
    after (.regWrite vendorHdr 0x100 [0xFFFFFFFF]) testHub (fun h => h.dcn.timeoutM1 == 63 && answered .ok [] h) = true ∧
    after (.regWrite vendorHdr 0x200 [0xFFFFFFFF]) testHub (fun h => h.trig.inCtrl == 15) = true ∧
    after (.regWrite vendorHdr 0x30000 [0]) testHub (answered .badArg (badArgBody 0 0)) = true ∧
    after (.regWrite vendorHdr 0x13FFC [0, 0]) testHub (answered .ok []) = true ∧
    after (.regWrite vendorHdr 0x2FFFC [0, 0]) testHub (answered .badArg (badArgBody 4 0)) = true := by decide +kernel

/-- A core that runs, with its replica of PARTITION loaded. -/
def running : Agent := { powered := true, replicaLoaded := true }

/-- The hub with core 5 of the West running. -/
def hub5 : Hub := withAgent 5 running hub

/-- Registers of an agent's window: SHADOW_KEEP and ARM_MASK of AGENT_CTRL (Table 5-5) are written and read back. -/
theorem test_agent_window_meets :
    unitHasAgent 5 = true ∧ (hub5.taken hdr).answers 5 = true ∧
    (inspectAll (Hub.inspectWord 5) (wordsOf 0 4) ⟨.done, [], hub5.taken hdr⟩).status = .done ∧
    (inspectAll (Hub.pokeWord [0xFF00] 0x200 5) (wordsOf 0x200 4) ⟨.done, [], hub5.taken hdr⟩).status = .done ∧
    after (.regRead hdr 0x1005000 1) hub5 (fun h => h.out.any fun o => match o with
      | .reply p => p.status == .ok && p.payload.length == 4
      | _ => false) = true := by decide +kernel

/-- A unit register of a core that runs is fenced (R124); a range that the agent has no register in reads zero. -/
theorem test_agent_window_is_fenced :
    (inspectAll (Hub.pokeWord [0] 0x800 5) (wordsOf 0x800 4) ⟨.done, [], hub5.taken hdr⟩).status = .fenced ∧
    testHub.admits 0x0E01 vendorHdr = true ∧
    after (.regWrite vendorHdr 0x1005800 [0]) (withIsland testHub.island hub5) (answered .badState []) = true := by decide +kernel

/-- FIRMWARE_WRITE: the first piece, the next one, and one out of order. -/
theorem test_firmware_write_meets :
    hub.admits 0x0D00 hdr = true ∧ hub.admits 0x0D01 hdr = true ∧
    after (.firmwareWrite hdr 0 4 0 [1, 2]) hub (fun h =>
      h.power.fwPart == some { session := 1, total := 4, bytes := [1, 2] } && answered .ok [] h) = true ∧
    after (.firmwareWrite hdr 2 4 0 [3, 4]) { hub with power := { hub.power with
      fwPart := some { session := 1, total := 4, bytes := [1, 2] } } } (fun h =>
        h.power.fwPart == some { session := 1, total := 4, bytes := [1, 2, 3, 4] }) = true ∧
    after (.firmwareWrite hdr 3 4 1 [3]) { hub with power := { hub.power with
      fwPart := some { session := 1, total := 4, bytes := [1, 2] } } } (fun h =>
        h.power.fwPart.isNone && answered .badArg (badArgBody 0 0) h) = true := by decide +kernel

/-- FIRMWARE_WRITE: another length than the load's, and a last piece that is no image. -/
theorem test_firmware_refusals_meet :
    after (.firmwareWrite hdr 2 5 0 [3, 4]) { hub with power := { hub.power with
      fwPart := some { session := 1, total := 4, bytes := [1, 2] } } } (answered .badArg (badArgBody 4 0)) = true ∧
    firmwarePasses [1, 2, 3, 4] = false ∧ (([1, 2, 3, 4] : List Byte).take 8 == ascii "IXYCERT1") = false ∧
    after (.firmwareWrite hdr 0 4 1 [1, 2, 3, 4]) hub (answered .badArg (badArgBody noOffset 0)) = true := by decide +kernel

/-- Start-up: an image that passes and one that does not; enumeration under a grant; Ready. -/
theorem test_start_up_meets :
    ({ power := { startUp := .voted } } : Hub).imagePasses = true ∧
    ({ power := { startUp := .voted, imageGood := false } } : Hub).imagePasses = false ∧
    after .romVerification { power := { startUp := .voted } } (fun h => h.power.startUp == .verified &&
      [2, 3, 18, 4, 5].all fun d => h.domainOn d) = true ∧
    after .romVerification { power := { startUp := .voted, imageGood := false } } (fun h => h.power.startUp == .recovery) = true ∧
    after .dcnEnumeration { hub5 with power := { hub.power with startUp := .granted }, island := { hub.island with
      otp := { repair := [3, 1956] } } } (fun h => h.power.startUp == .enumerated && h.ident.retired == [3] &&
        !(h.agent 5).unreachable) = true ∧
    after .dcnEnumeration { hub5 with power := { hub.power with startUp := .granted }, island := { hub.island with
      otp := { repair := [5] } } } (fun h => h.ident.retired == [5] && !(h.agent 5).powered && h.out == [.unitPower 5 false]) = true ∧
    after .dcnEnumeration { hub5 with power := { hub.power with startUp := .voted } } (fun h => h.power.startUp == .voted) = true ∧
    hub.accepting = true ∧ hub.tracing = false ∧
    after .ready { hub with power := { hub.power with startUp := .enumerated }, port := { energy := true } }
      (fun h => h.takesPackets && h.port.lane == .training && h.domainOn 16) = true ∧
    after .ready { hub with power := { hub.power with startUp := .enumerated } } (fun h => h.takesPackets) = true := by
  decide +kernel

/-- An image goes into the free blocks of the lowest counts, and DIR_SEQ goes on (R339, R340, R418); a damaged block is worn
at once, with an event. -/
theorem test_firmware_flash :
    let a := hub.writeFirmware 65537
    let b := (a.2.writeFirmware 1)
    let bad := { hub with power.fw := { bad := [66] } }.writeFirmware 65536
    (a.1, a.2.power.fw.blocks, a.2.power.fw.dirSeq, a.2.power.fw.erases) = (true, [66, 67], 1, [(1, 1), (66, 1), (67, 1)]) ∧
    (b.1, b.2.power.fw.blocks, b.2.power.fw.dirSeq) = (true, [2], 2) ∧
    (bad.1, bad.2.power.fw.blocks, bad.2.power.fw.worn, (bad.2.fc.source 0xFE9).count) = (true, [67], [66], 1) := by
  decide +kernel

/-! ### Packets, frames, TAP -/

/-- The CRC-32C of the nine digits, which ch. 16 gives as a check value. -/
theorem test_crc32c : crc32c (ascii "123456789") = 0xE3069283 := by decide +kernel

/-- The header of the HANG_STOP example of ch. 16, its payload's 14 octets, and the frame's length. -/
def hangStopPacket : List Byte :=
  [0x01, 0x00, 0x01, 0x03, 0x44, 0x00, 0x00, 0x00, 0x0E, 0x00, 0x00, 0x00, 0x03, 0x00, 0x17, 0x5A] ++ List.replicate 14 0

def exampleHdr : Hdr := { sequence := 0x44, session := 0x5A170003 }

/-- The example packet spells the chip-scope HANG_STOP with T 0 that the text says, and it meets what a good packet must. -/
theorem test_hang_stop_example :
    (parseHeader hangStopPacket).hdr = exampleHdr ∧ (parseHeader hangStopPacket).opcode = 0x0301 ∧
    (parseHeader hangStopPacket).bad 30 = false ∧ bit (parseHeader hangStopPacket).flags 0 = false ∧
    16 ≤ hangStopPacket.length ∧ hub.transport = .jtag ∧
    ((payloadOf 0x0301 exampleHdr).map fun p => match parsePayload p (hangStopPacket.drop 16) with
      | .ok i => i == .hangStop exampleHdr 0 0 ⟨0, 0, []⟩
      | .error _ => false) = some true := by decide +kernel

/-- On the other transport a packet has no effect but DPT_DISCARD. -/
theorem test_unselected_transport :
    after (.packetReceived .dpt hangStopPacket) hub (fun h => h.out == [] && h.stops == hub.stops) = true ∧
    after (.packetReceived .jtag hangStopPacket) { hub with port := { lane := .up } } (fun h =>
      h.tap.dptDiscard && h.out == []) = true := by decide +kernel

/-- IDENTIFY with an octet too many, an opcode that is none, and DUMP_REGION_SET whose payload is too short. -/
theorem test_malformed_packets :
    let short : List Byte := [1, 0, 0x00, 0x04, 7, 0, 0, 0, 1, 0, 0, 0, 1, 0, 0, 0, 0]
    let none' : List Byte := [1, 0, 0xFF, 0x0F, 7, 0, 0, 0, 0, 0, 0, 0, 1, 0, 0, 0]
    let long : List Byte := [1, 0, 0x00, 0x00, 7, 0, 0, 0, 0, 0, 0, 0, 1, 0, 0, 0, 9]
    hub.takesPackets = true ∧ hub.earlyVerdict 0x0400 1 = none ∧ payloadOf 0x0FFF hdr = none ∧
    (parseHeader long).bad 17 = true ∧ (parseHeader short).bad 17 = false ∧ hub.admits 0x0400 hdr = true ∧
    ((payloadOf 0x0400 hdr).map fun p => match parsePayload p (short.drop 16) with
      | .ok _ => false
      | .error _ => true) = some true ∧
    after (.packetReceived .jtag none') hub (answered .badArg (badArgBody noOffset 0)) = true ∧
    after (.packetReceived .jtag long) hub (answered .badArg (badArgBody noOffset 0)) = true ∧
    after (.packetReceived .jtag short) hub (fun h => h.dump == hub.dump && h.out.length == 1) = true := by decide +kernel

/-- The rows of Table 16-4 before a command's own: BUSY, DISCARDED, SAFE_STATE, DENIED; each in turn. -/
theorem test_refusals_meet :
    let busy := { hub with slot := some { opcode := 0x0401, hdr := hdr, transport := .jtag, startPt := 0, prog := .stop } }
    let due := { hub with discards := [(1, 0x1234, 0x0401), (2, 1, 2)] }
    let safe := { hub with fc := { safe := true } }
    busy.takesPackets = true ∧ (Instr.timeGet hdr).packet = some (0x0200, hdr) ∧
    after (.timeGet hdr) busy (answered .busy []) = true ∧
    after (.timeGet hdr) due (fun h => answered .discarded [0x34, 0x12, 0x01, 0x04] h && h.discards == [(2, 1, 2)]) = true ∧
    after (.timeGet hdr) safe (answered .safeState []) = true ∧
    after (.safeRecordGet hdr) safe (fun h => !answered .safeState [] h) = true ∧
    after (.chipIdSet vendorHdr 1) hub (fun h => answered .denied [] h && !h.ident.assigned) = true := by decide +kernel

/-- A frame (Table 16-1). -/
def frame (ftype : Byte) (fseq ack : Nat) (payload : List Byte) : List Byte :=
  let b := [ftype, 0] ++ le 2 fseq ++ le 2 ack ++ le 2 payload.length ++ payload
  b ++ le 4 (crc32c b).toNat

/-- Lane Up, the next frame expected is 0xFFFF. -/
def laneUp : Hub := { hub with port := { lane := .up, expectFseq := 0xFFFF, nextFseq := 5, lastFramePt := 0 } }

/-- The example's frame is 42 octets with LEN 30; it is taken, the number wraps, and its packet is refused, there being
no such session. -/
theorem test_data_frame_meets :
    (frame 1 0xFFFF 5 hangStopPacket).length = 42 ∧
    (parseFrame (frame 1 0xFFFF 5 hangStopPacket)).map (fun f => (f.ftype, f.fseq, f.crcGood, f.payload.length)) =
      some (1, 0xFFFF, true, 30) ∧
    after (.dataFrame (frame 1 0xFFFF 5 hangStopPacket)) laneUp (fun h => h.port.expectFseq == 0 &&
      h.out.any fun o => match o with | .frame b => b.take 4 == [1, 0, 5, 0] && b.getD 14 0 == 2 | _ => false) = true := by decide +kernel

/-- Another number is answered with a NAK, once each 10 us; a bad CRC is counted too. -/
theorem test_frame_out_of_order_meets :
    after (.dataFrame (frame 1 3 5 hangStopPacket)) laneUp (fun h => h.out == [.frame (frame 3 0 0xFFFF [])] && h.port.naks == 1 &&
      h.port.expectFseq == 0xFFFF) = true ∧
    after (.dataFrame (frame 1 3 5 hangStopPacket)) { laneUp with port := { laneUp.port with nakPt := some (40000000 - 9999) } }
      (fun h => h.out == []) = true ∧
    after (.dataFrame ((frame 1 0xFFFF 5 hangStopPacket).dropLast ++ [0])) laneUp (fun h =>
      h.out == [.frame (frame 3 0 0xFFFF [])] && h.port.crc == 1) = true ∧
    after (.dataFrame (frame 1 3 5 hangStopPacket)) { laneUp with port := { laneUp.port with nakPt := some (40000000 - 10000) } }
      (fun h => h.out == [.frame (frame 3 0 0xFFFF [])]) = true ∧
    after (.dataFrame (frame 1 0xFFFF 5 [1, 2])) { laneUp with power := { hub.power with domains := 0x18003 } } (fun h =>
      h.port.errors == 1 && h.port.expectFseq == 0 && h.domainOn 2 && h.domainOn 3) = true := by decide +kernel

/-- One frame of the tests that waits for its acknowledgement. -/
def txFrame (n : W16) (resends : Nat) : TxFrame := {
  fseq := n, packet := { more := false, opcode := 0, sequence := 0, status := .ok, session := 0, payload := [] }
  resends := resends, sentPt := 0 }

def sending : Hub := { laneUp with port := { laneUp.port with unacked := [txFrame 3 0, txFrame 4 15], ackDue := some 39998000 } }

/-- ACK and NAK that name frame 4; the acknowledgement due 2 us after a frame; the resend after 50 us. -/
theorem test_acks_meet :
    after (.ackFrame (frame 2 0 4 [])) sending (fun h => h.port.unacked == [txFrame 4 15]) = true ∧
    after (.nakFrame (frame 3 0 4 [])) sending (fun h => h.port.unacked.map (·.resends) == [16] && h.port.resends == 1 &&
      h.out.length == 1) = true ∧
    after (.nakFrame (frame 3 0 4 [])) { sending with port := { sending.port with waiting := [(txFrame 9 0).packet] } } (fun h =>
      (h.port.unacked.map fun f => (f.fseq, f.resends)) == [(4, 16), (5, 0)] && h.port.resends == 1) = true ∧
    after (.ackFrame (frame 2 1 4 [])) sending (fun h => h.port.unacked == sending.port.unacked && h.port.naks == 1) = true ∧
    after .ackTimer sending (fun h => h.out == [.frame (frame 2 0 0xFFFF [])] && h.port.ackDue.isNone) = true ∧
    sending.port.waiting = [] ∧ max (txFrame 3 0).sentPt sending.port.ackPt + 50000 ≤ sending.pt ∧
    after .resendTimeout sending (fun h => h.port.resends == 2 && h.out.length == 2) = true := by decide +kernel

/-- The lane's states, each at the time its condition names. -/
theorem test_lane_meets :
    let training := atPt 250000000 { hub with port := { lane := .training } }
    let up := { laneUp with island := { laneUp.island with sessions := [
      { tag := 9, role := .operator, partition := 0, transport := .dpt, soundKey := [], lastPt := 0 }] } }
    let stuck := { up with port := { up.port with unacked := [txFrame 3 16] } }
    let quiet := { up with port := { up.port with unacked := [txFrame 3 0], ackPt := 30000000 } }
    after .signalDetect hub (fun h => h.port.lane == .training) = true ∧
    after .signalDetect { hub with power := { hub.power with startUp := .voted } } (fun h => h.port.lane == .off && h.port.energy) = true ∧
    after .signalDetect { hub with power := { hub.power with startUp := .powerGood } } (fun h => h.port.energy) = false ∧
    after .trainingComplete training (fun h => h.port.lane == .up && h.island.sessions == []) = true ∧
    after .trainingComplete (atPt 250000001 training) (fun h => h.port.lane == .off) = true ∧
    after .trainingTimeout training (fun h => h.port.lane == .off && !h.domainOn 16) = true ∧
    after .blockLockLoss up (fun h => h.port.lane == .training && h.port.retrains == 1 && h.island.sessions == []) = true ∧
    after .blockLockLoss training (fun h => h.port.lane == .training) = true ∧
    after .linkRetrainRequest stuck (fun h => h.port.lane == .training && h.port.unacked == []) = true ∧
    after .linkRetrainRequest quiet (fun h => h.port.lane == .training) = true ∧
    after .laneIdleTimeout (atPt 10000000000 { laneUp with island := { laneUp.island with sessions := [] } }) (fun h =>
      h.port.lane == .off && !h.domainOn 15) = true := by decide +kernel

/-- The words of a TIME_GET packet on the TAP: four header words and the CRC over them. -/
def timeGetWords : List W32 := [0x02000001, 0x00000007, 0, 1]

def timeGetCrc : W32 := crc32c (timeGetWords.flatMap fun w => le 4 w.toNat)

/-- Four words of the packet are in. -/
def shifted : Hub := { hub with tap := { rx := timeGetWords } }

theorem test_tap_meets :
    hub.tapUsable = true ∧ ({} : Hub).tapUsable = false ∧ tapInstr 0x21 = .icpStatus ∧ tapInstr 0x20 = .icpData ∧
    tapInstr 0x01 = .idcode ∧ tapInstr 0xFF = .bypass ∧ tapInstr 0x00 = .bypass ∧
    after .testLogicReset { shifted with tap := { shifted.tap with ir := 9, halted := true } } (fun h =>
      h.tap.ir == 0x01 && h.tap.rx == [] && !h.tap.halted) = true ∧
    after (.icpDataUpdate (some 0x21) none) hub (fun h => h.out == [.tdo 8 1] && h.tap.ir == 0x21) = true ∧
    after .icpStatusCapture { hub with tap := { ir := 0x21, crcErr := true, overrun := true } } (fun h =>
      h.out == [.jtagStatus 0x99] && !h.tap.crcErr) = true ∧
    after .icpStatusCapture hub (fun h => h.out == [.tdo 32 0x090014C3]) = true ∧
    after .icpStatusCapture { hub with tap := { ir := 2 } } (fun h => h.out == [.tdo 1 0]) = true ∧
    after .icpStatusCapture {} (fun h => h.out == []) = true ∧
    after (.icpDataUpdate (some 0x21) (some ⟨true, 5⟩)) {} (fun h => h.out == [] && h.tap.ir == 1) = true ∧
    after .replyAbandoned (atPt 1000000000 { hub with tap := { tx := [1], fullSince := some 0 } }) (fun h =>
      h.tap.abandoned && h.tap.tx == []) = true := by decide +kernel

/-- A hub with ICP_DATA selected. -/
def dataSelected (h : Hub) : Hub := { h with tap := { h.tap with ir := 0x20 } }

theorem test_icp_data_meets :
    after (.icpDataUpdate (some 0x20) (some ⟨false, 5⟩)) { hub with tap := { tx := [1, 2] } } (fun h =>
      h.out == [.tdo 8 1, .jtag true 1] && h.tap.tx == [2]) = true ∧
    after (.icpDataUpdate none (some ⟨false, 5⟩)) (dataSelected hub) (fun h => h.out == [.jtag false 0] && h.tap.rx == []) = true ∧
    after (.icpDataUpdate none (some ⟨true, 5⟩)) hub (fun h => h.out == [.tdo 32 0x090014C3] && h.tap.rx == []) = true ∧
    after (.icpDataUpdate none (some ⟨true, 5⟩)) (dataSelected { hub with power := { hub.power with startUp := .enumerated } }) (fun h =>
      h.tap.overrun && h.tap.halted) = true ∧
    after (.icpDataUpdate none (some ⟨true, 5⟩)) (dataSelected { hub with tap := { halted := true } }) (fun h =>
      h.tap.rx == [] && h.tap.halted) = true ∧
    hub.rxReady = true ∧ jtagLength [5] ≠ some 1 ∧
    after (.icpDataUpdate none (some ⟨true, 5⟩)) (dataSelected hub) (fun h => h.tap.rx == [5] && !h.tap.halted) = true := by decide +kernel

/-- The packet's last word is its CRC: right, the packet runs; wrong, the input halts. -/
theorem test_jtag_packet_meets :
    jtagLength (timeGetWords ++ [0]) = some 5 ∧ shifted.transport = .jtag ∧ shifted.rxReady = true ∧
    after (.icpDataUpdate none (some ⟨true, timeGetCrc⟩)) (dataSelected shifted) (fun h => h.tap.rx == [] && !h.tap.halted &&
      answered .ok ([0x00, 0x5A, 0x62, 0x02, 0, 0, 0, 0] ++ [1, 1]) h) = true ∧
    after (.icpDataUpdate none (some ⟨true, timeGetCrc + 1⟩)) (dataSelected shifted) (fun h => h.tap.crcErr && h.tap.halted && h.tap.rx == []) = true ∧
    after (.icpDataUpdate none (some ⟨true, timeGetCrc⟩)) (dataSelected { shifted with port := { lane := .up } }) (fun h =>
      h.tap.dptDiscard && h.tap.rx == []) = true := by
  decide +kernel

/-! ### I3C and the bench pins -/

/-- The direct CCCs on a hub whose first image exists. -/
theorem test_ccc_meets :
    hub.power.startUp ≠ .powerGood ∧ hub.i3c.dynAddr = none ∧
    after (.entdaa 0x08) hub (fun h => h.i3c.dynAddr == some 0x08) = true ∧
    after (.setdasa 0x7F) hub (fun h => h.i3c.dynAddr == some 0x7F) = true ∧
    after .rstdaa { hub with i3c := { dynAddr := some 9, ibiEnabled := true, ibi := some 1 } } (fun h =>
      h.i3c.dynAddr.isNone && !h.i3c.ibiEnabled) = true ∧
    after .enec hub (fun h => h.i3c.ibiEnabled) = true ∧
    after .disec { hub with i3c := { ibiEnabled := true, ibi := some 1 } } (fun h => h.i3c.ibi.isNone) = true ∧
    after .getstatus { hub with i3c := { ibi := some 1, protocolError := true } } (fun h => h.out == [.i3c [0, 0x21]]) = true ∧
    after (.entdaa 8) { hub with i3c := { dynAddr := some 9 } } (fun h => h.i3c.dynAddr == some 9) = true ∧
    after .getbcr hub (fun h => h.out == [.i3c [0x06]]) = true ∧ after .getdcr hub (fun h => h.out == [.i3c [0]]) = true ∧
    after .getmwl hub (fun h => h.out == [.i3c [0, 2]]) = true ∧ after .getmrl hub (fun h => h.out == [.i3c [0, 64]]) = true := by
  decide +kernel

/-- Reads and writes of the image at its last octet; the wake write; a new image after 1 ms, whose IBI names SAFE. -/
theorem test_i3c_image_meets :
    hub.i3cActive = true ∧
    after (.i3cPrivateRead 1) { hub with i3c := { index := 0x27, image := List.replicate 39 0 ++ [0xAB] } } (fun h =>
      h.out == [.i3c [0xAB]] && h.i3c.index == 0x28) = true ∧
    after (.i3cPrivateRead 2) { hub with i3c := { index := 0x27, image := List.replicate 39 0 ++ [0xAB] } } (fun h =>
      h.out == [.i3c [0xAB, 0]] && h.i3c.index == 0x29) = true ∧
    after (.i3cPrivateWrite ⟨[0xFF], true⟩) hub (fun h => h.i3c.index == 0xFF) = true ∧
    after (.i3cPrivateWrite ⟨[0x60, 0x02], true⟩) hub (fun h => h.i3c.index == 0) = true ∧
    after (.i3cPrivateWrite ⟨[0xFF], false⟩) hub (fun h => h.i3c.index == 0 && h.i3c.protocolError) = true ∧
    after .wake { hub with power := { hub.power with domains := 1 } } (fun h => [2, 3, 4, 5, 18].all fun d => h.domainOn d) = true ∧
    after (.i3cPrivateWrite ⟨[0x60, 0x01], true⟩) { hub with power := { hub.power with domains := 1 } } (fun h =>
      [2, 3, 4, 5, 18].all fun d => h.domainOn d) = true ∧
    after .imageSnapshot { hub with
      fc := { safe := true }, i3c := { ibiEnabled := true, imagePt := 39000000, image := List.replicate 40 0 } } (fun h => h.i3c.image.take 4 == [1, 9, 0, 0] && h.i3c.ibi == some 8) = true ∧
    after .ibiAccepted { hub with i3c := { ibi := some 8 } } (fun h => h.out == [.ibi 8] && h.i3c.ibi.isNone) = true := by
  decide +kernel

/-- A rising edge at the least widths, awake and asleep, and one less than 1 us after the one before. -/
theorem test_pod_trigger_meets :
    let asleep := { hub with power := { hub.power with domains := 1 } }
    let early := { hub with trig := { inCount := 1, inPt := 40000000 - 999 } }
    hub.edgeCounts 20 20 = true ∧ asleep.edgeCounts 80 80 = true ∧ asleep.edgeCounts 79 80 = false ∧
    hub.edgeEarly = false ∧ early.edgeEarly = true ∧ asleep.asleep = true ∧ hub.asleep = false ∧
    after (.podTrigInEdge 80 80) asleep (fun h => h.trig.inCount == 1 && h.trig.inPt == 40000000) = true ∧
    after (.podTrigInEdge 20 20) hub (fun h => h.trig.inCount == 1) = true ∧
    hub.canIssue = true ∧ hub.inBlankOrTest = false ∧
    after (.podTrigInEdge 20 20) { hub with trig := { inCtrl := 8 } } (fun h => h.trig.inDenied == 1 && h.stops == {}) = true ∧
    after (.podTrigInEdge 20 20) { hub with power := { hub.power with startUp := .enumerated } } (fun h => h.trig == {}) = true ∧
    after (.podTrigInEdge 19 20) hub (fun h => h.trig == {}) = true ∧
    after (.podTrigOutPulse 7) { asleep with trig := { outCtrl := 0x80 } } (fun h => h.out == []) = true ∧
    after (.podTrigInEdge 20 20) early (fun h => h.trig.inCount == 1 && h.trig.inOverrun == 1) = true ∧
    after (.podTrigOutPulse 7) { hub with trig := { outCtrl := 0x80 }, fc := { safe := true, safePt := 39999995 } } (fun h => h.trig.outUntil == 40000100 &&
      h.trig.outCount == 1 && h.out == [.pulse]) = true ∧
    after (.podTrigOutPulse 0) { hub with trig := { outCtrl := 1, outUntil := 40000001 }, stops := { standing := [(40000005, .chip, [])] } } (fun h =>
      h.trig.outUntil == 40000100 && h.trig.outCount == 0) = true ∧
    after (.podTrigOutPulse 0) { hub with trig := { outCtrl := 1 }, stops := { standing := [(40000006, .chip, [])] } } (fun h =>
      h.trig.outUntil == 0) = true := by decide +kernel

/-! ### Fault collector -/

/-- FAULT_CONFIG of a source at the bounds of N and W, of a fixed source's taint, and three bad fields. -/
theorem test_fault_config_meets :
    hub.admits 0x0900 hdr = true ∧
    entriesFault 2 [⟨0xFA4, 15, 42, 4, 1⟩, ⟨0xFA5, 0, 0, 4, 1⟩] = none ∧
    entriesFault 2 [⟨0xFA4, 15, 42, 4, 1⟩, ⟨0xFA4, 16, 42, 4, 1⟩] = some 10 ∧
    entryFault ⟨0xFA4, 0, 9, 1, 0⟩ = some 3 ∧ entryFault ⟨0xFFF, 0, 10, 1, 0⟩ = some 0 ∧
    after (.faultConfig hdr [⟨0xFA4, 15, 42, 4, 1⟩]) hub (fun h => h.fc.cfg 0xFA4 == 0x32AF && answered .ok [] h) = true ∧
    after (.faultConfig hdr [⟨0xFA4, 15, 42, 4, 1⟩, ⟨0xFA4, 16, 42, 4, 1⟩]) hub (fun h =>
      answered .badArg (badArgBody 10 0) h && h.fc == hub.fc) = true ∧
    sourceRow 0xFFF = none ∧ sourceRow 0xFA4 ≠ none ∧ after (.fcCfgWrite 0xFA4 0xFFFFFFFF) hub (fun h => h.fc.cfg 0xFA4 == 0x3FFF) = true ∧
    after (.fcCfgWrite 0xFA5 0xFFFFFFFF) hub (fun h => h.fc.cfg 0xFA5 == 0x30A0) = true := by decide +kernel

/-- VDD_AO warnings: three of the four that its default asks for have come. -/
def warned : Hub := { hub with fc := { sources := [(0xFA4, { count := 3, times := [39999000, 39999500, 39999990] })] } }

/-- A record of VDD_AO, open, of one event. -/
def vddRecord : FaultRec := {
  slot := 0, seq := 1, source := 0xFA4, unit := 0, configured := 1, performed := 1, n := 4, wexp := 30, data := 0
  firstPt := 39999000, severePt := 39999000, originPt := 39999000, epoch := 0 }

/-- The events of an ordinary source: one of four, the fourth with no record, and the fourth with an unread one. -/
theorem test_events_meet :
    (sourceRow 0xFA4).map (fun r => (r.fixed, r.dataPath)) = some (false, false) ∧ warned.fc.safe = false ∧
    warned.fc.windowFor warned.pt 0xFA4 = none ∧ cfgTaint (warned.fc.cfg 0xFA4) = false ∧ cfgN (warned.fc.cfg 0xFA4) = 4 ∧
    (sourceRow 0xFA4).map (fun r => cfgReaction r (warned.fc.cfg 0xFA4)) = some 1 ∧ warned.fc.slotFor.isSome = true ∧
    40000000 - 39999000 < 2 ^ cfgWexp (warned.fc.cfg 0xFA4) ∧
    after (.faultEvent 0xFA4 0 0 none) hub (fun h => (h.fc.source 0xFA4).times == [40000000] && h.fc.records == []) = true ∧
    after (.faultEvent 0xFA4 0 9 none) warned (fun h => (h.fc.source 0xFA4).times == [] && h.fc.nextSeq == 2 &&
      h.fc.records.any fun q => q.seq == 1 && q.firstPt == 39999000 && q.severePt == 40000000 && q.data == 9 && q.handling) =
        true ∧
    after (.faultEvent 0xFA4 0 9 none) { warned with fc := { warned.fc with records := [vddRecord], nextSeq := 2 } } (fun h =>
      h.fc.nextSeq == 2 && h.fc.records == [{ vddRecord with repeats := 1 }]) = true := by decide +kernel

/-- The hub's warnings with a reaction configured. -/
def warnedWith (reaction : Nat) (taint : Bool) : Hub :=
  { warned with fc := warned.fc.writeCfg 0xFA4 (cfgWord 3 30 reaction taint) }

/-- Four events within W: with no reaction, with the safe state, and with a taint notice; four not within W; and events that a
window holds or a record of the data path merges. -/
theorem test_events_by_reaction_meet :
    (sourceRow 0xFA4).map (·.allowed) = some [0, 1, 4] ∧
    after (.faultEvent 0xFA4 0 9 none) (warnedWith 0 false) (fun h => (h.fc.source 0xFA4).times == [] && h.fc.records == []) =
      true ∧
    after (.faultEvent 0xFA4 0 9 none) (warnedWith 4 false) (fun h => h.fc.safe && h.fc.safeRecord.isSome) = true ∧
    after (.faultEvent 0xFA4 0 9 none) (warnedWith 1 true) (fun h => h.fc.records.length == 1 && h.fc.heldTaints.length == 1) =
      true ∧
    after (.faultEvent 0xFA4 0 9 none) (atPt (39999000 + 2 ^ 30) warned) (fun h => h.fc.records == [] &&
      (h.fc.source 0xFA4).times.length == 4) = true ∧
    after (.faultEvent 0x800 0 0 none) { hub with fc := { windows := [
        { record := none, unit := 5, hangStop := false, openPt := 40000000, lengthNs := 10000 }] } } (fun h =>
      (h.fc.source 0x800).count == 1 && (h.fc.source 0x800).times == []) = true ∧
    (sourceRow 5).map (·.dataPath) = some true ∧
    after (.faultEvent 5 5 0 none) { hub with fc := { records := [vddRecord], nextSeq := 2 } } (fun h =>
      h.fc.records.map (·.merged) == [1]) = true := by decide +kernel

/-- One event of a fixed source enters the safe state; in it an event opens no record. -/
theorem test_safe_state_meets :
    (sourceRow 0xFA5).map (·.fixed) = some true ∧
    after (.faultEvent 0xFA5 0 0 none) { hub with probe := { slots := [(0, { state := .running })] } } (fun h =>
      h.fc.safe && h.fc.safePt == 40000000 && h.fc.safeRecord.map (fun q => (q.slot, q.source, q.performed)) == some (64, 0xFA5, 4)
        && h.probe.slots.all (fun p => !p.2.state.active) &&
        h.out.any fun o => match o with | .bcast b => b.cls == 7 | _ => false) = true ∧
    after (.faultEvent 0xFA4 0 0 none) { warned with fc := { warned.fc with safe := true } } (fun h =>
      h.fc.safeEvents == 1 && h.fc.records == []) = true := by decide +kernel

/-- Supply warnings of the first and the last domain and of VDD_AO, its reset level, and an access outside the regions. -/
theorem test_monitors_meet :
    hub.domainOn 2 = true ∧ hub.domainOn 20 = true ∧ hub.inRegions 0 64 0 = false ∧
    after (.supplyExcursion 2 704 100 true) hub (fun h => (h.fc.source 0xFA6).count == 1 &&
      (mapGet {} h.power.excursions 2).ongoing) = true ∧
    after (.supplyExcursion 20 0 100 false) hub (fun h => (h.fc.source 0xFB8).count == 1) = true ∧
    after (.supplyExcursion 1 704 100 false) hub (fun h => (h.fc.source 0xFA4).count == 1 && h.i3c.excursions == 1) = true ∧
    after (.vddAoResetLevel 674) hub (fun h => h.fc.safe && (h.fc.source 0xFA5).count == 1) = true ∧
    after (.supplyExcursion 2 704 100 false) { hub with power := { hub.power with excursions := [(2, { ongoing := true })] } }
      (fun h => (h.fc.source 0xFA6).count == 0 && h.power.excursions == []) = true ∧
    ({ hub with trace := { base := 0x10000, size := 0x10000, isSet := true } } : Hub).inRegions 0x1FFC0 64 0 = true ∧
    ({ hub with trace := { base := 0x10000, size := 0x10000, isSet := true } } : Hub).inRegions 0x1FFC1 64 0 = false ∧
    after (.portConfinement .east ⟨0, 64, 0⟩) hub (fun h => (h.fc.source 0xFC0).count == 1 && h.ctl.confineEast == 1 &&
      h.ctl.confineWest == 0) = true := by decide +kernel

def withRecord : Hub := { hub with fc := { records := [vddRecord], nextSeq := 2 } }

/-- FAULT_READ, FAULT_ACK, FAULT_INJECT and the ageing of a record, each at its time. -/
theorem test_fault_records_meet :
    ([0x0901, 0x0902, 0x0903].all fun c => hub.admits c hdr) = true ∧ testHub.admits 0x0904 vendorHdr = true ∧
    after (.faultAck hdr [1, 9]) withRecord (fun h => answered .ok [0, 0] h && h.fc.records.all (·.read)) = true ∧
    after (.faultRead hdr 1 0) withRecord (answered .ok vddRecord.bytes) = true ∧ vddRecord.bytes.length = 64 ∧
    after (.faultRead hdr 2 1) withRecord (answered .ok []) = true ∧
    after (.faultInject vendorHdr 0xFA4 0 5) testHub (fun h => answered .ok [] h && (h.fc.source 0xFA4).count == 1) = true ∧
    after (.faultInject vendorHdr 0xFFF 0 5) testHub (answered .badArg (badArgBody 0 0)) = true ∧
    unitValid 0x7FFF = false ∧ after (.faultInject vendorHdr 0xFA4 0x7FFF 5) testHub (answered .badArg (badArgBody 2 0)) = true ∧
    after (.faultInject vendorHdr 0xFA5 0 5) testHub (fun h => h.fc.safe && h.slot.isNone && answered .safeState [] h) = true ∧
    after (.faultCleared 0xFBD) { hub with fc := { fixedPresent := [0xFA5, 0xFBD] } } (fun h => h.fc.fixedPresent == [0xFA5]) =
      true ∧
    after (.notifyTimeout 1) (atPt 40999000 withRecord) (fun h => h.fc.records.all fun r => !r.handling) = true ∧
    after .reactionWindowClose { hub with fc := { windows := [
        { record := some 1, unit := 0, hangStop := false, openPt := 39950000, lengthNs := 50000 },
        { record := some 2, unit := 0, hangStop := false, openPt := 39950001, lengthNs := 50000 }] } } (fun h =>
      h.fc.windows.map (·.record) == [some 2]) = true ∧
    lineSource 0xFA4 = true ∧ 0xFA4 ∉ withRecord.fc.linesHigh ∧
    after (.faultCleared 0xFA4) withRecord (fun h => h.fc.records.all (·.cleared)) = true ∧
    after (.faultCleared 5) (atPt (39999000 + 2 ^ 30) { hub with fc := { records := [{ vddRecord with source := 5 }] } })
      (fun h => h.fc.records.all (·.cleared)) = true := by decide +kernel

/-- A notice that is decided and not yet sent. -/
def taint : Taint := {
  origin := 0, epochStale := false, merged := false, held := false, epoch := 3, earliest := 9, source := 5, unit := 5
  decidedPt := 39999000 }

theorem test_taints_meet :
    let h1 := { assigned with fc := { taints := [taint], dests := [1, 2] } }
    hub.admits 0x0905 hdr = true ∧ hub.admits 0x0906 hdr = true ∧ h1.taintFree = true ∧ h1.taintDue taint = true ∧
    after (.taintDestSet hdr [4, 3, 2, 1]) assigned (fun h => [1, 2, 3, 4].all (fun c => h.fc.dests.contains c) &&
      h.fc.dests.length == 4) = true ∧
    after (.taintEpochSet hdr 7) hub (fun h => h.fc.epoch == 7 && h.fc.epochPt == 40000000 && h.fc.hasPrev &&
      answered .ok [0x00, 0x5A, 0x62, 0x02, 0, 0, 0, 0] h) = true ∧
    after (.taintDestSet hdr [4, 0x3FFF]) assigned (answered .badArg (badArgBody 4 0)) = true ∧
    after .taintSend h1 (fun h => h.out.length == 2 && h.fc.taints == [] && h.fc.noticeSeq == 1) = true ∧
    after .taintSend { hub with fc := { taints := [taint], heldTaints := List.replicate 16 taint } } (fun h =>
      h.fc.taints == [] && h.fc.heldTaints.length == 16) = true := by decide +kernel

theorem test_unit_retire_meets :
    retirable 5 = true ∧ retirable 0x4000 = false ∧ after (.unitRetire hdr 0x4000) hub (answered .badArg (badArgBody 0 0)) = true ∧
    hub.presence 5 = 2 ∧ after (.unitRetire hdr 5) hub (answered .ok [0, 0, 0, 0, 0]) = true ∧ hub5.retired 5 = false ∧ hub5.admits 0x0907 hdr = true ∧
    hub5.presence 5 = 0 ∧
    after (.unitRetire hdr 5) hub5 (fun h => h.retired 5 && h.ident.retiredGen == 1 && h.out.contains (.unitPower 5 false) &&
      h.slot.map (·.prog) == some (.retire 5)) = true ∧
    after (.unitRetire hdr 5) (withAgent 5 { running with state := .stopped } hub) (fun h =>
      h.fc.pendingRetire == [5] && !h.retired 5 && answered .ok [0, 0, 0, 0, 1] h) = true ∧
    after (.pendingRetirement 5) { hub5 with fc := { pendingRetire := [5] } } (fun h =>
      h.retired 5 && h.fc.pendingRetire == []) = true := by decide +kernel

/-! ### Debug control network -/

/-- A flit with its CRC (Table 4-1). -/
def flit (lane : Nat) (head : Bool) (data : W64) : Flit :=
  let top := lane * 4 + b2n head * 2
  { data := data, side := BitVec.ofNat 12 (top * 256 + (crc8 (bitsDown 4 top ++ bitsDown 64 data.toNat)).toNat) }

/-- Unit 0x839F, at the last agent link, which has one answer to send; and the same with one it sends again. -/
def transmitting (bits : W64) : Hub := { hub with dcn := { sources := [(.agent (unitOf 1955),
  [{ flit := flit 2 true bits, head := bits, index := 0 }])] } }

def response : W64 := 0x4400000004000000

def way : Way := (.agent 1955, .up)

def resending : Hub := { hub with dcn := { links := [(.agent 1955, { upward := {
  txSeq := 1, resend := 1, replay := [{ flit := flit 2 true response, head := response, index := 0 }] } })] } }

/-- A head that is good, bad, and damaged; out of sequence; again; and with nothing to send. -/
theorem test_flits_meet :
    let bad : W64 := 0xF000000000000000
    let f := flit 2 true response
    let broken := { f with side := f.side ^^^ 1 }
    let up (h : Hub) := (h.link (.agent 1955)).dir .up
    let ahead := { transmitting response with dcn := { (transmitting response).dcn with links := [(.agent 1955, { upward := { txSeq := 1 } })] } }
    linkExists (.agent 1955) = true ∧ linkExists (.agent 1956) = false ∧ hub.linkRuns (.agent 1955) = true ∧ flitLane f ≠ 0 ∧
    ((hub.link (.agent 1955)).dir .down).nakDue = false ∧ (hub.nextFlit way).isNone = true ∧
    (((transmitting response).nextFlit way).map (·.cell.index)) = some 0 ∧ flitGood f = true ∧ flitGood broken = false ∧
    headGood 2 response = true ∧ headGood 2 bad = false ∧ (up ahead).nextSeq ≠ (up ahead).rxSeq + 1 ∧
    (up (transmitting response)).nextSeq = (up (transmitting response)).rxSeq + 1 ∧ (ahead.nextFlit way).isSome = true ∧
    ((resending.nextFlit way).map fun x => match x with | .again _ => true | _ => false) = some true ∧
    after (.flitReceived (.agent 1955) .up f) (transmitting response) (fun h => (up h).rxSeq == 1 && (up h).txSeq == 1 &&
      (up h).replay.length == 1 && h.dcn.sources == []) = true ∧
    after (.flitReceived (.agent 1955) .up (flit 2 true bad)) (transmitting bad) (fun h => (up h).rxSeq == 1 &&
      (h.fc.source 0xFC7).count == 1 && h.dcn.east.proto == 1) = true ∧
    after (.flitReceived (.agent 1955) .up f) ahead (fun h => (up h).rxSeq == 0 && (up h).txSeq == 2) = true ∧
    after (.flitReceived (.agent 1955) .up f) resending (fun h => (up h).rxSeq == 1 && (up h).txSeq == 1 && (up h).resend == 0) =
      true ∧
    after (.flitReceived (.agent 1955) .up broken) (transmitting response) (fun h => (up h).rxSeq == 0 && (up h).txSeq == 1 &&
      (up h).nakDue && (up h).crcRun == 1 && h.dcn.east.crc == 1 && (h.fc.source 0xFC3).count == 1) = true := by decide +kernel

/-- A link-control flit that acknowledges all, one that is a NAK, and one that is damaged; links that fail and retrain. -/
theorem test_link_control_and_retrain_meet :
    let failed := { hub with dcn := { links := [(.span, { downward := { crcRun := 3 } })] } }
    let fallen := { hub with dcn := { links := [(.span, { up := false, downPt := 39900000 })] } }
    let dn : Hub := { hub with dcn := { links := [(.agent 1955, { upward := { (resending.link (.agent 1955)).upward with nakDue := true } })] } }
    let ack := flit 0 true 0x0400000000000000
    let nak := flit 0 true 0x0220000000000000
    let e (h : Hub) := (h.link (.agent 1955)).dir .up
    flitLane ack = 0 ∧ flitGood ack = true ∧ bits ack.data.toNat 63 58 = (e dn).txSeq.toNat ∧ bit nak.data.toNat 57 = true ∧
    (hub.link .span).fails .silent (hub.linkOnPt .span) hub.pt = true ∧ hub.linkPowered .span = true ∧
    (failed.link .span).fails .crcThrice 0 0 = true ∧ ({} : LinkSt).fails .silent 5 11004 = false ∧
    ({} : LinkSt).fails .silent 5 11005 = true ∧ (failed.link .span).up = true ∧ (fallen.link .span).up = false ∧
    after (.linkControlFlit (.agent 1955) .down ack) dn (fun h => (e h).replay == [] && !(e h).nakDue &&
      ((h.link (.agent 1955)).dir .down).ctlPt == 40000000) = true ∧
    after (.linkControlFlit (.agent 1955) .down nak) dn (fun h => (e h).replay.length == 1 && (e h).resend == 1 &&
      !(e h).nakDue && (e h).ctlCredit == 8) = true ∧
    after (.linkControlFlit (.agent 1955) .down { ack with side := ack.side ^^^ 1 }) dn (fun h => e h == e dn &&
      (h.fc.source 0xFC3).count == 1) = true ∧
    after (.linkDown .span .crcThrice) failed (fun h => !(h.link .span).up && (h.fc.source 0xFC4).count == 1 &&
      h.linksDown .west == 1 && (h.nodeQueue (.root .west)).notices.map (·.link) == [some (.span, false)]) = true ∧
    after (.linkDown (.bay .east 0 0) .silent) hub (fun h => h.linksDown .east == 1) = true ∧
    after (.linkRetrain .span true) fallen (fun h => (h.link .span).up && (h.link .span).downward.ctlPt == 40000000 && h.linksDown .west == 0) = true ∧
    after (.linkRetrain .span false) fallen (fun h => !(h.link .span).up && (h.link .span).downPt == 40000000) = true := by
  decide +kernel

/-- A combine of STATES over unit 5, whose bay and pier wait for one child each. -/
def combine (ups : List UpMsg) (slots : List NodeSlot) : Combine := {
  tag := 9, op := 3, quantity := 1, scope := .chip, instant := 0, timeoutUs := 10, issuer := .states, slots := slots
  ups := ups, issuePt := 39990000, seq := 7 }

def one : Reduced := { value := 1, count := 1 }

def rootSlot : NodeSlot := { node := .root .west, acc := {}, expected := [(.node (.pier .west 0), 1)] }

def baySlot : NodeSlot := { node := .bay .west 0 0, acc := {}, expected := [(.agent 5, 1)] }

def collecting (c : Combine) : Hub := { hub5 with dcn := { combines := [c] } }

/-- An agent that answers at receipt; that waits for INSTANT, and answers then; that is out of scope; of an older SEQ. -/
theorem test_collect_meets :
    let c := combine [] [baySlot]
    let later := { c with instant := 40000001 }
    let due := { c with instant := 40000000, received := [(5, true)] }
    let ans (h : Hub) := (h.combine 9).map fun c => (c.answered, c.ups.map fun m => (m.body.value, m.body.count))
    (collecting c).combine 9 = some c ∧ ((collecting c).agent 5).powered = true ∧ (collecting c).retired 5 = false ∧
    (collecting c).pathUp 5 = true ∧ ((collecting c).agent 5).takesSeq 5 7 = true ∧ ((collecting c).agent 5).inScope 5 .chip 5 = true ∧
    ((collecting c).agent 5).replicaLoaded = true ∧ ((collecting c).agent 5).inScope 5 (.half .east) 5 = false ∧
    (due.received.find? fun x => x.1 == 5) = some (5, true) ∧
    (withAgent 5 { running with lastSeq := [(5, 7)] } (collecting c)).pathUp 5 = true ∧
    ({ running with lastSeq := [(5, 7)] } : Agent).takesSeq 5 7 = false ∧
    after (.collectReceived 5 9) (collecting c) (fun h => ans h == some ([5], [(1, 1)])) = true ∧
    after (.collectReceived 5 9) (collecting later) (fun h => (h.combine 9).map (·.received) == some [(5, true)] &&
      (h.agent 5).seqOf 5 == some 7 && ans h == some ([], [])) = true ∧
    after (.collectReceived 5 9) (collecting due) (fun h => ans h == some ([5], [(1, 1)])) = true ∧
    after (.collectReceived 5 9) (collecting { due with instant := 40000001 }) (fun h => ans h == some ([], [])) = true ∧
    after (.collectReceived 5 9) (collecting { c with scope := .half .east }) (fun h => ans h == some ([5], [(0, 0)])) = true ∧
    after (.collectReceived 5 9) (withAgent 5 { running with lastSeq := [(5, 7)] } (collecting c)) (fun h =>
      ans h == some ([], [])) = true := by decide +kernel

/-- The last child of the root and of a bay; one of two; one that is late; a time-out at each; the result. -/
theorem test_combines_meet :
    let last := collecting (combine [{ node := .root .west, child := .node (.pier .west 0), body := one }] [rootSlot])
    let below := collecting (combine [{ node := .bay .west 0 0, child := .agent 5, body := one }] [baySlot])
    let twoOf := { baySlot with expected := [(.agent 5, 1), (.agent 6, 1)] }
    let some1 := collecting (combine [{ node := .bay .west 0 0, child := .agent 5, body := one }] [twoOf])
    let late := collecting (combine [{ node := .bay .west 0 0, child := .agent 5, body := one }] [])
    last.childUp (.node (.pier .west 0)) = true ∧ last.parent (.root .west) = none ∧
    below.parent (.bay .west 0 0) = some (.pier .west 0) ∧ below.childUp (.agent 5) = true ∧
    twoOf.expected.all (fun e => e.1 == .agent 5) = false ∧ max 39990000 0 + 1000 * 10 ≤ hub.pt ∧
    after (.combineReceived (.root .west) (.node (.pier .west 0)) 9) last (fun h =>
      (h.combine 9).map (fun c => (c.result.map (·.count), c.slots.length)) == some (some 1, 0)) = true ∧
    after (.combineReceived (.bay .west 0 0) (.agent 5) 9) below (fun h =>
      (h.combine 9).map (fun c => (c.ups.map (·.node), c.slots)) == some ([.pier .west 0], [])) = true ∧
    after (.combineReceived (.bay .west 0 0) (.agent 5) 9) some1 (fun h =>
      (h.combine 9).map (fun c => (c.ups, c.slots.map (·.expected))) == some ([], [[(.agent 6, 1)]])) = true ∧
    after (.combineReceived (.bay .west 0 0) (.agent 5) 9) late (fun h => h.dcn.west.late == 1) = true ∧
    after (.combineTimeout (.root .west) 9) (collecting (combine [] [rootSlot])) (fun h =>
      (h.combine 9).map (fun c => c.result.map (·.missing)) == some (some 1)) = true ∧
    after (.combineTimeout (.bay .west 0 0) 9) (collecting (combine [] [baySlot])) (fun h =>
      (h.combine 9).map (fun c => c.ups.map (·.body.missing)) == some [1]) = true ∧
    after (.combineResult 9) (collecting { combine [] [] with result := some one }) (fun h => (h.combine 9).isNone) = true := by
  decide +kernel

/-! ### Routes, unanswered accesses, agents' answers -/

def notice (n : LinkName) (up : Bool) : NodeNotice := {
  link := some (n, up), notice := { kind := 3, unit := 0, arg := 0, body := 0 } }

/-- Bay 0 of pier 0, West, is down at its own link, and core 5 hangs below it; its pier has the notice, and one behind it. -/
def cutOff : Hub := { hub5 with dcn := {
  links := [(.bay .west 0 0, { up := false })]
  nodes := [(.pier .west 0, { notices := [notice (.bay .west 0 0) false, notice (.bay .west 0 0) true] })] } }

/-- A link-down is noticed and its bay adopted by pier 15's or 1's; without a side link as well, the core is cut off; a
link-up; a node without a path; a route restored. -/
theorem test_link_notice_meets :
    let both := { cutOff with dcn := { cutOff.dcn with links := [(.bay .west 0 0, { up := false }), (.side .west 0 0, { up := false }),
      (.side .west 15 0, { up := false })] } }
    let up := { hub5 with dcn := {
      nodes := [(.pier .west 0, { notices := [notice (.bay .west 0 0) true] })], adopted := [((.west, 0, 0), 1)] } }
    let lost := { cutOff with dcn := { cutOff.dcn with links := [(.pier .west 0, { up := false })] } }
    cutOff.nodeUp (cutOff.reporter (.bay .west 0 0)) = true ∧ lost.nodeUp (lost.reporter (.bay .west 0 0)) = false ∧
    (cutOff.nodeQueue (cutOff.reporter (.bay .west 0 0))).lost = 0 ∧
    after (.linkNotice (.bay .west 0 0)) cutOff (fun h => (h.nodeQueue (.pier .west 0)).notices == [notice (.bay .west 0 0) true] &&
      h.dcn.adopted == [((.west, 0, 0), 15)] && !(h.agent 5).unreachable) = true ∧
    after (.linkNotice (.bay .west 0 0)) both (fun h => (h.agent 5).unreachable && h.dcn.adopted == []) = true ∧
    after (.linkNotice (.bay .west 0 0)) up (fun h => h.dcn.nodes == [] && h.dcn.adopted.length == 1) = true ∧
    (hub5.link (.bay .west 0 0)).up = true ∧
    after (.routeRestore (.bay .west 0 0)) up (fun h => h.dcn.adopted == []) = true := by decide +kernel

def access (tries : Nat) : Txn := { tag := 4, unit := 5, request := regPkt 5 4 false 1 0, tries := tries, sentPt := 39998000 }

/-- Core 5 below an agent link that is down. -/
def silent : Hub := { hub5 with dcn := { links := [(.agent 5, { up := false })] } }

/-- An access outstanding for less than 2 us, and for 2 us the first and the second time. -/
theorem test_access_timeout_meets :
    let e : Exec := { opcode := 0x0308, hdr := hdr, transport := .jtag, startPt := 0, prog := .access 5 (.timeGet hdr) }
    let first := { silent with dcn := { silent.dcn with txns := [access 1] } }
    let second := { silent with slot := some e, dcn := { silent.dcn with txns := [access 2] } }
    first.answers 5 = false ∧ first.transport = .jtag ∧ first.dcn.txnWait = [] ∧
    after (.accessTimeout 4) (atPt 39999999 first) (fun h => h.dcn.txns == [access 1]) = true ∧
    after (.accessTimeout 4) first (fun h => h.dcn.txns.map (fun t => (t.tries, t.sentPt, t.tag)) == [(2, 40000000, 0)]) = true ∧
    after (.accessTimeout 4) second (fun h => (h.agent 5).unreachable && h.slot.isNone &&
      answered .unreachable (unitsBody [5]) h) = true := by decide +kernel

/-- The probes of a lost agent; a multicast that all have taken, with one that is lost, one that answers, and one that is
silent. -/
theorem test_enumeration_and_multicasts_meet :
    let lost := withAgent 5 { running with unreachable := true } hub
    let m : Mcast := { tag := 3, scope := .chip, packets := [(0x3000, [7])], addressed := [5], combined := true }
    let on (h : Hub) (m : Mcast) : Hub := { h with dcn := { h.dcn with mcasts := [m] } }
    lost.presence 5 = 3 ∧ lost.pathUp 5 = true ∧ lost.answers 5 = false ∧ lost.silent 5 = false ∧ silent.silent 5 = true ∧
    after (.enumProbe 5 (some 5)) lost (fun h => !(h.agent 5).unreachable) = true ∧
    after (.enumProbe 5 (some 6)) lost (fun h => (h.fc.source 0xFC6).count == 1 && h.dcn.west.proto == 1) = true ∧
    after (.enumProbe 5 none) lost (fun h => (h.agent 5).unreachable) = true ∧
    after (.multicastComplete 3) (on hub5 { m with took := [5] }) (fun h => h.dcn.mcasts == [] && h.out == [.multicast 3 []]) = true ∧
    after (.multicastComplete 3) (on lost m) (fun h => h.dcn.mcasts == [] && h.out == [.multicast 3 [5]]) = true ∧
    after (.multicastComplete 3) (on hub5 m) (fun h => h.dcn.mcasts == [] && h.out.contains (.multicast 3 []) &&
      mapGet 0 (h.agent 5).staging 0 == 7) = true ∧
    after (.multicastComplete 3) (on silent m) (fun h => h.dcn.mcasts.map (·.waiting) == [[5]] &&
      h.dcn.txns.map (fun t => (t.unit, t.tries)) == [(5, 1)]) = true := by decide +kernel

/-- A unit that powers down, and one that applies a COMMIT. -/
def leaving : Hub := withAgent 5 { running with powering := true } hub

def applying : Hub := withAgent 5 { running with applyUntil := 40000001 } hub

def chipMcast : McastArg := { scope := 0, half := .west, partition := 0, last := true }

/-- Register and bulk accesses at an agent: running, where its SRAM is not read, powering down, applying; 1 and 32 words. -/
theorem test_agent_access_meets :
    let open_ (h : Hub) : Hub := { h with dcn := { mcasts := [{ tag := 9, scope := .chip, packets := [], addressed := [5] }] } }
    hub5.reaches 5 = true ∧ (hub5.agent 5).powering = false ∧ leaving.reaches 5 = true ∧
    (open_ hub5).mcast 9 = some { tag := 9, scope := .chip, packets := [], addressed := [5] } ∧
    (running.refuses 40000000).isNone = true ∧ (({ running with applyUntil := 40000001 } : Agent).refuses 40000000).isSome = true ∧
    after (.regAccess 5 9 false 0 0) hub5 (fun h => h.out.length == 1) = true ∧
    after (.regAccess 5 9 true 0x80 0xFF00) hub5 (fun h => h.out == [.regRsp 5 9 0 0]) = true ∧
    after (.regAccess 5 9 true 0 0) leaving (fun h => h.out == [.regRsp 5 9 2 0]) = true ∧
    after (.bulkRead 5 9 0x10000 1) hub5 (fun h => h.out == [.bulkData 5 9 3 [0]]) = true ∧
    after (.bulkRead 5 9 0x10000 32) leaving (fun h => h.out == [.bulkData 5 9 2 [0]]) = true ∧
    after (.bulkWrite 5 9 none 0x10000 (List.replicate 32 1)) hub5 (fun h => h.out.length == 1) = true ∧
    after (.bulkWrite 5 9 none 0x3000 [1]) applying (fun h => h.out == [] && (h.agent 5).held.length == 1) = true ∧
    after (.bulkWrite 5 9 none 0x3000 [1]) leaving (fun h => h.out == [.regRsp 5 9 2 0]) = true ∧
    after (.bulkWrite 5 9 (some chipMcast) 0x3000 [1]) (open_ hub5) (fun h => h.dcn.mcasts.map (·.took) == [[5]] &&
      mapGet 0 (h.agent 5).staging 0 == 1) = true ∧
    after (.bulkWrite 5 9 (some chipMcast) 0x3000 [1]) (open_ applying) (fun h => h.dcn.mcasts.map (·.refused) == [[5]] &&
      (h.agent 5).notices.length == 1 && (h.agent 5).staging == []) = true := by decide +kernel

/-- Writes of an agent's own registers, at the last watchdog of a core, and of a limit that is over already. -/
theorem test_register_writes_meet :
    let late := withAgent 5 { running with engines := [(0, { running := some { tag := 3, beginPt := 0, traced := false, sampled := false } })] } hub
    watchdogCount 5 = 4 ∧ (hub5.agent 5).powered = true ∧
    after (.wdogStatusWrite 5 8) (withAgent 5 { running with engines := [(2, { expired := true }), (3, { expired := true })] } hub)
      (fun h => !((h.agent 5).engine 3).expired && ((h.agent 5).engine 2).expired) = true ∧
    after (.wdogLimitWrite 5 3 ⟨0x13F, none⟩) hub5 (fun h => ((h.agent 5).engine 3).exp == 63 && ((h.agent 5).engine 3).cmdWatch &&
      !((h.agent 5).engine 3).queueWatch && !((h.agent 5).engine 3).expired) = true ∧
    after (.wdogLimitWrite 5 0 ⟨0x10A, none⟩) late (fun h => ((h.agent 5).engine 0).expired) = true ∧
    after (.wdogLimitWrite 5 3 ⟨0x20A, some ⟨7, 0⟩⟩) hub5 (fun h => ((h.agent 5).engine 3).expired) = true ∧
    after (.clearQueues 5 1) (withAgent 5 { running with queues := [(1, { bins := [1, 2, 3, 4, 5, 6, 7, 8], hwm := 9 })] } hub)
      (fun h => (h.agent 5).queues.all fun q => q.2.bins == List.replicate 8 0 && q.2.hwm == 0) = true ∧
    after (.shadowKeepWrite 5 0xAA) hub5 (fun h => !(h.agent 5).shadowKeep && (h.agent 5).armMask == 0xAA) = true := by
  decide +kernel

/-! ### Hangs and stops -/

/-- A hang log of `n` entries. -/
def logged (n : Nat) : Hub := { hub with stops := { hangId := 0xFFFFFFFF, log := (List.range n).map fun i => { pt := i } } }

theorem test_hang_commands_meet :
    ([0x0300, 0x0302, 0x0303, 0x0304].all fun c => hub.admits c hdr) = true ∧
    after (.declareHang hdr 0x55) (logged 15) (fun h => h.stops.declared && h.stops.hangId == 0 && h.stops.log.length == 16 &&
      answered .ok [0, 0, 0, 0] h) = true ∧
    after (.declareHang hdr 0x55) (logged 16) (fun h => h.stops.log.length == 16 && h.stops.lost == 1) = true ∧
    after (.hangClear hdr) { hub with stops := { declared := true } } (fun h => !h.stops.declared) = true := by decide +kernel

/-- A stop of the chip that was due 4 us ago and that HANG_STOP waits for. -/
def stopDue : StopInfo := {
  stopId := 1, t := 39996000, scope := .chip, units := [], pod := false, late := false, cause := 0, claim := 1, seq := 1
  initiator := 0 }

def execOf (op : W16) (p : Prog) : Exec := { opcode := op, hdr := hdr, transport := .jtag, startPt := 39990000, prog := p }

/-- The combine of a command whose result is in. -/
def resultOf (i : Issuer) (r : Reduced) (p : Prog) (h : Hub) : Hub := { h with
  slot := some (execOf 0x0301 p), dcn := { h.dcn with combines := [{ combine [] [] with issuer := i, result := some r }] } }

theorem test_stop_end_and_cancel_meet :
    let due := { hub with slot := some (execOf 0x0301 .stop), stops := { newest := some stopDue } }
    hub.transport = .jtag ∧
    after .stopComplete due (fun h => h.slot.isNone && h.stops.newest.map (·.complete) == some true && h.out.length == 1) = true ∧
    after .stopComplete { due with slot := none } (fun h => h.stops.newest.map (·.complete) == some true && h.out == []) = true ∧
    after .stopComplete (atPt 39999999 due) (fun h => h.stops.newest == some stopDue && h.slot.isSome) = true ∧
    after (.stopCancel hdr) { hub with stops := { standing := [(41000000, .chip, []), (40000000, .half .west, [])] } } (fun h =>
      h.slot.map (·.prog) == some .cancel && h.stops.standing.map (·.1) == [40000000] &&
      h.out.any fun o => match o with | .bcast b => b.cls == 6 | _ => false) = true ∧
    after (.combineResult 9) (resultOf .cancelled { value := 0x100010000 } .cancel hub) (fun h => h.slot.isNone &&
      answered .ok [0, 0, 1, 0, 1, 0, 0, 0] h) = true := by decide +kernel

/-- HANG_STOP in Test at the earliest instant, the first and the last of its window, beside it, and pod-wide over links 0 and
15; in Production without a hang; while measuring; with bad operands. -/
theorem test_hang_stop_meets :
    let pod := { testHub with ident := { chipId := 2, assigned := true }, ctl := { links := 0x8001 } }
    hub.admits 0x0301 hdr = true ∧ testHub.admits 0x0301 vendorHdr = true ∧ scopeFault ⟨0, 0, []⟩ 9 = none ∧
    (testHub.taken vendorHdr).stopIssueAt = 40000000 ∧ leadInstant 40000000 200 30000 0 = some 40000200 ∧
    leadInstant 40000000 200 30000 40030000 = some 40030000 ∧ leadInstant 40000000 25000 30000 40025000 = some 40025000 ∧
    leadInstant 40000000 200 30000 40030001 = none ∧ leadInstant 40000000 200 30000 40000199 = none ∧
    after (.hangStop vendorHdr 0 0 ⟨0, 0, []⟩) testHub (fun h => h.slot.map (·.prog) == some .stop && h.stops.stopId == 1 &&
      (h.stops.newest.map fun n => (n.t, n.pod)) == some (40000200, false)) = true ∧
    after (.hangStop vendorHdr 40025000 1 ⟨0, 0, []⟩) pod (fun h =>
      (h.stops.newest.map fun n => (n.t, n.pod)) == some (40025000, true) &&
      (h.out.filterMap fun o => match o with | .ctl l t _ => some (l, t) | _ => none) == [(0, 0x10), (15, 0x10)]) = true ∧
    after (.hangStop vendorHdr 0 0 ⟨3, 0, [5]⟩) (withAgent 5 running testHub) (fun h =>
      (h.stops.newest.map fun n => (n.scope, n.units)) == some (.mask, [5]) && (h.agent 5).armMask == 0x21) = true ∧
    after (.hangStop vendorHdr 40030001 0 ⟨0, 0, []⟩) testHub (answered .badArg (badArgBody 0 0)) = true ∧
    after (.hangStop vendorHdr 0 2 ⟨0, 0, []⟩) testHub (answered .badArg (badArgBody 8 0)) = true ∧
    after (.hangStop vendorHdr 0 0 ⟨1, 2, []⟩) testHub (answered .badArg (badArgBody 10 0)) = true ∧
    after (.hangStop hdr 0 0 ⟨0, 0, []⟩) hub (answered .notHung []) = true ∧
    after (.hangStop vendorHdr 0 0 ⟨0, 0, []⟩) { testHub with sight := { state := .measuring } } (answered .badState []) = true := by
  decide +kernel

def podStopMsg : PodStopMsg := { initiator := 2, hops := 3, test := false, stopId := 6, t := 40020000 }

theorem test_pod_stop_meets :
    let linked := { hub with ident := { chipId := 3, assigned := true }, ctl := { links := 3 } }
    after (.podStop 0 { podStopMsg with t := 1040000001 }) hub (fun h => h.stops.podDiscards == 1 && h.out == []) = true ∧
    after (.podStop 0 podStopMsg) { hub with stops := { podPairs := [(2, 6)] } } (fun h => !h.stops.declared && h.out == []) = true ∧
    hub.stopsInState = true ∧ hub.wake.stopIssueAt = 40000000 ∧
    after (.podStop 0 podStopMsg) linked (fun h => h.stops.declared && h.stops.podPairs == [(2, 6)] && h.stops.confirming &&
      h.out.contains (.ctl 1 0x10 (podStopBytes { podStopMsg with hops := 4 })) &&
      !(h.out.contains (.ctl 0 0x10 (podStopBytes { podStopMsg with hops := 4 }))) &&
      (h.stops.newest.map fun n => (n.pod, n.initiator, n.podId, n.t)) == some (true, 2, 6, 40020000)) = true ∧
    after (.podStop 0 { podStopMsg with t := 40000199 }) { hub with red := { hub.red with west := { hub.red.west with fast := true } } } (fun h =>
      (h.stops.newest.map fun n => (n.late, n.t)) == some (true, 40000200)) = true ∧
    after (.podStop 0 { podStopMsg with t := 40002499 }) hub (fun h =>
      (h.stops.newest.map fun n => (n.late, n.t)) == some (true, 40002500)) = true ∧
    (inState .endOfLife).stopsInState = false ∧
    after (.podStop 0 podStopMsg) (inState .endOfLife) (fun h => h.stops.declared && h.stops.newest.isNone) = true := by
  decide +kernel

/-! ### Agents arm, stop, capture, step, resume -/

def stopBcast : Bcast := {
  cls := 0, scope := .chip, seq := 1, instant := 40000200, claim := 1, arg := 0x77, tag := 0, issuePt := 40000000 }

def stopArmed : Armed := { instant := 40000000, arg := 0x77, claim := 1, seq := 1 }

/-- A hub that has issued one broadcast, with core 5 as given. -/
def issued (b : Bcast) (a : Agent) : Hub := withAgent 5 a { hub with dcn := { issued := [b] } }

/-- A broadcast that is new, with its instant ahead, now and past; CANCEL; SAFE; of an older SEQ; out of scope; too early. -/
theorem test_broadcast_meets :
    let now := { stopBcast with instant := 40000000 }
    let past := { stopBcast with instant := 39999999 }
    let cancel := { stopBcast with cls := 6, instant := 0, arg := 2 }
    let safe := { cancel with cls := 7, arg := 0 }
    let armed := { running with armed := [(0, { stopArmed with instant := 41000000 }), (2, { stopArmed with instant := 41000000 })] }
    let old := { running with lastSeq := [(0, 1)] }
    let early := { stopBcast with issuePt := 40000001 }
    ((issued stopBcast running).dcn.issued.find? fun x => x.cls == 0 && x.seq == 1) = some stopBcast ∧
    running.takesSeq 0 1 = true ∧ running.inScope 5 .chip 0 = true ∧ hub.comesDown 5 0 = true ∧ hub.comesDown 5 7 = true ∧
    old.takesSeq 0 1 = false ∧ running.inScope 5 (.half .east) 0 = false ∧
    after (.bcastAccept 5 0 1) (issued stopBcast running) (fun h => (h.agent 5).armedAt 0 ==
      some { stopArmed with instant := 40000200 } && (h.agent 5).seqOf 0 == some 1) = true ∧
    after (.bcastAccept 5 0 1) (issued now running) (fun h => (h.agent 5).armedAt 0 == some stopArmed) = true ∧
    after (.bcastAccept 5 0 1) (issued past running) (fun h => (h.agent 5).state == .stopping && (h.agent 5).late &&
      (h.agent 5).gated) = true ∧
    after (.bcastAccept 5 6 1) (issued cancel armed) (fun h => (h.agent 5).armedAt 2 == none && ((h.agent 5).armedAt 0).isSome) = true ∧
    after (.bcastAccept 5 7 1) (issued safe armed) (fun h => (h.agent 5).armedAt 2 == none && ((h.agent 5).armedAt 0).isSome) = true ∧
    after (.bcastAccept 5 0 1) (issued stopBcast old) (fun h => h.agent 5 == old) = true ∧
    after (.bcastAccept 5 0 1) (issued { stopBcast with scope := .half .east } running) (fun h => h.agent 5 == running) = true ∧
    after (.bcastAccept 5 0 1) (issued early running) (fun h => h.agent 5 == running) = true := by decide +kernel

/-- A cut at 40 ms of a stop. -/
def cutNowInfo : CutInfo := { pt := 40000000, instant := 40000000, claim := 1, seq := 1, step := false, late := false, capturing := true }

/-- An engine's block of 8 octets (Table 5-13). -/
def oneBlock : List Byte := [1, 0, 0, 0, 8, 0, 0, 0, 9, 9, 9, 9, 9, 9, 9, 9]

def scanned : Shadow := { complete := false, late := false, poweredIn := false, step := false, cutPt := 40000000, donePt := 0, blocks := [], blockCount := 0, cutSeq := 0, claim := 1, stopSeq := 1 }

/-- At its STOP instant a Running agent gates, a Stopped one does not change; with the capture an agent is Stopped. -/
theorem test_stop_and_capture_meet :
    let armed (s : AgState) := withAgent 5 { running with state := s, armed := [(0, stopArmed)] } hub
    let gated := withAgent 5 { running with state := .stopping, gated := true, cut := some cutNowInfo, shadow := some scanned } hub
    (armed .running).dueAt 5 0 = some stopArmed ∧ hub5.dueAt 5 0 = none ∧
    after (.stopInstant 5) (armed .running) (fun h => (h.agent 5).state == .stopping && (h.agent 5).gated &&
      (h.agent 5).cut == some cutNowInfo && h.out == [.marker 5 false none ⟨1, 1, 40000000, 40000000, false, false⟩]) = true ∧
    after (.stopInstant 5) (armed .stopped) (fun h => (h.agent 5).state == .stopped && (h.agent 5).armedAt 0 == none) = true ∧
    (blocksOf oneBlock).isSome = true ∧ ((blocksOf oneBlock).getD []).all (scanBlock 5) = true ∧
    (gated.agent 5).portsClosed 5 cutNowInfo 40000000 = true ∧ 64 + oneBlock.length ≤ shadowSize 5 ∧
    after (.captureComplete 5 2 oneBlock) gated (fun h => (h.agent 5).state == .stopping) = true ∧
    after (.captureComplete 5 1 oneBlock) gated (fun h => (h.agent 5).state == .stopped && (h.agent 5).shadowValid &&
      (h.agent 5).shadow.map (fun s => (s.blocks, s.blockCount)) == some (oneBlock, 1)) = true := by decide +kernel

/-- The first checker port of a router: a marker before the gate, one at the port's close, one too late, and the close with and
without a marker. -/
theorem test_checker_ports_meet :
    let cut : CutInfo := { pt := 39998500, instant := 39998500, claim := 1, seq := 1, step := false, late := false, capturing := false }
    let m : CutMarker := { identity := 1, seq := 1, instant := 39998500, gatePt := 39998500, late := false, earlySeen := false }
    let gated (ps : SMap CutPort) := withAgent 0x4000 { running with gated := true, state := .stopped, cut := some cut, ports := ps } hub
    let shut : CutPort := { closed := true }
    hasChecker 0x4000 = true ∧ ((gated []).agent 0x4000).checkerGate = some cut ∧
    after (.cutMarkerArrival 0x4000 0 m) (withAgent 0x4000 running hub) (fun h =>
      mapGet {} (h.agent 0x4000).ports 0 == { marker := some m, arrivalPt := 40000000 }) = true ∧
    after (.cutMarkerArrival 0x4000 63 m) (gated []) (fun h => (mapGet {} (h.agent 0x4000).ports 63).marker == some m) = true ∧
    after (.cutMarkerArrival 0x4000 0 m) (gated [(0, shut)]) (fun h => (mapGet {} (h.agent 0x4000).ports 0).marker == none) = true ∧
    after (.checkerClose 0x4000 0 0 0 0 false) (atPt 39999999 (gated [])) (fun h => (h.agent 0x4000).ports == []) = true ∧
    after (.checkerClose 0x4000 0 0 0 0 false) (gated []) (fun h => (mapGet {} (h.agent 0x4000).ports 0).outcome == 4 &&
      (h.agent 0x4000).notices.length == 1) = true ∧
    after (.checkerClose 0x4000 0 0 0 0 false) (gated [(0, { marker := some m, arrivalPt := 39998500 })]) (fun h =>
      (mapGet {} (h.agent 0x4000).ports 0).outcome == 0 && (h.agent 0x4000).notices == []) = true ∧
    after (.checkerClose 0x4000 0 0 0 0 true) (gated [(0, { marker := some { m with seq := 2 }, arrivalPt := 39998499 })]) (fun h =>
      (mapGet {} (h.agent 0x4000).ports 0).outcome == 11) = true := by decide +kernel

/-- A chip in Test with its one core Stopped. -/
def stopped : Hub := withAgent 5 { running with state := .stopped, gated := true, shadowValid := true } testHub

/-- The states of one Stopped agent, counted. -/
def allStopped : Reduced := { value := 0x100000000, count := 1 }

def judged (r : Reduced) (answered : List UnitId) (allow : Bool) : Hub := { stopped with
  slot := some (execOf 0x0305 (.stepCheck 0 100 allow))
  dcn := { combines := [{ combine [] [] with issuer := .standing, result := some r, answered := answered }] } }

theorem test_steps_and_resumes_meet :
    let newest := { stopped with stops := { newest := some { stopDue with scope := .half .west }, standing := [(39996000, .half .west, [])] } }
    let c (l : List UnitId) : Combine := { combine [] [] with answered := l }
    stopped.admits 0x0305 vendorHdr = true ∧ stopped.admits 0x0306 vendorHdr = true ∧ stopped.admits 0x0307 hdr = true ∧
    (stopped.taken vendorHdr).collectRoom .standing = true ∧ stopped.unanswered (c [5]) = [] ∧ stopped.unanswered (c []) = [5] ∧
    (stopped.taken vendorHdr).issueAt 2 = 40000000 ∧ (stopped.taken hdr).resumeRefused .chip [] = false ∧
    (newest.taken hdr).resumeRefused (.half .west) [] = false ∧ unitCore 5 = true ∧ engineCount 5 = 4 ∧
    ((withAgent 5 { running with state := .stopping } testHub).taken hdr).resumeRefused .chip [] = true ∧
    after (.stepCycles vendorHdr 40030000 0xFFFF 1) stopped (fun h => h.slot.map (·.prog) == some (.stepCheck 40030000 0xFFFF true) &&
      h.out.any fun o => match o with | .bcast b => b.cls == 5 | _ => false) = true ∧
    after (.stepCycles vendorHdr 0 1 0) { stopped with fe := { dumpMode := true } } (answered .badState []) = true ∧
    after (.combineResult 9) (judged allStopped [5] false) (fun h => h.slot.map (·.prog) == some (.cycles 40000200 100) &&
      h.out.any fun o => match o with | .bcast b => b.cls == 2 && stepDuration b.arg == 100 | _ => false) = true ∧
    after (.combineResult 9) (judged one [5] false) (fun h => h.slot.isNone && answered .badState [] h) = true ∧
    after (.combineResult 9) (judged {} [] false) (fun h => h.slot.isNone && answered .unreachable (unitsBody [5]) h) = true ∧
    after (.combineResult 9) (judged {} [] true) (fun h => h.slot.isSome) = true ∧
    after (.stepCommand vendorHdr 0 5 3 1) stopped (fun h => h.slot.map (·.prog) == some (.cmdStep 5 1) &&
      h.out.any fun o => match o with | .bcast b => stepIsCommand b.arg && stepEngine b.arg == 3 | _ => false) = true ∧
    after (.stepCommand vendorHdr 0 5 3 1) (withAgent 5 running testHub) (answered .badState []) = true ∧
    after (.resume hdr 0 0) { stopped with stops := { standing := [(39996000, .chip, [])] } } (fun h =>
      h.slot.map (·.prog) == some (.resume 40000200) && h.stops.standing == []) = true ∧
    after (.resume hdr 0 1) stopped (answered .badState []) = true ∧
    after (.resume hdr 0 1) newest (fun h => h.stops.standing == [] &&
      h.out.any fun o => match o with | .bcast b => b.cls == 3 && b.scope == .half .west | _ => false) = true := by decide +kernel

/-- A core with one instant armed, in a state. -/
def armedIn (s : AgState) (c : Nat) (x : Armed) : Hub :=
  withAgent 5 { running with state := s, gated := s == .stopped, armed := [(c, x)] } testHub

/-- A core in a step of engine 1 that is due to end, with a command of that engine running or not. -/
def stepping (command : Bool) (cmd : Option RunningCmd) : Hub := withAgent 5 { running with
  state := .stepping, engines := [(1, { running := cmd })]
  stepRun := some { command := command, engine := 1, startPt := 39999900, endPt := 40000000, claim := 1, seq := 1 } } testHub

theorem test_agent_steps_meet :
    let step := { stopArmed with arg := stepArg false 0 100 }
    let cmd := { stopArmed with arg := stepArg true 1 100 }
    let c : RunningCmd := { tag := 3, beginPt := 0, traced := false, sampled := false }
    (armedIn .stopped 2 step).dueAt 5 2 = some step ∧ stepDuration step.arg = 100 ∧ stepIsCommand cmd.arg = true ∧ unitClass 5 ≤ 3 ∧
    after (.stepInstant 5) (armedIn .stopped 2 step) (fun h => (h.agent 5).state == .stepping && !(h.agent 5).gated &&
      ((h.agent 5).stepRun.map (·.endPt)) == some 40000100) = true ∧
    after (.stepInstant 5) (armedIn .stopped 2 cmd) (fun h => ((h.agent 5).stepRun.map fun r => (r.command, r.endPt)) ==
      some (true, 40100000)) = true ∧
    after (.stepInstant 5) (armedIn .running 2 step) (fun h => (h.agent 5).state == .running && (h.agent 5).stepRun.isNone) = true ∧
    after (.cycleStepEnd 5) (atPt 39999999 (stepping false none)) (fun h => (h.agent 5).state == .stepping) = true ∧
    after (.cycleStepEnd 5) (stepping false none) (fun h => (h.agent 5).state == .stopped && (h.agent 5).step.elapsed == 100 &&
      h.out.length == 1) = true ∧
    after (.commandStepEnd 5 .commandEnded true) (stepping true (some c)) (fun h => (h.agent 5).state == .stopped &&
      (h.agent 5).step.fenceStall && (h.agent 5).step.outcome == 2 && ((h.agent 5).engine 1).running == none) = true ∧
    after (.commandStepEnd 5 .commandEnded true) (stepping true none) (fun h => (h.agent 5).state == .stepping) = true ∧
    after (.commandStepEnd 5 .queueEmpty false) (stepping true none) (fun h => (h.agent 5).step.outcome == 4) = true ∧
    after (.commandStepEnd 5 .limit false) (stepping true (some c)) (fun h => (h.agent 5).step.outcome == 3 &&
      ((h.agent 5).engine 1).running == some c) = true ∧
    (armedIn .stopped 3 stopArmed).dueAt 5 3 = some stopArmed ∧ ((armedIn .stopped 3 stopArmed).agent 5).powerHold = false ∧
    after (.resumeInstant 5) (armedIn .stopped 3 stopArmed) (fun h => (h.agent 5).state == .running && !(h.agent 5).gated) = true ∧
    after (.resumeInstant 5) (armedIn .stopping 3 stopArmed) (fun h => (h.agent 5).state == .stopping) = true ∧
    after (.commitInstant 5) (armedIn .stopped 4 stopArmed) (fun h => (h.agent 5).applyUntil == 40002000) = true := by decide +kernel

/-- The first octets of a unit SRAM, written. -/
def filled : SMap Byte := (List.range 8).map fun i => (i, BitVec.ofNat 8 (i + 1))

/-- INSPECT_READ and INSPECT_WRITE at the ends of their spaces; a range the Vendor may not read in Production; a Running
unit; no unit; one that is silent; a read-only offset. -/
theorem test_inspection_meets :
    stopped.admits 0x0308 hdr = true ∧ stopped.admits 0x0309 vendorHdr = true ∧ hub5.admits 0x0308 vendorHdr = true ∧
    inspectFault 5 0 0xFFC 4 8 = none ∧ inspectFault 5 1 0x17FFF8 8 8 = none ∧ inspectFault 5 0 0xFFC 8 8 = some 4 ∧
    (stopped.taken hdr).answers 5 = true ∧ (silent.taken hdr).silent 5 = true ∧ (hub.taken hdr).silent 5 = false ∧
    ((stopped.taken hdr).session 1).isSome = true ∧
    (stopped.taken hdr).mayInspect { tag := 1, role := .operator, partition := 0, transport := .jtag, soundKey := [], lastPt := 0 }
      5 1 0x80000 8 = true ∧
    (inspectAll (Hub.inspectBulk 5) (pieces 0x80000 8) ⟨.done, [], stopped.taken hdr⟩).status ≠ .fenced ∧
    after (.inspectRead hdr 5 1 0x80000 8) (withAgent 5 { (stopped.agent 5) with sram := filled } stopped)
      (answered .ok [1, 2, 3, 4, 5, 6, 7, 8]) = true ∧
    after (.inspectRead hdr 5 1 0x80000 8) hub5 (answered .badState []) = true ∧
    after (.inspectRead hdr 5 1 0x80000 8) hub (answered .unreachable (unitsBody [5])) = true ∧
    after (.inspectRead hdr 5 1 0x80000 8) silent (fun h => h.slot.map (·.prog) == some (.access 5 (.inspectRead hdr 5 1 0x80000 8))) =
      true ∧
    after (.inspectRead hdr 5 0 0xFFC 8) stopped (answered .badArg (badArgBody 4 0)) = true ∧
    after (.inspectRead vendorHdr 5 0 0x800 4) hub5 (answered .denied []) = true ∧
    (inspectAll (Hub.inspectPoke (List.replicate 8 7) 0x80000 5 1) (pieces 0x80000 8) ⟨.done, [], stopped.taken vendorHdr⟩).status = .done ∧
    after (.inspectWrite vendorHdr 5 1 0x80000 (List.replicate 8 7)) stopped (fun h => answered .ok [] h && (h.agent 5).written &&
      mapGet 0 (h.agent 5).sram 7 == 7) = true ∧
    after (.inspectWrite vendorHdr 5 1 0x80000 (List.replicate 8 7)) (withAgent 5 running testHub) (answered .badState []) = true ∧
    after (.inspectWrite vendorHdr 5 1 0x7FFF8 (List.replicate 8 7)) stopped (answered .badArg (badArgBody 4 0)) = true ∧
    after (.inspectWrite vendorHdr 5 0 0x7FC [1, 2, 3, 4]) stopped (answered .badArg (badArgBody 4 0)) = true := by decide +kernel

/-! ### Units come and go -/

theorem test_units_come_and_go :
    let kept := withAgent 5 { running with shadowValid := true } hub
    let placed := { hub with chip := { membership := [(5, some 7)] } }
    let away := withAgent 5 { running with shadowValid := true, shadowKeep := false, cnt := { unpushed := { cmds := 3 } } } hub
    let fused := { hub with island := { hub.island with otp := { hub.island.otp with repair := [5] } } }
    hub.retired 5 = false ∧ (hub.agent 5).powered = false ∧ (kept.agent 5).shadowKeep = true ∧ retirable 5 = true ∧
    after (.unitPowerOn 5) hub (fun h => (h.agent 5).powered && (h.agent 5).state == .running && h.out == [.unitPower 5 true]) = true ∧
    after (.unitPowerOn 5) fused (fun h => !(h.agent 5).powered && h.out == []) = true ∧
    after (.unitPowerOn 5) { hub with stops := { standing := [(40000000, .chip, [])] } } (fun h => (h.agent 5).state == .stopped &&
      (h.agent 5).shadow.map (·.poweredIn) == some true) = true ∧
    after (.replicaLoad 5) (withAgent 5 { powered := true } { placed with arrays := { totals := [(5, { cmds := 9 })] } }) (fun h =>
      (h.agent 5).member && (h.agent 5).partition == 7 && (h.agent 5).replicaLoaded && (h.agent 5).cnt.light.cmds == 9) = true ∧
    after (.partitionChange 5 true 63) hub5 (fun h => (h.agent 5).partition == 63 && mapGet none h.chip.membership 5 == some 63) = true ∧
    after (.partitionChange 5 false 0) (withAgent 5 running placed) (fun h => !(h.agent 5).member && h.chip.membership == []) = true ∧
    after (.partitionChange 5 true 63) hub (fun h => mapGet none h.chip.membership 5 == some 63 && h.agents == []) = true ∧
    after (.powerDownRequest 5) kept (fun h => (h.agent 5).powerHold && !(h.agent 5).powering) = true ∧
    after (.powerDownRequest 5) away (fun h => (h.agent 5).powering && h.out == [.unitPower 5 false] &&
      (h.arrayTotals 5).cmds == 3) = true ∧
    after (.unitPowerOff 5) kept (fun h => h.agent 5 == { sramLost := 1 }) = true ∧
    after (.emergencyPowerOff 5) kept (fun h => h.agent 5 == { sramLost := 1 }) = true := by decide +kernel

/-- Events and notices of a unit, and their arrival. -/
theorem test_events_and_notices_meet :
    let n (kind : Nat) (arg : BitVec 26) : Notice := { kind := kind, unit := 5, arg := arg, body := 0 }
    let late := withAgent 5 { running with engines := [(0, { running := some { tag := 3, beginPt := 0, traced := false, sampled := false }, exp := 16 })] } hub
    let q (l : List Notice) := withAgent 5 { running with notices := l } hub
    let full := { q [n 6 0] with dcn := { links := [(.agent 5, { upward := { ctlCredit := 0 } })] } }
    unitEventCode 0x11 = true ∧ unitEventCode 0xFF = true ∧ eventNoticed 0x11 = true ∧ eventNoticed 0xFF = false ∧
    after (.unitEvent 5 0x11 0 9) hub5 (fun h => (h.agent 5).nextSeq == 1 && (h.agent 5).notices.length == 1) = true ∧
    after (.unitEvent 5 0xFF 0 9) hub5 (fun h => (h.agent 5).nextSeq == 1 && (h.agent 5).notices == []) = true ∧
    ((late.agent 5).engine 0).overdue ((late.agent 5).ungatedOf 0 late.pt) none = some (false, 3) ∧
    ((hub5.agent 5).engine 0).overdue ((hub5.agent 5).ungatedOf 0 hub5.pt) none = none ∧
    after (.watchdogExpiry 5 0 none) late (fun h => ((h.agent 5).engine 0).expired && (h.agent 5).notices.length == 1) = true ∧
    (q [n 6 0, n 2 0x11]).pathUp 5 = true ∧ bits (0x11 : BitVec 26).toNat 7 0 = 0x11 ∧
    after (.noticeSend 5) (q [n 6 0, n 2 0x11]) (fun h => h.dcn.inbox == [n 6 0] && (h.agent 5).notices == [n 2 0x11]) = true ∧
    after (.noticeSend 5) full (fun h => h.dcn.inbox == [] && (h.agent 5).notices == [n 6 0]) = true ∧
    after (.noticeSend 5) (q [n 0 2]) (fun h => mapGet none h.dcn.known 5 == some .stopped) = true ∧
    after (.noticeSend 5) (q [n 2 0x11]) (fun h => (h.fc.source 5).count == 1) = true ∧
    after (.watchdogNotice 5) { hub5 with dcn := { inbox := [n 6 0] } } (fun h => (h.fc.source 0x805).count == 1 && h.stops.declared &&
      h.dcn.inbox == [] && h.stops.log.map (·.unit) == [5, 5]) = true := by decide +kernel

/-! ### Counters -/

/-- Core 5 with totals of its own, on a hub whose arrays hold another count. -/
def counted : Hub := { withAgent 5 { running with
  cnt := { light := { cmds := 9 }, unpushed := { cmds := 2 }, busyPt := 40000000 } } hub with
  arrays := { totals := [(5, { cmds := 7 })], bank := [(5, { state := 1, totals := { cmds := 4 } })] } }

/-- The freeze the tests follow: at 39,998 us, unit 5 of the chip. -/
def frozen : FreezeRun := { instant := 39998000, freezeId := 3, mode := 0, scope := .mask, units := [5] }

def five : ScopeBlock := ⟨3, 0, [5]⟩

def obs : Hdr := { hdr with session := 2 }

/-- Reads of one core's totals, of the arrays and the bank; an Observer is denied the arrays. -/
theorem test_counter_reads_meet :
    let sc := scopeOf five ((counted.taken hdr).session 1)
    ([0x0600, 0x0603, 0x0604].all fun c => counted.admits c hdr) = true ∧ counted.admits 0x0600 obs = true ∧
    scopeFault five 0 = none ∧ scopeFault five 1 = none ∧ scopeFault ⟨4, 0, []⟩ 1 = some 1 ∧
    (counted.taken hdr).isObserver hdr = false ∧ (counted.taken obs).isObserver obs = true ∧
    (((counted.taken hdr).presentIn sc.1 sc.2).all fun u => (counted.taken hdr).answers u) = true ∧
    after (.counterRead hdr 4 five) counted (answered .badArg (badArgBody 0 0)) = true ∧
    after (.counterRead hdr 3 ⟨4, 0, []⟩) counted (answered .badArg (badArgBody 1 0)) = true ∧
    after (.counterRead hdr 0 five) counted (answered .ok (totalsEntry 5 { cmds := 9 })) = true ∧
    after (.counterRead hdr 1 five) counted (answered .ok (totalsEntry 5 {})) = true ∧
    after (.counterRead hdr 2 five) counted (answered .ok (totalsEntry 5 { cmds := 7 })) = true ∧
    after (.counterRead hdr 3 five) counted (answered .ok (totalsEntry 5 { cmds := 4 })) = true ∧
    after (.counterRead obs 2 five) counted (answered .denied []) = true ∧
    after (.counterRead obs 3 five) counted (answered .denied []) = true := by decide +kernel

/-- The same from a core that is lost, and from one that is silent, which the hub waits for. -/
theorem test_counter_reads_of_the_lost_meet :
    let lost := withAgent 5 { running with unreachable := true } hub
    let read : Instr := .counterRead hdr 0 five
    lost.admits 0x0600 hdr = true ∧ (lost.taken hdr).silent 5 = false ∧ silent.admits 0x0600 hdr = true ∧
    (silent.taken hdr).silent 5 = true ∧
    after read lost (answered .unreachable (unitsBody [5])) = true ∧
    after read silent (fun h => h.slot.map (·.prog) == some (.gather [5] read)) = true ∧
    after (.counterSnapshotRead hdr five) counted (answered .ok (zeros 8 ++ (counted.bankEntry 5).bytes 5)) = true ∧
    after (.counterSnapshotRead obs five) counted (answered .ok (zeros 8)) = true ∧
    after (.counterClear hdr five) (withAgent 5 { running with queues := [(0, { hwm := 3, bins := List.replicate 8 1 })] } hub)
      (fun h => answered .ok [1, 0, 0, 0, 0, 0, 0, 0] h && (mapGet {} (h.agent 5).queues 0).hwm == 0) = true ∧
    after (.counterClear hdr five) lost (answered .ok [0, 0, 0, 0, 1, 0, 0, 0]) = true := by decide +kernel

/-- An aggregate of the first and the last quantity, and of an Observer; its result. -/
theorem test_aggregate_meets :
    let e : Exec := { opcode := 0x0601, hdr := hdr, transport := .jtag, startPt := 0, prog := .aggregate 0x0100 .chip [5] }
    let c := { combine [] [rootSlot] with quantity := 0x0100, op := 2, issuer := .aggregate, result := some one }
    let done := { collecting c with slot := some e }
    hub5.admits 0x0601 hdr = true ∧ quantityOp 0x0100 = some 2 ∧ quantityOp 0x0401 = some 2 ∧ quantityOp 0x0402 = none ∧
    scopeFault five 2 = none ∧ (hub5.taken hdr).collectRoom .aggregate = true ∧ observerQuantity 0x0110 = true ∧
    observerQuantity 0x0100 = false ∧ done.combine 9 = some c ∧ done.transport = .jtag ∧
    after (.counterAggregate hdr 0x0401 five) hub5 (fun h => h.slot.map (·.prog) == some (.aggregate 0x0401 .mask [5]) &&
      h.dcn.combines.map (fun c => (c.quantity, c.op)) == [(0x0401, 2)]) = true ∧
    after (.counterAggregate obs 0x0100 five) hub5 (answered .denied []) = true ∧
    after (.counterAggregate obs 0x0110 five) hub5 (fun h => h.slot.map (·.opcode) == some 0x0601) = true ∧
    after (.combineResult 9) done (fun h => h.slot.isNone &&
      answered .ok (done.aggregateBody c one 0x0100 [5] false) h) = true := by decide +kernel

/-- A freeze at the end of its window; one that an Observer asks to hold, or while the hub measures. -/
theorem test_counter_freeze_meets :
    hub5.admits 0x0602 hdr = true ∧ hub5.admits 0x0602 obs = true ∧ scopeFault five 9 = none ∧ hub5.measuring = false ∧
    (hub5.taken hdr).issueAt 1 = 40000000 ∧ leadInstant 40000000 200 30000 40030000 = some 40030000 ∧
    after (.counterFreeze hdr 40030000 2 five) { hub5 with arrays := { freezeId := 0xFFFFFFFF } } (fun h =>
      h.arrays.freezeId == 0 && h.slot.map (·.prog) == some (.freeze 40030000 0) &&
      (h.arrays.freezes.map fun f => (f.freezeId, f.instant, f.mode)) == [(0, 40030000, 2)] &&
      h.out.any fun o => match o with | .bcast b => b.cls == 1 && b.instant == 40030000 | _ => false) = true ∧
    after (.counterFreeze obs 40030000 2 five) hub5 (answered .denied []) = true ∧
    after (.counterFreeze obs 40030000 0 five) hub5 (fun h => h.slot.isSome) = true ∧
    after (.counterFreeze hdr 0 0 five) { hub5 with sight := { state := .measuring } } (answered .badState []) = true := by
  decide +kernel

/-- The freeze at an agent: taken, refused while a snapshot is held, and the held one released. -/
theorem test_freeze_instant_meets :
    let cnt : Cnt := { light := { cmds := 9 }, unpushed := { cmds := 2 }, busyPt := 40000000 }
    let armed (c : Cnt) (arg : W32) := withAgent 5 { running with cnt := c, armed := [(1, { stopArmed with arg := arg })] } hub
    let hold := { cnt with snapState := 2, snap := { cmds := 1 } }
    (armed cnt 0x40000003).dueAt 5 1 = some { stopArmed with arg := 0x40000003 } ∧ bits (0x40000003 : W32).toNat 31 30 = 1 ∧
    bits (0x80000003 : W32).toNat 31 30 = 2 ∧
    after (.freezeInstant 5) (armed cnt 0x40000003) (fun h => (h.agent 5).cnt.snap.cmds == 9 && (h.agent 5).cnt.snapState == 2 &&
      (h.agent 5).cnt.snapPt == 40000000 && (h.agent 5).cnt.unpushed == {} && (h.agent 5).cnt.tagged.length == 1) = true ∧
    after (.freezeInstant 5) (armed hold 3) (fun h => (h.agent 5).cnt.snap.cmds == 1 && (h.agent 5).cnt.refused) = true ∧
    after (.freezeInstant 5) (armed hold 0x80000003) (fun h => (h.agent 5).cnt.snap.cmds == 1 &&
      (h.agent 5).cnt.snapState == 1) = true := by decide +kernel

/-- The pushes of an agent: of each microsecond, and the tagged one. -/
theorem test_pushes_meet :
    let push : TaggedPush := { incr := { cmds := 2 }, freezeId := 3, snapPt := 1, late := false, state := 1 }
    let pushed := withAgent 5 { running with cnt := { tagged := [push, push] } } hub
    counted.pt % 1000 = 0 ∧ counted.retired 5 = false ∧ (counted.agent 5).replicaLoaded = true ∧
    (counted.agent 5).cnt.tagged = [] ∧ pushed.retired 5 = false ∧ (atPt 40000001 counted).pt % 1000 ≠ 0 ∧
    after (.counterPush 5) counted (fun h => (h.arrayTotals 5).cmds == 9 && (h.agent 5).cnt.unpushed.cmds == 0) = true ∧
    after (.counterPush 5) (atPt 40000001 counted) (fun h => (h.arrayTotals 5).cmds == 7) = true ∧
    after (.taggedPush 5) pushed (fun h => (h.arrayTotals 5).cmds == 2 && (h.agent 5).cnt.tagged == [push]) = true ∧
    after (.taggedPush 5) counted (fun h => (h.arrayTotals 5).cmds == 7) = true := by decide +kernel

/-- What the arrays make of a freeze at F, 2 us later, and with none due. -/
theorem test_arrays_meet :
    let on (f : FreezeRun) : Hub := { counted with arrays := { counted.arrays with freezes := [f] } }
    let taken := { frozen with westTaken := true, freezeId := 0 }
    (on frozen).toTake .west = some frozen ∧ (on frozen).toFinish .west = none ∧ (on taken).toFinish .west = some taken ∧
    counted.toTake .east = none ∧
    after (.arrayProvisional .west) (on frozen) (fun h => (h.bankEntry 5).totals.cmds == 7 && (h.bankEntry 5).freezeId == 3 &&
      (h.arrays.freezes.map (·.westTaken)) == [true]) = true ∧
    after (.arrayProvisional .west) (on { frozen with pushed := [5] }) (fun h => (h.bankEntry 5).totals.cmds == 4) = true ∧
    after (.arrayProvisional .east) counted (fun h => h.arrays == counted.arrays) = true ∧
    after (.arrayFinalize .west) (on taken) (fun h => (h.arrays.freezes.map (·.westDone)) == [true] &&
      (h.bankEntry 5).quality == 3 && (h.bankEntry 5).snapPt == 39998000) = true ∧
    after (.arrayFinalize .west) (on frozen) (fun h => h.arrays == (on frozen).arrays) = true := by decide +kernel

/-! ### Trace -/

def traceSet : Hub := { hub with trace := { isSet := true, base := 0x100000000000, size := 0x40000000, mode := 2 } }

/-- TRACE_REGION_SET at its least and greatest size, each field at fault; while a source is enabled; TRACE_RESTART. -/
theorem test_trace_region_meets :
    let enabled := { hub with trace := { collectors := [(0, { mirrors := [(0, { trace := 1 })] })] } }
    let set (base size : W64) (mode flags : Byte) (k : W64) := Instr.traceRegionSet hdr base size mode flags k
    let bad (i : Instr) (o : Nat) := after i traceSet (answered .badArg (badArgBody o 0))
    ([0x0500, 0x0502].all fun c => hub.admits c hdr) = true ∧ enabled.tracing = true ∧ hub.tracing = false ∧
    traceSizeBad 0x40000000 = false ∧ traceSizeBad 0x1000000000 = false ∧ hub.traceBaseBad 0x100000000000 0x1000000000 = false ∧
    hub.traceBaseBad 1 1 = true ∧ hub.traceBaseBad 0x100000000000 1 = false ∧ hub.traceBaseBad 0x180000000000 0x1000000000 = false ∧
    after (set 0x100000000000 0x40000000 2 1 0x7FFFF) traceSet (fun h =>
      h.trace.isSet && h.trace.k == 0x7FFFF && h.trace.onHang && answered .ok [] h) = true ∧
    after (set 0x100000000000 0x40000000 2 1 0) enabled (answered .badState []) = true ∧
    bad (set 1 0x40000000 2 1 0) 0 = true ∧ bad (set 0x100000000000 1 2 1 0) 8 = true ∧
    bad (set 0x100000000000 0x40000000 3 1 0) 16 = true ∧ bad (set 0x100000000000 0x40000000 2 2 0) 17 = true ∧
    bad (set 0x100000000000 0x40000000 2 1 0x80000) 24 = true ∧
    after (.traceRestart hdr) { traceSet with trace := { traceSet.trace with triggerTaken := true, ignored := 3 } } (fun h =>
      !h.trace.triggerTaken && h.trace.ignored == 0 && h.trace.isSet) = true := by decide +kernel

/-- TRACE_QUERY at its bounds, and what ends it: no collector left, MAX_MATCHES found; TRACE_STATUS. -/
theorem test_trace_query_meets :
    let q : QuerySpec := {
      collectors := 0xFFFFFFFF, types := 0xFFFF, always := 0, startCollector := 31, ptFrom := 0, ptTo := 0, tag := 0
      tagMask := 0, startLineSeq := 0, maxMatches := 0x1000000, sources := List.replicate 16 (0, 0) }
    let run : QueryRun := { spec := { q with maxMatches := 1 }, todo := [], finish := (31, 0), observer := none }
    let found := { run with todo := [(0, 9)], place := some (2, 5), scan := { count := 1, items := [queryItem none 0 4 0 7] } }
    let on (r : QueryRun) : Hub := { traceSet with
      slot := some { opcode := 0x0505, hdr := hdr, transport := .jtag, startPt := 0, prog := .query r } }
    ([0x0505, 0x0506].all fun c => hub.admits c hdr) = true ∧ queryFault q = none ∧ (on found).oldestLine 0 = 0 ∧
    queryFault { q with startCollector := 32 } = some 7 ∧ queryFault { q with maxMatches := 0 } = some 40 ∧
    after (.traceQuery hdr q) traceSet (fun h => (h.slot.map fun e => match e.prog with
      | .query r => r.todo.map (·.1)
      | _ => []) == some [31]) = true ∧
    after (.traceQuery hdr { q with maxMatches := 0 }) hub (answered .badArg (badArgBody 40 0)) = true ∧
    answered .ok (run.scan.tail (31, 0) false false) ((on run).queryStep []) = true ∧
    answered .ok (queryItem none 0 4 0 7 ++ found.scan.tail (0, 5) true false) ((on found).queryStep []) = true ∧
    after (.traceStatus hdr) traceSet (fun h => h.out.length == 1) = true := by decide +kernel

/-- TRACE_CONFIG in its window, at its limits, with a silent core; Marks and triggers in their windows. -/
theorem test_trace_config_and_marks_meet :
    let all : TraceEntry := ⟨sourceOf 5 0 |>.setWidth 32, 0xFFFFF, 0x1F⟩
    let busy : Hub := { hub5 with sight := { state := .measuring } }
    ([0x0501, 0x0503, 0x0504].all fun c => hub5.admits c hdr && busy.admits c hdr) = true ∧ hub5.measuring = false ∧
    busy.measuring = true ∧ (hub5.taken hdr).traceUnits [all] = [5] ∧ (hub5.agent 5).applyUntil ≤ hub5.pt ∧
    (hub5.taken hdr).commitInstant [5] 40030000 = some 40030000 ∧ (hub5.taken hdr).commitInstant [5] 1 = none ∧
    (hub5.taken hdr).markAt 40001000 = some 40001000 ∧ (hub5.taken hdr).markAt 40030000 = some 40030000 ∧
    (hub5.taken hdr).markAt 1 = none ∧ traceSet.trace.triggerActs = true ∧ hub.trace.triggerActs = false ∧
    after (.traceConfig hdr 40030000 [all]) hub5 (fun h => answered .ok (le 8 40030000 ++ [1, 0, 0, 0, 0, 0, 0, 0]) h &&
      memRead (h.agent 5).staging 0 8 == [0x1F, 0, 0, 0, 0, 0, 0, 0]) = true ∧
    after (.traceConfig hdr 1 [all]) hub5 (answered .badArg (badArgBody 0 0)) = true ∧
    after (.traceConfig hdr 0 [all]) silent (fun h => h.slot.map (·.prog) == some (.gather [5] (.traceConfig hdr 0 [all]))) = true ∧
    after (.traceMark hdr 40001000 0x77) hub (fun h => answered .ok (le 8 40001000 ++ [1, 0, 0, 0]) h &&
      (h.collector 31).marks.map (fun m => (m.value, m.trigger)) == [(0x77, false)]) = true ∧
    after (.traceMark hdr 1 0x77) hub (answered .badArg (badArgBody 0 0)) = true ∧
    after (.traceTrigger hdr 40030000 0x77) traceSet (fun h => h.trace.triggerTaken &&
      (h.collector 0).marks.map (fun m => (m.instant, m.trigger)) == [(40030000, true)]) = true ∧
    after (.traceTrigger hdr 40030000 0x77) hub (fun h => h.trace.ignored == 1 && h.trace.markId == 0) = true ∧
    after (.traceTrigger hdr 1 0x77) hub (answered .badArg (badArgBody 0 0)) = true ∧
    ([Instr.traceConfig hdr 0 [], .traceMark hdr 0 0, .traceTrigger hdr 0 0].all fun i => after i busy (answered .badState [])) = true := by
  decide +kernel

/-- Engine 0 of core 5, tracing everything. -/
def traced (e : Engine) (c : Collector) : Hub :=
  { withAgent 5 { running with engines := [(0, e)] } traceSet with
    trace := { traceSet.trace with collectors := [(5, { c with mirrors := [(0x50, { trace := 0x1F })] })] } }

def fullIntake : List Rec := List.replicate 512 { typ := 1, source := 0x50, pt := 1, tag := 0, payload := 0 }

/-- It begins, ends, switches its model and passes a barrier; a full intake drops the record, and so does a frozen
collector. -/
theorem test_engine_trace_meets :
    let all : Engine := { trace := 0x1F }
    let run : Engine := { all with running := some { tag := 3, beginPt := 9, traced := true, sampled := false } }
    let barrier : Instr := .traceRecord 0x50 (.barrier 7 1 2)
    let kept (i : Instr) (e : Engine) := after i (traced e {}) fun h => (h.collector 5).accepted == 1 &&
      (mapGet {} (h.collector 5).mirrors 0x50).written == 1
    sourceUnit 0x50 = 5 ∧ sourceEngine 0x50 = 0 ∧ collectorOf 5 = 5 ∧ emits 5 0 = (true, true, true) ∧
    ([1, 2, 3, 4].all fun b => all.wants b) = true ∧ all.kM1 = 0 ∧ ((traced all {}).agent 5).engineGated 0 = false ∧
    ((traced all {}).agent 5).replicaLoaded = true ∧ ((traced run {}).agent 5).stepRun = none ∧
    ((traced all { intake := fullIntake }).collector 5).held = 512 ∧ ((traced all {}).collector 5).held = 0 ∧
    after (.traceRecord 0x50 (.begin 7 1)) (withAgent 5 { running with gated := true } hub) (fun h => (h.agent 5).engines == []) = true ∧
    after (.traceRecord 0x50 (.begin 7 1)) (traced all {}) (fun h =>
      (((h.agent 5).engine 0).running.map fun r => (r.tag, r.beginPt)) == some (7, 40000000)) = true ∧
    kept (.traceRecord 0x50 (.begin 7 1)) all = true ∧ kept (.traceRecord 0x50 (.finish 3 false)) run = true ∧
    kept (.traceRecord 0x50 (.modelSwitch 7 1)) all = true ∧ kept barrier all = true ∧
    after (.traceRecord 0x50 (.finish 3 false)) (traced run {}) (fun h => ((h.agent 5).engine 0).running.isNone) = true ∧
    after (.traceRecord 0x50 (.finish 4 false)) (traced run {}) (fun h => ((h.agent 5).engine 0).running.isSome) = true ∧
    after barrier (traced {} {}) (fun h => (h.collector 5).accepted == 0) = true ∧
    after barrier (traced all { frozen := true }) (fun h => (h.collector 5).frozenDrops == 1) = true ∧
    (match exec barrier (st (traced all { intake := fullIntake })) with
      | .next t => (t.hub.collector 5).dropped == 1 && (mapGet {} (t.hub.collector 5).mirrors 0x50).drops == 1
      | _ => false) = true := by decide +kernel

def traceRec (n : Nat) : Rec := { typ := 1, source := 0x50, pt := n, tag := 3, payload := 5 }

/-- A full line of the last collector goes to memory, and nothing else of memory changes; one of a single record does once it
is 10 us old. -/
theorem test_line_write_meets :
    let four := [traceRec 1, traceRec 2, traceRec 3, traceRec 4]
    let h1 (l : List Rec) (since : Nat) : Hub := { traceSet with
      trace := { traceSet.trace with collectors := [(31, { line := l, lineSincePt := since })] } }
    let a := traceSet.trace.lineAddr 31 0
    let wrote (l : List Rec) (since : Nat) (q : State → Bool) : Bool := match exec (.lineWrite 31) (st (h1 l since)) with
      | .next t => q t
      | _ => false
    (h1 four 0).collecting1 31 = true ∧ ((h1 four 0).fillLine 31 |>.collector 31).line.length = 4 ∧ memWf (st hub).mem = true ∧
    hub.collecting1 31 = false ∧
    (wrote four 40000000 fun t => (t.hub.collector 31).lineSeq == 1 && memRead t.mem a 64 == lineBytes four &&
      memByte t.mem (a + 64) == 0) = true ∧
    (wrote [traceRec 1] 39990000 fun t => (t.hub.collector 31).lineSeq == 1 && memRead t.mem a 64 == lineBytes [traceRec 1]) = true ∧
    (wrote [traceRec 1] 39990001 fun t => (t.hub.collector 31).lineSeq == 0 && t.mem == []) = true := by decide +kernel

/-- Gap, periodic Fix, Marks and Closed of a collector that waits for room in its line, and of one that has room; a frozen
one writes none. -/
theorem test_collector_events_meet :
    let line := [traceRec 1, traceRec 2, traceRec 3, traceRec 4]
    let mark : MarkReq := { instant := 40000000, value := 1, origin := 0, trigger := false, program := 0, markId := 1 }
    let c : Collector := { line := line, gap := some { dropped := 1, firstPt := 5, lastPt := 6, cause := 0 }, marks := [mark] }
    let h1 (c : Collector) : Hub := { traceSet with trace := { traceSet.trace with collectors := [(5, c)] } }
    let events : List Instr := [.gapClose 5, .periodicFix 5]
    c.held < 512 ∧
    after (.gapClose 5) (h1 c) (fun h => (h.collector 5).gap.isNone && (h.collector 5).intake.map (·.typ) == [6, 5]) = true ∧
    after (.gapClose 5) (h1 { c with line := [], marks := [] }) (fun h => (h.collector 5).intake == [] &&
      (h.collector 5).line.map (·.typ) == [5, 6, 5]) = true ∧
    after (.periodicFix 5) (h1 c) (fun h => (h.collector 5).intake.map (·.typ) == [5]) = true ∧
    after (.periodicFix 5) (h1 {}) (fun h => h.collector 5 == {}) = true ∧
    (events.all fun i => after i (h1 { c with frozen := true }) fun h => h.collector 5 == { c with frozen := true }) = true ∧
    after (.markInstant 5) (h1 c) (fun h => (h.collector 5).marks == [] && (h.collector 5).intake.map (·.typ) == [7]) = true ∧
    after (.triggerInstant 5) (h1 c) (fun h => h.collector 5 == c) = true ∧
    after (.triggerInstant 5) (h1 { c with marks := [{ mark with trigger := true }] }) (fun h => (h.collector 5).marks == []) = true ∧
    after (.sourceClosed 0x50) (h1 { line := line, mirrors := [(0x50, { closing := some (1, 40000000) })] }) (fun h =>
      (mapGet {} (h.collector 5).mirrors 0x50).closing.isNone && (h.collector 5).intake.length == 1) = true ∧
    after (.sourceClosed 0x50) (h1 c) (fun h => h.collector 5 == c) = true ∧
    after (.collectorWake 5) { h1 { c with frozen := true } with power := { hub.power with domains := 1 } } (fun h =>
      [2, 3, 4, 5, 18].all fun d => h.domainOn d) = true ∧
    after (.collectorWake 5) { h1 c with power := { hub.power with domains := 1 } } (fun h => !h.domainOn 2) = true := by decide +kernel

/-! ### Soundings -/

/-- A sounding of core 5 alone. -/
def fiveSpec : SoundingSpec := { plainSounding with scope := five, stats := 1 }

def armedSounding : Sounding := { armed := true, periodNs := 1000000, depth := 1, stats := 1, owner := 1, tc := 1, lastPt := 39000000 }

/-- Sounding 0 armed, 255 armed by an Observer. -/
def sounding2 : Hub := { hub5 with soundings := [(0, armedSounding), (255, { armedSounding with observer := some 5 })] }

def measuring5 : Hub := { hub5 with sight := { state := .measuring } }

/-- SOUNDING_SET: taken; its number busy; the hub measuring; an Observer's PERSIST; a field at fault; TC before its window;
a silent core. -/
theorem test_sounding_set_meets :
    let sc := scopeOf five ((hub5.taken hdr).session 1)
    let set (p : SoundingSpec) := Instr.soundingSet hdr p
    hub5.admits 0x0700 hdr = true ∧ hub5.admits 0x0700 obs = true ∧ ((hub5.taken hdr).session 1).isSome = true ∧
    ((hub5.taken obs).session 2).map (·.role) = some .observer ∧
    (hub5.sounding 0).isBusy hub5.pt = false ∧ hub5.measuring = false ∧ (hub5.taken hdr).soundFault fiveSpec sc.1 sc.2 = none ∧
    (hub5.taken hdr).tapUnits sc.1 sc.2 1 = [5] ∧ (hub5.taken hdr).commitInstant [5] 0 ≠ none ∧ (silent.taken hdr).silent 5 = true ∧
    (hub5.taken hdr).commitInstant [5] 1 = none ∧ (hub5.taken hdr).soundFault { fiveSpec with depth := 65 } sc.1 sc.2 = some 9 ∧
    after (set fiveSpec) hub5 (fun h => (h.sounding 0).armed && (h.sounding 0).owner == 1 && (h.sounding 0).periodNs == 1000000 &&
      answered .ok (le 8 (h.sounding 0).tc ++ [1, 0, 0, 0]) h) = true ∧
    after (set fiveSpec) sounding2 (answered .badState []) = true ∧
    after (set fiveSpec) measuring5 (answered .badState []) = true ∧
    after (.soundingSet obs { fiveSpec with persist := 1 }) hub5 (answered .denied []) = true ∧
    after (set { fiveSpec with depth := 65 }) hub5 (answered .badArg (badArgBody 9 0)) = true ∧
    after (set { fiveSpec with tc := 1 }) hub5 (answered .badArg (badArgBody 40 0)) = true ∧
    after (set fiveSpec) silent (fun h => h.slot.map (·.prog) == some (.gather [5] (set fiveSpec))) = true := by decide +kernel

/-- The session's key, the end of a sounding, reads of results, the status. -/
theorem test_soundings_meet :
    ([0x0701, 0x0702, 0x0703, 0x0704].all fun c => hub5.admits c hdr) = true ∧ hub5.admits 0x0703 obs = true ∧
    (sounding2.sounding 255).isArmed sounding2.pt = true ∧ (sounding2.sounding 255).td = none ∧
    (sounding2.taken hdr).commitInstant ((sounding2.taken hdr).holders 255) 40030000 = some 40030000 ∧
    (sounding2.taken hdr).commitInstant ((sounding2.taken hdr).holders 255) 1 = none ∧
    after (.soundingClear hdr 255 40030000) sounding2 (fun h => (h.sounding 255).td == some 40030000) = true ∧
    after (.soundingClear hdr 255 1) sounding2 (answered .badArg (badArgBody 8 0)) = true ∧
    after (.soundingClear hdr 1 0) sounding2 (answered .badState []) = true ∧
    after (.soundingKey hdr (List.replicate 16 0xAB)) hub (fun h => (h.session 1).map (·.soundKey) == some (List.replicate 16 0xAB) &&
      (h.session 2).map (·.soundKey) == some (List.replicate 16 0)) = true ∧
    after (.soundingRead obs 255 8 0) sounding2 (answered .ok []) = true ∧
    after (.soundingRead obs 0 8 0) sounding2 (answered .denied []) = true ∧
    after (.soundingStatus hdr) sounding2 (fun h => !h.out.isEmpty) = true := by decide +kernel

/-- A beat at a tapped engine, to external memory and to slice SRAM; at a gated one. -/
theorem test_beats_meet :
    let beat : Beat := { address := 0x1000, tag := 3, outBase := 0x1000, data := [1, 2, 3, 4], scales := [] }
    let wrote (a : Nat) (q : State → Bool) : Bool := match exec (.writebackBeat 5 1 { beat with address := a }) (st hub5) with
      | .next t => q t
      | _ => false
    let slice := hub5.chip.slices
    tapEngines 5 = 2 ∧ (hub5.agent 5).engineGated 1 = false ∧ hub5.sliceAt 0x1000 = none ∧
    inMemory hub5.chip.tier1 0x1000 4 = true ∧ memWf (st hub5).mem = true ∧ hub5.sliceAt slice = some (0x3000, 0) ∧
    (wrote 0x1000 fun t => memRead t.mem 0x0FFF 6 == [0, 1, 2, 3, 4, 0] && ((t.hub.agent 5).engine 1).beatNumber 3 == 1) = true ∧
    (wrote slice fun t => t.mem == [] && (t.hub.agent 0x3000).sram == sramWrite [] 0 [1, 2, 3, 4]) = true ∧
    after (.writebackBeat 5 1 beat) (withAgent 5 { running with gated := true } hub) (fun h => h.out == []) = true := by decide +kernel

/-- A posting from its instant to its slot; one not due, one not in yet; of a ring with room, and of a full one. -/
theorem test_postings_meet :
    let on := { hub5 with soundings := [(0, armedSounding)] }
    let p : Posting := { instant := 40000000, fromPt := 39000000, periods := 1, final := false }
    let due := { hub5 with soundings := [(0, { armedSounding with posting := some p })] }
    let full : Posting := { p with words := (wordsFor 1).map fun w => (w, {}) }
    let done (ring : List (List Byte)) : Hub := { hub5 with soundings := [(0, { armedSounding with ring := ring, posting := some full })] }
    (armedSounding.due 40000000) = some (40000000, 1, false) ∧ (armedSounding.due 39000000) = none ∧ on.olderDue 0 armedSounding = false ∧
    on.postingRoom = true ∧ on.soundBudget ≤ 11 * on.pt ∧ on.accepting = true ∧ (due.agent 5).replicaLoaded = true ∧
    (due.agent 5).inScope 5 (postScope .chip) 5 = true ∧ full.words.length = (wordsFor 1).length ∧ (done []).slot = none ∧
    after (.postingInstant 0) on (fun h => ((h.sounding 0).posting.map fun p => (p.instant, p.fromPt)) == some (40000000, 39000000)) = true ∧
    after (.postingInstant 0) { on with soundBudget := 11 * 40000000 + 1 } (fun h => (h.sounding 0).posting.isNone) = true ∧
    after (.postingEdge 5 0) due (fun h => h.agent 5 == running.postEdge 0 40000000) = true ∧
    after (.postingEdge 5 0) on (fun h => h.agent 5 == running) = true ∧
    after (.postingWrite 0) due (fun h => (h.sounding 0).posting.isSome) = true ∧
    after (.postingWrite 0) (done []) (fun h => (h.sounding 0).ring.length == 1 && (h.sounding 0).overwritten == 0) = true ∧
    after (.postingWrite 0) (done [[1]]) (fun h => (h.sounding 0).postSeq == 1 && (h.sounding 0).posting.isNone &&
      (h.sounding 0).ring.length == 1 && (h.sounding 0).overwritten == 1) = true := by decide +kernel

/-! ### Replay, the command front end, the dump -/

/-- REPLAY whose one input is not as expected, and one whose input is; refused; the status. -/
theorem test_replay_meets :
    let good : ReplaySpec := { plainReplay with origUnit := 5, spare0 := 6, ranges := [⟨0, 0, elementHash (zeros 16) 2 0 0 0, 1, 2⟩] }
    let bad : ReplaySpec := { good with ranges := [⟨0, 0, 1, 4, 2⟩] }
    hub5.admits 0x0705 hdr = true ∧ hub5.admits 0x0706 hdr = true ∧ (replaySpares good).length ≤ (hub5.taken hdr).freeSoundings.length ∧
    (hub5.taken hdr).replayFault good = none ∧ (hub5.taken hdr).replayFault bad = none ∧
    (hub5.taken hdr).replayFault { good with options := 2 } = some 72 ∧
    ((hub5.taken hdr).readInputs [] (List.replicate 16 0) bad.ranges).2 = false ∧
    ((hub5.taken hdr).readInputs [] (List.replicate 16 0) good.ranges).2 = true ∧
    after (.replay hdr bad) hub5 (fun h => h.replayStat.verdict == 6 && h.slot.isNone && h.out.length == 1) = true ∧
    after (.replay hdr good) hub5 (fun h => (h.sounding 255).armed && (h.sounding 255).ctrl.getLsbD 3 &&
      h.slot.any fun e => match e.prog with
      | .replay r => r.numbers == [255] && r.armAt.isSome
      | _ => false) = true ∧
    after (.replay hdr good) measuring5 (answered .badState []) = true ∧
    after (.replay hdr { good with options := 2 }) hub5 (answered .badArg (badArgBody 72 0)) = true ∧
    after (.replayStatus hdr) hub5 (fun h => h.out.length == 1) = true := by decide +kernel

def feReq (r : FeRequest) (us : List UnitId) (sent : Nat) : FeReq := { req := r, units := us, sentPt := sent }

/-- A hub with one request outstanding; core 5 runs a command, and a reissued run. -/
def waiting (q : FeReq) : Hub := {
  withAgent 5 { running with engines := [(0, { running := some { tag := 3, beginPt := 0, traced := false, sampled := false } })] } hub with
  fe := { requests := [q], quiesced := [6], runs := [{ unit := 5, engine := 0, scratch := 0, startPt := 0 }] } }

/-- Each answer of the front end to a request that waits for it, at the end of its bound; and one too late. -/
theorem test_front_end_meets :
    let at_ (r : FeRequest) (us : List UnitId) := waiting (feReq r us (40000000 - feBound r))
    (waiting (feReq .resume [5] 0)).slot = none ∧ (at_ .resume [5]).patRun = none ∧ (at_ .reissue [6]).replayRun 6 = none ∧
    (at_ .dumpModeEnter []).waitingDump = none ∧
    after (.frontEndAnswer (.dropped 9)) (at_ .dropInflight []) (fun h => h.fe.requests == [] && h.fe.runs == [] &&
      h.fe.droppedRuns.map (·.unit) == [5] && ((h.agent 5).engine 0).running.isNone) = true ∧
    after (.frontEndAnswer (.quiesced [5])) (at_ .quiesce [5]) (fun h => h.fe.quiesced.contains 5) = true ∧
    after (.frontEndAnswer .resumed) (at_ .resume [6]) (fun h => h.fe.quiesced == []) = true ∧
    after (.frontEndAnswer .resumed) (waiting (feReq .resume [6] (39999999 - feBound .resume))) (fun h => h.fe.quiesced == [6] &&
      h.fe.requests.length == 1) = true ∧
    after (.frontEndAnswer (.reissueAccepted 6 true)) (at_ .reissue [6]) (fun h => h.fe.runs.map (·.unit) == [5, 6]) = true ∧
    after (.frontEndAnswer (.reissueAccepted 6 false)) (at_ .reissue [6]) (fun h => h.fe.runs.map (·.unit) == [5]) = true ∧
    after (.frontEndAnswer .dumpModeEntered) (at_ .dumpModeEnter []) (fun h => h.fe.dumpMode) = true ∧
    after (.frontEndAnswer .dumpModeExited) (at_ .dumpModeExit []) (fun h => !h.fe.dumpMode) = true := by decide +kernel

/-- A request at its bound, and before it; the end of a reissued run, of a replay's run, and with no run. -/
theorem test_front_end_ends_meet :
    let late := waiting (feReq .quiesce [5] (40000000 - feBound .quiesce))
    let soon := waiting (feReq .quiesce [5] 40000000)
    let rep : ReplayRun := { spec := plainReplay, key := [], spares := [5], numbers := [255] }
    let replays := { late with slot := some (execOf 0x0705 (.replay rep)) }
    late.slot = none ∧ replays.replayRun 5 = some rep ∧ replays.patRun = none ∧
    after (.frontEndTimeout .quiesce) late (fun h => (h.fc.source 0xFC1).count == 1 && h.fe.requests == []) = true ∧
    after (.frontEndTimeout .quiesce) soon (fun h => h.fe.requests.length == 1) = true ∧
    after (.reissueEnd 5 false) late (fun h => h.fe.runs == [] && ((h.agent 5).engine 0).running.isNone) = true ∧
    after (.reissueEnd 5 false) replays (fun h => h.fe.runs == [] && (h.sounding 255).postAt == some 40000200) = true ∧
    after (.reissueEnd 5 false) (withAgent 5 { late.agent 5 with gated := true } late) (fun h => h.fe.runs.length == 1) = true ∧
    after (.reissueEnd 6 false) late (fun h => h.fe.runs.length == 1) = true := by decide +kernel

/-- A dump region is set, with one image registered and an image in it. -/
def dumpSet : Hub := { hub with dump := {
  isSet := true, base := 0x100000000000, size := 0x40000000, dumpId := 6, state := true, imageBytes := 512, hasImage := true
  images := [{ index := 0, imageId := zeros 32, length := 0, granules := 0 }] } }

/-- DUMP_REGION_SET at its bounds, its base and its size at fault; the registry; DUMP_FETCH at the end of the image. -/
theorem test_dump_region_meets :
    ([0x0400, 0x0402, 0x0403, 0x0404, 0x0405, 0x0406].all fun c => hub.admits c hdr) = true ∧
    inMemory hub.chip.tier2 0x100000000000 0x100000000 = true ∧
    after (.dumpRegionSet hdr 0x100000000000 0) dumpSet (fun h => h.dump.size == 0x40000000 && h.dump.images == [] && answered .ok [] h) = true ∧
    after (.dumpRegionSet hdr 0x100000000000 0x100000000) hub (fun h => h.dump.isSet && h.dump.size == 0x100000000) = true ∧
    after (.dumpRegionSet hdr 0x100000000001 0) hub (answered .badArg (badArgBody 0 0)) = true ∧
    after (.dumpRegionSet hdr 0x100000000000 0x110000000) hub (answered .badArg (badArgBody 8 0)) = true ∧
    after (.dumpImageRegister hdr (zeros 32) 0 0) hub (answered .badState []) = true ∧
    lowestFree (dumpSet.dump.images.map (·.index)) 4096 = some 1 ∧
    after (.dumpImageRegister hdr (List.replicate 32 1) 0 0) dumpSet (answered .ok [1, 0, 0, 0, 1, 0, 0, 0]) = true ∧
    after (.dumpImageRemove hdr 0) dumpSet (fun h => h.dump.images == [] && answered .ok [1, 0, 0, 0] h) = true ∧
    after (.dumpImageRemove hdr 1) dumpSet (answered .badArg (badArgBody 0 0)) = true ∧
    after (.dumpFetch hdr 6 510 2) dumpSet (answered .ok [0, 0]) = true ∧
    after (.dumpFetch hdr 6 510 3) dumpSet (answered .badArg (badArgBody 16 0)) = true ∧
    after (.dumpFetch hdr 7 0 1) dumpSet (answered .badState []) = true := by decide +kernel

/-- A chip-scope stop is complete. -/
def dumpReady : Hub := { dumpSet with stops := { newest := some { stopDue with complete := true } } }

def dumpRun : DumpRun := {
  flags := 0, regions := [], dumpId := 6, startPt := 0, unsighted := true, claim := 1, hangId := 0, todo := [(5, 0), (6, 0)] }

def dumping (r : DumpRun) : Hub := { dumpReady with slot := some (execOf 0x0401 (.dump r)) }

/-- DUMP before and after its stop, and in dump mode; with a bad field; a unit that leaves while it runs. -/
theorem test_dump_meets :
    let inMode : Hub := { dumpReady with fe := { dumpMode := true } }
    let begun (h : Hub) (q : State → Bool) : Bool := match exec (.dump hdr 3 []) (st h) with
      | .next t => q t
      | _ => false
    hub.admits 0x0401 hdr = true ∧ dumpSet.dumpable = none ∧ dumpReady.dumpable ≠ none ∧ dumpReady.dumpFault 3 [] = none ∧
    dumpReady.dumpFault 4 [] = some 0 ∧ unitHasAgent 5 = true ∧
    after (.dump hdr 3 []) dumpSet (answered .badState []) = true ∧
    after (.dump hdr 4 []) dumpReady (answered .badArg (badArgBody 0 0)) = true ∧
    (begun dumpReady fun t => t.hub.dump.dumpId == 7 && !t.hub.dump.state && memRead t.mem 0x100001000000 8 == ascii "IXYDUMP1" &&
      t.hub.fe.requests.map (·.req) == [.dumpModeEnter]) = true ∧
    (begun inMode fun t => t.hub.fe.requests == [] && t.hub.slot.any fun e => match e.prog with
      | .dump r => r.reading && decide (256 ≤ r.cursor)
      | _ => false) = true ∧
    after (.unitPresenceChange 5 .poweredOff) (dumping dumpRun) (fun h =>
      h.slot.any fun e => match e.prog with
        | .dump r => r.todo.all (fun p => p.1 != 5 || p.2 != 0) && r.unreach.map (fun x => (x.unit, x.reason)) == [(5, 3)]
        | _ => false) = true ∧
    after (.unitPresenceChange 5 .poweredOff) dumpReady (fun h => h.slot.isNone) = true := by decide +kernel

/-- A dump that has read everything. -/
theorem test_dump_end_meets :
    let r : DumpRun := { dumpRun with todo := [], reading := true }
    ((dumping r).slot.map (·.prog)) = some (.dump r) ∧ r.done = [] ∧ r.pages = [] ∧ ((dumping r).slot.map (·.mute)) = some false := by
  decide +kernel

def boundQuery : QuerySpec := {
  collectors := 0xFFFFFFFF, types := 0xFFFF, always := 0, startCollector := 31, ptFrom := 0, ptTo := 0, tag := 0
  tagMask := 0, startLineSeq := 0, maxMatches := 1, sources := List.replicate 16 (0, 0) }

/-- The bounds of the commands, each at its bound; of a resynchronization also one ns before. -/
theorem test_bounds_meet :
    let w (n : Nat) (op : W16) (p : Prog) : Hub := atPt (39990000 + n) { dumpReady with slot := some (execOf op p) }
    let ends (n : Nat) (p : Prog) (b : List Byte) : Bool := after .opcodeBoundEnd (w n 0x0301 p) fun h => h.slot.isNone && answered .boundReached b h
    after .opcodeBoundEnd (w 2999999 0x0B01 .resync) (fun h => h.slot.isSome && h.out == []) = true ∧ ends 3000000 .resync [4] = true ∧
    ends 150000 (.cycles 40000000 5) (dumpReady.cyclesBody (execOf 0x0301 (.cycles 40000000 5)) 40000000 5) = true ∧
    ends 150000 (.stepCheck 40000000 5 true) (dumpReady.cyclesBody (execOf 0x0301 .stop) 40000000 5) = true ∧
    ends 105000 (.cmdStep 5 5) (dumpReady.stepBody 5) = true ∧ ends 250000 (.retire 5) (dumpReady.retireBody false) = true ∧
    ends 50000 (.freeze 9 1) (dumpReady.freezeBody (execOf 0x0301 .stop) 9 1) = true ∧
    after .opcodeBoundEnd (w 50000 0x0301 .stop) (fun h => h.slot.isNone && (dumpReady.stops.newest.any fun m =>
      answered .boundReached (dumpReady.stopBody m) h)) = true ∧
    ends 2000000000 (.query { spec := boundQuery, todo := [], finish := (31, 0), observer := none }) (({} : Scan).reply (31, 0) false true) = true ∧
    ends 2000000000 (.replay { spec := plainReplay, key := [], spares := [5], numbers := [255] }) ({} : ReplayStat).bytes = true ∧
    ends 1000000 (.access 5 (.regWrite hdr 0x1005800 [0])) (le 2 0) = true ∧
    ends 105000 (.access 5 (.stepCommand hdr 0 5 0 5)) (dumpReady.stepBody 5) = true ∧
    ends 10000000 (.gather [5, 6] (.counterRead hdr 0 { scope := 0, sel := 0, units := [] })) [] = true ∧
    ends 500000 (.gather [5, 6] (.counterClear hdr { scope := 0, sel := 0, units := [] })) (le 4 0 ++ le 4 2) = true ∧
    after .opcodeBoundEnd (w 2000000000 0x0401 (.dump { dumpRun with reading := true })) (fun h => h.slot.isNone && h.dump.state) = true ∧
    hub.boundNs (execOf 0x0C01 .lifecycle) = none ∧ hub.transport = .jtag ∧
    ([.cancel, .lifecycle, .inject, .resume 9, .aggregate 0 .chip [], .access 5 (.inspectWrite hdr 5 0 0 [])].all fun p =>
      after .opcodeBoundEnd (w 20000000000 0x0301 p) fun h => h.slot.isSome && h.out == []) = true ∧
    after .opcodeBoundEnd hub (fun h => h.out == []) = true := by decide +kernel

/-! ### The pattern store -/

/-- The head and the one body of a pattern pack of 560 octets (Tables 14-1 and 14-2): a fleet operator's in slot 0, for
M-core engine 0, one FP16 output element, one operand area of 64 octets. -/
def packBody : List Byte :=
  ascii "IXYPACK1" ++ [1, 0, 9, 1] ++ zeros 4 ++ le 8 0xABCDEF ++ le 4 3 ++ le 2 1 ++ zeros 2 ++ le 8 560 ++ zeros 24 ++
    le 2 5 ++ [0, 0, 2, 1, 0, 0] ++ le 4 8 ++ le 4 1 ++ zeros 36 ++ le 4 64 ++ zeros 88 ++ le 8 288 ++ zeros 136

/-- The public key of the scalar 1. -/
def testKey : List Byte := [0x04] ++ be 48 p384Gx ++ be 48 p384Gy

/-- The pack, signed under the scalar 1 with the nonce 1: r is the generator's x, and s the digest plus r. -/
def pack : List Byte :=
  packBody ++ ascii "IXYPSIG1" ++ testKey ++ zeros 7 ++ be 48 p384Gx ++ be 48 
    10642263090674649776932637909605627181022770590845241535613118210484787658173761875770692850101268175594734272519617

/-- The fleet slot that holds the key. -/
def fleetKey : FleetSlot := { hash := sha384 testKey, revoked := false }

def store : Hub := { hub with island := { hub.island with otp := { fleet := [fleetKey] } } }

def held : Pack := { packId := 0xABCDEF, version := 3, signer := 1, slot := 0, patterns := 1, index := 0, bytes := pack }

def holding : Hub := { store with pat := { packs := [held] } }

/-- The pieces of a load: out of order, too long, not the last, and last but unsound. -/
theorem test_pack_pieces_meet :
    hub.admits 0x0A00 hdr = true ∧ store.storeSound = true ∧
    takePiece none 1 4 8 [1] = .inr 0 ∧
    after (.patternLoad hdr 4 8 0 [1]) store (answered .badArg (badArgBody 0 0)) = true ∧
    after (.patternLoad hdr 0 1 0 [1, 2]) store (fun h => answered .ok [] h && (h.pat.part.map (·.bytes)) == some [1, 2]) = true ∧
    after (.patternLoad hdr 0 2 0 [1, 2]) store (fun h => h.pat.part.isSome && answered .ok [] h) = true ∧
    after (.patternLoad hdr 0 2 1 [1, 2]) store (answered .badArg (badArgBody 0xFFFFFFFF 0)) = true ∧
    (parsePack pack).map (·.map (·.number)) = some [5] := by decide +kernel

/-- The signature holds under the key, and the key is the slot's. -/
theorem test_pack_signature : store.island.otp.packSigned pack = true := by decide +kernel

/-- A store whose flash has no block left. -/
def noFlash : Hub := { store with pat := { flash := { items := [{ data := .results [], blocks := (List.range flashBlocks).drop 2 }] } } }

theorem test_no_flash_meets : noFlash.pat.flash.freeBlocks = [] ∧ noFlash.storeSound = true ∧ noFlash.packById 0xABCDEF = none := by
  refine ⟨?_, by decide +kernel, rfl⟩
  simp [noFlash, Flash.freeBlocks, Flash.used]

/-- A sound pack with a good signature is stored and mirrored; in place of an older one. -/
theorem test_pack_is_stored :
    let old : Hub := { store with pat := { packs := [{ held with version := 2 }], results := [{ ordinal := 5, pack := 0, pattern := 5, errors := 0, pass := 1, fail := 0 }] } }
    let load : Instr := .patternLoad hdr 0 560 1 pack
    store.packById 0xABCDEF = none ∧ lowestFree (store.pat.packs.map (·.index)) 32 = some 0 ∧ held.version.toNat = fieldAt pack 24 4 % 2 ^ 32 ∧
    ({ store.pat with packs := [held] } : Patterns).pagesUsed ≤ 4096 ∧
    (pack.length + 65535) / 65536 ≤ store.pat.flash.freeBlocks.length ∧
    after load store (fun h => h.pat.packs == [held] && h.pat.flash.dirSeq == 1 && h.pat.flash.holdsPack held && answered .ok [] h) = true ∧
    old.packById 0xABCDEF = some { held with version := 2 } ∧ (2 : W32).toNat < fieldAt pack 24 4 % 2 ^ 32 ∧ old.storeSound = true := by
  decide +kernel

/-- A pack no newer than the one held; a pack whose key no slot holds; a store of 32 packs. -/
theorem test_pack_refusals_meet :
    let load : Instr := .patternLoad hdr 0 560 1 pack
    let packs := (List.range 32).map fun k => { held with packId := BitVec.ofNat 64 k, index := k, bytes := [] }
    holding.storeSound = true ∧ holding.packById 0xABCDEF = some held ∧ hub.island.otp.packSigned pack = false ∧
    lowestFree (packs.map (·.index)) 32 = none ∧
    ({ store with pat := { packs := packs } } : Hub).packById 0xABCDEF = none ∧ held.version.toNat = fieldAt pack 24 4 % 2 ^ 32 ∧
    after load hub (answered .denied []) = true := by decide +kernel

/-- A store in which another pack takes `n` octets. -/
def fullStore (n : Nat) : Hub := { store with pat := { packs := [{ held with packId := 1, bytes := List.replicate n 0 }] } }

theorem fullStore_pages (n : Nat) (q : Pack) :
    ({ (fullStore n).pat with packs := (fullStore n).pat.packs ++ [q] } : Patterns).pagesUsed = pagesOf n + pagesOf q.bytes.length := by
  simp [fullStore, Patterns.pagesUsed, Pack.pages]

theorem fullStore_room (n : Nat) : (fullStore n).packById 0xABCDEF = none ∧ (fullStore n).storeSound = true ∧
    lowestFree ((fullStore n).pat.packs.map (·.index)) 32 = some 1 :=
  ⟨rfl, (show (fullStore n).storeSound = store.storeSound from rfl).trans (by decide +kernel),
    show lowestFree [0] 32 = some 1 by decide⟩

theorem held_length : held.bytes.length = 560 := by decide +kernel

/-- With all 4,096 pages taken, it holds no pack of the new one's PACK_ID, and has no page for it. -/
theorem test_full_store_meets : ∃ h : Hub, h.packById 0xABCDEF = none ∧ h.storeSound = true ∧
    lowestFree (h.pat.packs.map (·.index)) 32 = some 1 ∧
    4096 < ({ h.pat with packs := h.pat.packs ++ [held] } : Patterns).pagesUsed :=
  ⟨fullStore 0x1000000, (fullStore_room _).1, (fullStore_room _).2.1, (fullStore_room _).2.2, by
    rw [fullStore_pages, held_length]; decide⟩

/-- PATTERN_REMOVE and PATTERN_LIST; a key registered and revoked. -/
theorem test_pack_commands_meet :
    ([0x0A01, 0x0A02, 0x0A03, 0x0A04].all fun c => holding.admits c hdr) = true ∧
    after (.patternRemove hdr 1) holding (answered .badArg (badArgBody 0 0)) = true ∧
    after (.patternRemove hdr 0xABCDEF) holding (fun h => h.pat.packs == []) = true ∧
    after (.patternKeyRegister hdr (zeros 97)) hub (answered .badArg (badArgBody 0 0)) = true ∧
    testKey.length = 97 ∧ testKey.head? = some 0x04 ∧
    after (.patternKeyRegister hdr testKey) hub (fun h => answered .ok [0] h && h.island.otp.fleet.length == 1) = true ∧
    after (.patternKeyRegister hdr testKey) { hub with island := { hub.island with otp := { fleet := List.replicate 8 { hash := [], revoked := true } } } }
      (answered .badState []) = true ∧
    after (.patternKeyRevoke hdr 1) holding (answered .badArg (badArgBody 0 0)) = true ∧
    after (.patternKeyRevoke hdr 0) holding (fun h => h.pat.packs == [] && h.island.otp.fleet.map (·.revoked) == [true]) = true := by
  decide +kernel

def runReady : Hub := { holding with dump := dumpSet.dump }

def patUnit (u : UnitId) : PatUnit := { unit := u, area := 0, accepted := true, startPt := 39000000 }

def patRun (g : List PatUnit) : PatRun := { packIndex := 0, patterns := [5], runLimit := 1000, units := [5, 6], started := true, group := g }

/-- RUN_PATTERNS barred by a stop that stands; with a number that names no pattern; accepted; and a run over its limit. -/
theorem test_run_patterns_meets :
    let runs := { runReady with slot := some (execOf 0x0A05 (.patterns (patRun [patUnit 5, patUnit 6]))) }
    runReady.admits 0x0A05 hdr = true ∧ runReady.storeSound = true ∧ runReady.dump.imageInTest = false ∧
    runReady.patternsFault 0xABCDEF 6 0 1 [] = .inl 8 ∧ runReady.patternsFault 0xABCDEF 0xFFFF 1 1 [5] = .inr held ∧
    after (.runPatterns hdr 0xABCDEF 5 0 1 [5]) { runReady with stops := { standing := [(0, .chip, [])] } } (answered .badState []) = true ∧
    after (.runPatterns hdr 0xABCDEF 6 0 1 [5]) runReady (answered .badArg (badArgBody 8 0)) = true ∧
    after (.runPatterns hdr 0xABCDEF 0xFFFF 0 1 [5]) runReady (fun h => h.fe.requests.map (·.req) == [.quiesce] &&
      h.slot.any fun e => match e.prog with | .patterns r => r.patterns == [5] && r.units == [5] | _ => false) = true ∧
    after (.runLimitExpiry 5) runs (fun h => h.fe.requests.map (fun q => (q.req, q.units)) == [(.dropInflight, [5])] &&
      h.slot.any fun e => match e.prog with | .patterns r => r.group.map (·.unit) == [6] | _ => false) = true ∧
    after (.runLimitExpiry 5) (atPt 39999999 runs) (fun h => h.fe.requests == []) = true ∧
    after .opcodeBoundEnd (atPt 10040000000 runs) (fun h => h.out == [] && h.slot.any fun e => match e.prog with
      | .patterns r => r.bound && r.todo == [] && r.group.map (·.unit) == [5, 6] | _ => false) = true := by decide +kernel

def candidate : Candidate := {
  seq := 4, source := 1, capturePt := 2, epoch := 3, verdict := 1, outFormat := 2, key := zeros 16, tile := 32
  refElements := 1, refDigest := 0, refTileDigest := 0, tiles := [], descriptor := zeros 8, ranges := [], contents := []
  outScaleBase := 0 }

def results : List ResultEntry := [{ ordinal := 5, pack := 0, pattern := 5, errors := 0, pass := 1, fail := 0 },
  { ordinal := 5, pack := 31, pattern := 1, errors := 0, pass := 0, fail := 1 }]

theorem test_results_and_candidates_meet :
    let h1 : Hub := { hub with pat := { results := results, candidates := [candidate], resultsDirty := true } }
    let flash : Flash := { items := [{ data := .cand candidate, blocks := [2] }], dirSeq := 9 }
    ([0x0A06, 0x0A07, 0x0A08, 0x0A09, 0x0A0A].all fun c => h1.admits c hdr) = true ∧ h1.storeSound = true ∧
    after (.patternResults hdr 32) h1 (answered .badArg (badArgBody 0 0)) = true ∧
    after (.patternResults hdr 31) h1 (fun h => h.out.any fun o => match o with | .reply p => p.payload.length == 16 | _ => false) = true ∧
    after (.patternResultsClear hdr 32) h1 (answered .badArg (badArgBody 0 0)) = true ∧
    after (.patternResultsClear hdr 31) h1 (fun h => h.pat.results == results.take 1) = true ∧
    after (.patternResultsClear hdr 0xFF) h1 (fun h => h.pat.results == []) = true ∧
    after (.candidateList hdr) h1 (fun h => h.out.any fun o => match o with | .reply p => p.payload.length == 24 | _ => false) = true ∧
    after (.candidateExport hdr 5) h1 (answered .badArg (badArgBody 0 0)) = true ∧
    (h1.pat.candidates.find? fun c => c.seq == 4) = some candidate ∧
    after (.candidateRemove hdr 5) h1 (answered .badArg (badArgBody 0 0)) = true ∧
    after (.candidateRemove hdr 4) h1 (fun h => h.pat.candidates == [] && answered .ok [] h) = true ∧
    after .patternReload { hub with pat := { reloading := true, flash := flash } } (fun h => !h.pat.reloading && h.pat.candidates == [candidate]) = true ∧
    hub.contentGood { data := .cand candidate, blocks := [2] } = true ∧ hub.contentGood { data := .pack held, blocks := [3] } = false ∧
    after .patternReload { hub with pat := { reloading := true, flash := { flash with items := flash.items ++ [{ data := .pack held, blocks := [3] }] } } }
      (fun h => !h.pat.reloading && h.pat.packs == [] && h.pat.candidates == [candidate] && (h.fc.source 0xFE9).count == 1) = true ∧
    after .patternReload h1 (fun h => h.pat.candidates == [candidate]) = true ∧
    ([Instr.patternReload, .resultsMirror].all fun i => after i { h1 with power := { hub.power with domains := 1 } } fun h => h.pat.resultsDirty) = true ∧
    1 ≤ h1.pat.flash.freeBlocks.length ∧
    after .resultsMirror h1 (fun h => !h.pat.resultsDirty && h.pat.lastMirrorPt == some 40000000 && h.pat.flash.dirSeq == 1) = true ∧
    after .resultsMirror { h1 with pat := { h1.pat with lastMirrorPt := some 39000000 } } (fun h => h.pat.resultsDirty) = true ∧
    after .resultsMirror hub (fun h => h.pat.flash.dirSeq == 0) = true := by
  decide +kernel

/-! ### The probe engine -/

/-- A program word of format R (and, with the low field, of format I). -/
def word (op rd ra rb imm : Nat) : W32 := BitVec.ofNat 32 (op * 2 ^ 26 + rd * 2 ^ 22 + ra * 2 ^ 18 + rb * 2 ^ 14 + imm)

def withSlot (n : Nat) (x : ProbeSlot) (h : Hub) : Hub := h.modProbe n fun _ => x

def loadedSlot : ProbeSlot := { program := [word 4 1 2 3 0, 0], state := .loaded }

/-- R1 is -3, R2 is 5, R3 is 2 and R15 is -16 in slot 7, whose instant came 500 ns ago. -/
def dueSlot : ProbeSlot := {
  program := [word 4 0 1 2 0, 0], state := .running, periodUs := 10, next := 39999500, evals := 4, lag := 100
  regs := [(1, 0xFFFFFFFFFFFFFFFD), (2, 5), (3, 2), (15, 0xFFFFFFFFFFFFFFF0)] }

/-- PROBE_LOAD at every check, each barred or bad PROBE_START and the first instants at their bounds, stop and status. -/
theorem test_probe_commands_meet :
    let h1 := withSlot 7 loadedSlot { hub with probe := { queue := [⟨7, 4, 1, 0, 1⟩, ⟨6, 4, 2, 0, 1⟩] } }
    let stop := word 40 5 0 0 0
    ([0x0800, 0x0801, 0x0802, 0x0803].all fun c => h1.admits c hdr) = true ∧
    programFault [word 19 1 2 0 64, 0] = some 0 ∧ programFault [word 19 1 2 0 63, 0] = none ∧ programFault [word 19 1 2 0 63] = some 0 ∧
    programFault [stop, 0] = none ∧ (List.any [stop, 0] probeWordStops) = true ∧
    after (.probeLoad hdr 8 [0]) h1 (answered .badArg (badArgBody 0 0)) = true ∧
    after (.probeLoad hdr 7 [0]) (withSlot 7 dueSlot hub) (answered .badState []) = true ∧
    after (.probeLoad hdr 7 []) h1 (answered .badArg (badArgBody 2 0)) = true ∧
    after (.probeLoad hdr 7 [word 4 1 2 3 0, 3, 0]) h1 (answered .badArg (badArgBody 8 1)) = true ∧
    after (.probeLoad hdr 7 [stop, 0]) h1 (answered .denied []) = true ∧
    after (.probeLoad hdr 7 [stop, 0]) (withSlot 7 loadedSlot testHub) (fun h => (h.probe.slot 7).program == [stop, 0] && answered .ok [] h) = true ∧
    after (.probeStart hdr 6 10 0) h1 (answered .badState []) = true ∧
    after (.probeStart hdr 7 0 0) h1 (answered .badArg (badArgBody 4 0)) = true ∧
    after (.probeStart hdr 7 10 40000999) h1 (answered .badArg (badArgBody 8 0)) = true ∧
    after (.probeStart hdr 7 10 40001000) h1 (fun h => (h.probe.slot 7).state == .running && answered .ok (le 8 40001000) h) = true ∧
    after (.probeStart hdr 7 10 1040000000) h1 (answered .ok (le 8 1040000000)) = true ∧
    after (.probeStart hdr 7 10 1040000001) h1 (answered .badArg (badArgBody 8 0)) = true ∧
    after (.probeStart hdr 7 10 0) (atPt 40000001 h1) (answered .ok (le 8 40002000)) = true ∧
    after (.probeStop hdr 7) h1 (fun h => h.probe.queue.map (·.slot) == [6] && answered .ok [] h) = true ∧
    ([Instr.probeStart hdr 8 10 0, .probeStop hdr 8, .probeStatus hdr 8].all fun i => after i h1 (answered .badArg (badArgBody 0 0))) = true ∧
    after (.probeStop hdr 6) h1 (fun h => (h.probe.slot 6) == {}) = true ∧
    after (.probeStop hdr 7) (withSlot 7 { dueSlot with state := .evaluating, waitReg := some 1 } hub) (fun h =>
      (h.probe.slot 7).stopping && (h.probe.slot 7).state == .evaluating) = true ∧
    after (.probeStop hdr 7) (withSlot 7 dueSlot hub) (fun h => (h.probe.slot 7).state == .loaded) = true ∧
    after (.probeStatus hdr 7) h1 (fun h => h.out.any fun o => match o with | .reply p => p.payload.length == 169 | _ => false) = true := by
  decide +kernel

/-- One word runs in slot 7 and writes R0. -/
def runs1 (w : W32) (v : W64) : Bool :=
  after (.probeEvaluation 7) (withSlot 7 { dueSlot with program := [w, 0] } { hub with
      fc := { sources := [(0xFFD, { count := 6 })] }, soundings := [(5, { ring := [zeros 8 ++ le 8 77] })]
      arrays := { totals := [(5, { cmds := 8 })], freezeId := 9 } })
    fun h => (h.probe.slot 7).reg (rdOf w) == v && (h.probe.slot 7).state == .running && (h.probe.slot 7).next == 40009500 &&
      (h.probe.slot 7).evals == 5 && (h.probe.slot 7).lag == 500 && (h.probe.slot 7).executed == 2

/-- Each operation of Table 12-3 that computes a register, with a negative operand where the sign matters. -/
theorem test_probe_operations :
    runs1 (word 1 0 15 15 0x3FFE) 0xFFFFFFFFFFFFFFFE = true ∧ runs1 (word 2 2 0 0 7) 0x1400007 = true ∧
    runs1 (word 4 0 1 2 0) 2 = true ∧ runs1 (word 5 0 3 2 0) 0xFFFFFFFFFFFFFFFD = true ∧ runs1 (word 6 0 1 2 0) 5 = true ∧
    runs1 (word 7 0 2 3 0) 7 = true ∧ runs1 (word 8 0 2 2 0) 0 = true ∧ runs1 (word 9 0 2 3 0) 20 = true ∧
    runs1 (word 10 0 1 3 0) 0x3FFFFFFFFFFFFFFF = true ∧ runs1 (word 11 0 1 3 0) 0xFFFFFFFFFFFFFFFF = true ∧
    runs1 (word 12 0 1 2 0) 0xFFFFFFFFFFFFFFF1 = true ∧ runs1 (word 13 0 1 2 0) 5 = true ∧
    runs1 (word 14 0 1 2 0) 0xFFFFFFFFFFFFFFFD = true ∧ runs1 (word 16 0 2 0 0x3FFF) 4 = true ∧
    runs1 (word 17 0 1 0 0x3FFF) 0x3FFD = true ∧ runs1 (word 18 0 2 0 2) 7 = true ∧ runs1 (word 19 0 3 0 63) 0 = true ∧
    runs1 (word 20 0 1 0 63) 1 = true ∧ runs1 (word 32 0 0 0 0) 40000000 = true ∧ runs1 (word 35 0 1 0 0) 6 = true ∧
    runs1 (word 4 15 15 2 0) 0xFFFFFFFFFFFFFFF5 = true ∧ runs1 (word 24 1 2 3 0) 0xFFFFFFFFFFFFFFFD = true := by decide +kernel

/-- Loads of an array entry and of one beyond, of a sounding, of each input; an action with room in the queue, and without. -/
theorem test_probe_loads_and_actions :
    let full := { hub with probe := { queue := List.replicate 8 ⟨6, 4, 0, 0, 9⟩ } }
    let act := withSlot 7 { dueSlot with program := [word 40 4 2 0 0, 0] }
    hub.loadArray 5 1 = some 0 ∧ hub.loadArray 0xFFFFFFFFFFFFFFFD 1 = none ∧
    runs1 (word 33 0 2 0 1) 8 = true ∧ runs1 (word 33 0 1 0 0) 0 = true ∧ runs1 (word 34 0 2 0 1) 77 = true ∧
    ([(0, 0), (1, 0), (2, 0), (3, 0), (4, 4), (5, 39999500), (6, 0), (7, 9), (8, 1), (9, 2), (10, 0)].all fun (k, v) => runs1 (word 36 0 0 0 k) v) = true ∧
    after (.probeEvaluation 7) (act hub) (fun h => h.probe.queue == [⟨7, 4, 5, 0, 40000000⟩]) = true ∧
    after (.probeEvaluation 7) (act full) (fun h => h.probe.queue.length == 8 && (h.probe.slot 7).dropped == 1) = true := by
  decide +kernel

/-- A slot that still waits skips its instant; one that is not due does nothing, nor does one behind a lower slot, or beside
one that executes. -/
theorem test_probe_instants_meet :
    let h1 := withSlot 7 dueSlot hub
    let waiting := withSlot 7 { dueSlot with state := .waiting, waitPt := some 40000000 } hub
    let lower := withSlot 3 dueSlot h1
    let busy := withSlot 3 { dueSlot with state := .evaluating } h1
    dueSlot.dueNow 40000000 = true ∧ dueSlot.dueNow 39999499 = false ∧ h1.domainOn 14 = true ∧ h1.engineBusy = false ∧
    busy.engineBusy = true ∧ dueSlot.stopping = false ∧ ((List.range 7).all fun k => (h1.probe.slot k).state != .running) = true ∧
    after (.probeEvaluation 7) waiting (fun h => (h.probe.slot 7).skippedN == 1 && (h.probe.slot 7).next == 40009500) = true ∧
    ([lower, busy].all fun h0 => after (.probeEvaluation 7) h0 fun h => h.probe.slot 7 == dueSlot) = true ∧
    after (.probeEvaluation 7) (atPt 39999499 h1) (fun h => (h.probe.slot 7).evals == 4) = true := by decide +kernel

/-- An aggregate load issues its COLLECT, and the evaluation waits for it. -/
theorem test_probe_aggregate_meets :
    let h1 := withSlot 7 { dueSlot with program := [word 33 4 3 0 8, 0], regs := [(3, 0x0100)] } hub
    bits (0x0100 : W64).toNat 15 0 = 0x0100 ∧ quantityOp 0x0100 = some 2 ∧ h1.collectRoom (.probe 7) = true ∧
    after (.probeEvaluation 7) h1 (fun h => (h.probe.slot 7).waitReg == some 4 && (h.probe.slot 7).state == .evaluating &&
      h.dcn.combines.map (fun c => (c.issuer, c.quantity)) == [(.probe 7, 0x0100)]) = true := by decide +kernel

/-- A branch to itself overruns after 4,096 instructions. -/
theorem test_probe_overrun :
    after (.probeEvaluation 7) (withSlot 7 { dueSlot with program := [0x60000000] } hub) (fun h =>
      (h.probe.slot 7).state == .stopped && (h.probe.slot 7).error == 1 && (h.fc.source 0xFD2).count == 1) = true := by decide +kernel

/-- WAITPT, its resumption at its PT and 1 ns before, the wake timer 20 us before and earlier. -/
theorem test_probe_waits_meet :
    let w := word 25 0 4 0 0
    let x : ProbeSlot := { dueSlot with program := [w, 0], regs := [(4, 40000001)] }
    let wait : ProbeSlot := { x with state := .waiting, waitPt := some 40000001, executed := 1 }
    let off := { hub with power := { hub.power with domains := 1 } }
    opOf w = 25 ∧ wait.program.getD (wait.pc + 1) 0 = 0 ∧
    after (.probeEvaluation 7) (withSlot 7 x hub) (fun h => (h.probe.slot 7).state == .waiting &&
      (h.probe.slot 7).waitPt == some 40000001) = true ∧
    after (.waitptResume 7) (withSlot 7 wait hub) (fun h => (h.probe.slot 7).state == .waiting) = true ∧
    after (.waitptResume 7) (withSlot 7 wait (atPt 40000001 hub)) (fun h => (h.probe.slot 7).state == .running &&
      (h.probe.slot 7).executed == 2) = true ∧
    after (.probeTimer 7) (withSlot 7 { x with program := [word 34 1 2 0 0, 0], next := 40020000 } off) (fun h =>
      [14, 4, 5, 12, 13].all fun d => h.domainOn d) = true ∧
    after (.probeEvaluation 7) (withSlot 7 { x with regs := [(4, 40000000)] } hub) (fun h => (h.probe.slot 7).state == .running) = true ∧
    after (.waitptResume 7) (withSlot 7 dueSlot hub) (fun h => (h.probe.slot 7) == dueSlot) = true ∧
    after (.probeTimer 7) (withSlot 7 loadedSlot off) (fun h => !h.domainOn 14) = true ∧
    after (.probeTimer 7) (withSlot 7 { x with next := 40020001 } off) (fun h => !h.domainOn 14) = true := by decide +kernel

def queued (action : Nat) (actPt : Nat) : Hub :=
  withSlot 7 dueSlot { hub with probe := { queue := [⟨7, action, 0x55, 0, actPt⟩, ⟨6, 4, 0, 0, 9⟩] } }

/-- SNAPSHOT at its instant and before it, RAISE, MARK and TRIGGER with the collectors off and on, STOP in Production; in the
safe state. -/
theorem test_probe_actions_meet :
    let dark (k : Nat) := { queued k 39999000 with power := { hub.power with domains := 1 } }
    let safe := { queued 4 39999000 with fc := { safe := true } }
    hub.inBlankOrTest = false ∧ (dark 1).domainOn 6 = false ∧ hub.domainOn 6 = true ∧ hub.domainOn 7 = true ∧
    after .probeAction (queued 3 39999000) (fun h => h.arrays.freezeId == 1 && (h.probe.slot 7).acts == 1 && h.probe.queue.length == 1) = true ∧
    after .probeAction (queued 3 39999001) (fun h => h.probe.queue.length == 2) = true ∧
    after .probeAction (queued 4 39999000) (fun h => (h.fc.source 0xFD2).count == 1) = true ∧
    ([1, 2].all fun k => after .probeAction (dark k) fun h => h.domainOn 6 && h.domainOn 7 && h.probe.queue.length == 1) = true ∧
    after .probeAction (queued 1 39999000) (fun h => h.trace.markId == 1) = true ∧
    after .probeAction (queued 2 39999000) (fun h => h.trace.markId == 1 && h.trace.ignored == 1) = true ∧
    after .probeAction { queued 2 39999000 with trace := traceSet.trace } (fun h => h.trace.markId == 1 && h.trace.triggerTaken) = true ∧
    after .probeAction (queued 5 39999000) (fun h => (h.probe.slot 7).denied == 1 && (h.probe.slot 7).acts == 0) = true ∧
    after .probeAction safe (fun h => h.probe.queue.length == 2) = true ∧
    after .probeAction hub (fun h => h.probe.queue == []) = true := by decide +kernel

/-- FREEZE, and STOP in Test: with a controller that holds the claim, and without one. -/
theorem test_probe_stops_and_freezes :
    let stop := { testHub with probe := (queued 5 39999000).probe }
    let silent (h : Hub) : Hub := { h with red := {} }
    testHub.inBlankOrTest = true ∧ stop.accepting = true ∧ (silent stop).accepting = false ∧
    after .probeAction (queued 0 39999000) (fun h => h.arrays.freezeId == 1 && (h.probe.slot 7).acts == 1 &&
      h.arrays.freezes.map (fun f => (f.mode, f.confirming)) == [(0, true)]) = true ∧
    after .probeAction stop (fun h => h.stops.stopId == 1 && h.stops.confirming && (h.probe.slot 7).acts == 1) = true ∧
    ([stop, queued 0 39999000].all fun h => after .probeAction (silent h) fun h => h.probe.queue.length == 2) = true := by
  decide +kernel

/-! ### The redundant pair -/

/-- West is Active and East Synchronized, both up in the period of the test, which is number 400. -/
def pair : Hub := { hub with red := {
  west := { role := .active, up := true, claim := 1, peerSeenIn := 400, hbSeq := 255, fast := true }
  east := { role := .synchronized, up := true, claim := 1, peerSeenIn := 400, peerActive := 3 }
  ksWest := { history := [true, true, true], claim := 1, role := 1, hbSeq := some 255 }
  ksEast := { history := [true, true, true], claim := 1, role := 2 }
  claim := 1, granted := true, boundary := 997500, synced := true, cause := 1 } }

def setWest (c : Ctrl) (h : Hub) : Hub := { h with red := { h.red with west := c } }
def setEast (c : Ctrl) (h : Hub) : Hub := { h with red := { h.red with east := c } }

/-- The word of Table 15-3 for the West active with claim 1 and HB_SEQ 0, whose predecessor is 255. -/
theorem test_heartbeats_meet :
    let w := heartbeatWord .west pair.red.west false 0
    let late := { pair with time := { edge := 1001250 } }
    let inTime := { pair with time := { edge := 1001249 } }
    w.toNat / 256 = 0x11000000000100 ∧ wordGood w = true ∧ wordGood (w ^^^ 0x100) = false ∧ pair.ctrlOn .west = true ∧
    laterThan 8 0 255 = true ∧ laterThan 8 126 255 = true ∧ laterThan 8 127 255 = false ∧
    after (.heartbeatSend .west) inTime (fun h => h.out == [.heartbeat .west w] && h.red.west.hbSeq == 0 && h.red.west.sentIn == some 400) = true ∧
    after (.heartbeatSend .west) late (fun h => h.out == []) = true ∧
    after (.heartbeatSend .west) (setWest { pair.red.west with role := .withdrawn } inTime) (fun h => h.out == []) = true ∧
    after (.heartbeatSend .west) (setWest { pair.red.west with withdrawing := true } late) (fun h => h.red.west.role == .withdrawn &&
      h.out == [.heartbeat .west (heartbeatWord .west pair.red.west true 0)] && !h.red.west.fast) = true ∧
    after (.heartbeatReceived .west .toKeystone w) pair (fun h => h.red.ksWest.seen && h.red.ksWest.hbSeq == some 0 && h.red.ksWest.role == 1) = true ∧
    after (.heartbeatReceived .west .toKeystone (w ^^^ 0x100)) pair (fun h => !h.red.ksWest.seen) = true ∧
    after (.heartbeatReceived .east .toKeystone w) pair (fun h => !h.red.ksEast.seen) = true ∧
    after (.heartbeatReceived .west .toPeer w) { pair with power := { hub.power with domains := 1 } } (fun h => h.red.east.peerSeq.isNone) = true ∧
    after (.heartbeatReceived .west .toPeer (w ^^^ 0x100)) pair (fun h => h.red.east.peerSeq.isNone) = true ∧
    after (.heartbeatReceived .west .toPeer w) { pair with time := { edge := 1010000 } } (fun h => h.red.east.peerSeenIn == 404 &&
      h.red.east.peerActive == 1) = true := by decide +kernel

/-- A peer that is silent for 3 periods, for one more, and for one: at each role, and as the other side knows of it or not. -/
theorem test_silence_meets :
    let lost := { pair with time := { edge := 1010000 } }
    let few := { pair with time := { edge := 1007500 } }
    let unsynced (h : Hub) : Hub := { h with red := { h.red with synced := false } }
    let east (r : CtrlRole) (h : Hub) := setEast { pair.red.east with role := r } h
    let gone (h : Hub) (r : CtrlRole) (n : Nat) : Bool := h.red.east.peerLost && h.red.east.role == r && (h.fc.source 0xFE8).count == n
    after (.peerHeartbeatMissed .east) few (fun h => !h.red.east.peerLost) = true ∧
    after (.peerHeartbeatMissed .east) (east .withdrawn lost) (fun h => !h.red.east.peerLost) = true ∧
    after (.peerHeartbeatMissed .east) (east .resynchronizing few) (fun h => !h.red.east.peerLost && h.red.east.role == .unsynchronized) = true ∧
    after (.peerHeartbeatMissed .east) (east .resynchronizing { pair with time := { edge := 1002500 } }) (fun h =>
      h.red.east.role == .resynchronizing) = true ∧
    after (.peerHeartbeatMissed .east) (east .resynchronizing lost) (fun h => gone h .unsynchronized 0) = true ∧
    after (.peerHeartbeatMissed .east) (east .unsynchronized lost) (fun h => gone h .unsynchronized 0) = true ∧
    after (.peerHeartbeatMissed .east) (unsynced lost) (fun h => gone h .unsynchronized 0) = true ∧
    after (.peerHeartbeatMissed .east) lost (fun h => gone h .unsynchronized 1) = true ∧
    after (.peerHeartbeatMissed .west) lost (fun h => h.red.west.peerLost && h.red.west.role == .active && (h.fc.source 0xFE8).count == 1) = true ∧
    after (.peerHeartbeatMissed .west) (unsynced lost) (fun h => h.red.west.peerLost && (h.fc.source 0xFE8).count == 0) = true := by
  decide +kernel

/-- The Keystone at a boundary: not granted, frozen; a live holder, and one with another claim; a holder that missed 3 periods,
with each peer; no peer, and HEADLESS as it stands; between boundaries, with WITHDRAW and without. -/
theorem test_keystone_meets :
    let seen := { pair with red := { pair.red with ksWest := { pair.red.ksWest with seen := true }, ksEast := { pair.red.ksEast with seen := true } } }
    let gone := { pair with red := { pair.red with ksWest := { pair.red.ksWest with missed := 2, history := [false, false, true] },
                                                   ksEast := { pair.red.ksEast with seen := true } } }
    let east (f : KsSide → KsSide) : Hub := { gone with red := { gone.red with ksEast := f gone.red.ksEast } }
    let cold := east fun k => { k with role := 4 }
    let alone := east fun _ => {}
    let headless (h : Hub) : Hub := { h with red := { h.red with headless := true } }
    let between (h : Hub) : Hub := { h with time := { edge := 1000001 } }
    let leaving := between { pair with red := { pair.red with ksWest := { pair.red.ksWest with withdraw := true } } }
    let held (h : Hub) : KsSide := h.red.ksWest.count 1000000 true
    let word : Out := .grant (grantWordOf 3 .west false 1)
    hub.time.edge % 2500 = 0 ∧ (held seen).alive = true ∧ (held gone).alive = false ∧ (held gone).missed = 3 ∧
    (gone.red.ksEast.count 1000000 true).alive = true ∧ (alone.red.ksEast.count 1000000 true).alive = false ∧
    after .keystoneDecision { pair with red := { pair.red with granted := false } } (fun h => h.red.boundary == 1000000 && h.out == []) = true ∧
    after .keystoneDecision seen (fun h => h.out == [word] && h.red.holder == .west) = true ∧
    after .keystoneDecision { seen with red := { seen.red with claim := 2 } } (fun h => h.out.length == 2 && h.red.claim == 2) = true ∧
    after .keystoneDecision { gone with red := { gone.red with frozen := true } } (fun h => h.red.holder == .west && h.red.claim == 1 && h.out == [word]) = true ∧
    after .keystoneDecision gone (fun h => h.red.holder == .east && h.red.claim == 2 && (h.fc.source 0xFE7).count == 1 &&
      h.out.contains (.grant (grantWordOf 2 .east false 2)) && h.red.cause == 1) = true ∧
    after .keystoneDecision leaving (fun h => h.red.holder == .east && h.red.cause == 2 && h.red.boundary == 997500) = true ∧
    after .keystoneDecision cold (fun h => h.red.holder == .east && h.out.contains (.grant (grantWordOf 2 .east true 2)) && h.red.cause == 3) = true ∧
    after .keystoneDecision alone (fun h => h.red.holder == .west && h.red.headless && (h.fc.source 0xFE7).count == 1) = true ∧
    after .keystoneDecision (headless alone) (fun h => h.red.headless && (h.fc.source 0xFE7).count == 0) = true ∧
    after .keystoneDecision (headless seen) (fun h => !h.red.headless && h.out == [word]) = true ∧
    after .keystoneDecision (east fun k => { k with role := 1 }) (fun h => h.red.holder == .west && !h.red.headless && h.out == [word]) = true ∧
    after .keystoneDecision (between seen) (fun h => h.red.boundary == 997500 && h.out == []) = true := by
  decide +kernel

/-- Grant words at the last stage: the first, a later, an older, a bad one and one of another TYPE; an access with and without
its claim, and in the safe state at a stage and at a port of memory. -/
theorem test_stages_meet :
    let g (claim : W32) : W64 := grantWordOf 2 .east false claim
    let held (c : W32) : Hub := { pair with red := { pair.red with stages := [(36, some (c, .west))] } }
    let off := { pair with power := { hub.power with domains := 1 } }
    let safe := { pair with fc := { safe := true } }
    let other := grantWordOf 1 .east false 2
    wordGood (g 2) = true ∧ bits (g 2).toNat 63 60 = 2 ∧ bits (g 0xFFFFFFFF).toNat 55 24 = 0xFFFFFFFF ∧ bit (g 2).toNat 59 = true ∧
    pair.domainOn (stageDomain 36) = true ∧ off.domainOn (stageDomain 36) = false ∧ safe.stageSafe 35 = true ∧ pair.stageSafe 36 = false ∧
    after (.grantWord (.stage 36) (g 2) (g 2)) pair (fun h => mapGet none h.red.stages 36 == some (2, .east)) = true ∧
    after (.grantWord (.stage 36) (g 2) (g 2)) (held 1) (fun h => mapGet none h.red.stages 36 == some (2, .east)) = true ∧
    after (.grantWord (.stage 36) (g 2) (g 2)) (held 3) (fun h => mapGet none h.red.stages 36 == some (3, .west)) = true ∧
    after (.grantWord (.stage 36) (g 2) (g 2)) (held 0x80000002) (fun h => mapGet none h.red.stages 36 == some (0x80000002, .west)) = true ∧
    after (.grantWord (.stage 36) (g 2) (g 3)) pair (fun h => h.red.frozen && h.fc.safe && (h.fc.source 0xFBD).count == 1) = true ∧
    after (.grantWord (.stage 36) other other) (held 1) (fun h => mapGet none h.red.stages 36 == some (1, .west) && !h.red.frozen) = true ∧
    after (.keystoneFault 36 1 1) pair (fun h => h.red.frozen && h.fc.safe) = true ∧
    after (.keystoneFault 36 (g 2) (g 2)) pair (fun h => !h.red.frozen) = true ∧
    after (.grantWord (.stage 36) (g 2) (g 3)) off (fun h => !h.red.frozen && h.red.stages == []) = true ∧
    after (.stageAccess 36 .east 1) off (fun h => h.red.rejects == 0) = true ∧
    after (.stageAccess 35 .west 1) safe (fun h => h.red.rejects == 0) = true ∧
    after (.stageAccess 2 .west 1) safe (fun h => h.red.rejects == 1) = true ∧
    after (.stageAccess 36 .west 1) (held 1) (fun h => h.red.rejects == 0 && h.out == []) = true ∧
    after (.stageAccess 36 .east 1) (held 1) (fun h => h.red.rejects == 1 && h.out == [.rejected 36 .east]) = true := by decide +kernel

/-- Every move of Table 15-2 by a grant word, and the words that move nothing. -/
theorem test_roles_meet :
    let g (k : Half) (claim : W32) : W64 := grantWordOf 2 k false claim
    let give (k : Half) (w : W64) (h : Hub) (q : Hub → Bool) : Bool := after (.grantWord (.abutment k) w w) h q
    let west1 := setWest { pair.red.west with heard := true } pair
    let east (r : CtrlRole) := setEast { pair.red.east with role := r } { pair with red := { pair.red with resyncSince := some 9 } }
    wordGood (g .east 2) = true ∧ laterThan 32 1 0 = true ∧ laterThan 32 1 2 = false ∧
    give .west (g .west 0) west1 (fun h => h.red.west.claim == 1) = true ∧
    give .west (g .west 0) pair (fun h => h.red.west.claim == 0 && h.red.west.heard) = true ∧
    give .west (g .west 1 ^^^ 0x100) pair (fun h => !h.red.west.heard) = true ∧
    give .west (grantWordOf 1 .west false 2) pair (fun h => !h.red.west.heard) = true ∧
    after (.grantWord (.abutment .west) (g .west 2) (g .west 3)) pair (fun h => !h.red.west.heard) = true ∧
    give .west (g .east 2) west1 (fun h => h.red.west.role == .unsynchronized && h.red.west.claim == 2) = true ∧
    give .west (g .west 2) pair (fun h => h.red.west.role == .active && h.red.west.claim == 2) = true ∧
    give .east (g .east 2) pair (fun h => h.red.east.role == .active && !h.red.east.solo) = true ∧
    give .east (g .west 2) pair (fun h => h.red.east.role == .synchronized && h.red.east.claim == 2) = true ∧
    ([.unsynchronized, .resynchronizing].all fun r => give .east (g .east 2) (east r) fun h =>
      h.red.east.role == .active && h.red.east.solo && h.island.sessions == []) = true ∧
    give .east (g .east 2) (east .booting) (fun h => h.red.east.role == .booting && h.red.east.claim == 2) = true ∧
    give .east (g .east 2) (east .withdrawn) (fun h => h.red.east.claim == 1) = true := by decide +kernel

/-- Firmware up on one side, on both, and once a grant stands; cold cycle; fast clock loss. -/
theorem test_booting_meets :
    let boot : Hub := { hub with power := { hub.power with startUp := .verified }, red := {} }
    let west (c : Ctrl) := setWest c { pair with island := hub.island }
    let late (c : Ctrl) := setEast c pair
    after (.firmwareUp .west) boot (fun h => h.red.west.up && h.red.west.role == .booting && !h.red.granted) = true ∧
    after (.firmwareUp .east) (setWest { up := true } boot) (fun h => h.red.claim == 1 && h.red.west.role == .active && h.red.west.solo &&
      h.red.east.role == .unsynchronized && h.power.startUp == .granted) = true ∧
    after (.firmwareUp .west) pair (fun h => h.red.west == pair.red.west) = true ∧
    after (.firmwareUp .west) (west {}) (fun h => h.red.west.role == .active && h.red.west.solo && h.island.sessions == []) = true ∧
    after (.firmwareUp .east) (late { peerGood := 2, peerSeenIn := 400 }) (fun h => h.red.east.role == .unsynchronized) = true ∧
    after (.controllerColdCycle .west) (setWest { pair.red.west with role := .withdrawn } pair) (fun h => h.red.west.role == .booting &&
      h.red.west.hbSeq == 255 && h.ctrlOn .west) = true ∧
    after (.controllerColdCycle .west) pair (fun h => h.red.west == pair.red.west) = true ∧
    after (.fastClockLoss .west) pair (fun h => h.red.west.withdrawing && (h.fc.source 0xFBB).count == 1) = true ∧
    after (.fastClockLoss .east) pair (fun h => !h.red.east.withdrawing) = true ∧
    after (.fastClockLoss .west) (setWest { pair.red.west with role := .withdrawn } pair) (fun h => !h.red.west.withdrawing) = true := by
  decide +kernel

def tried (t : Nat) : Hub := setEast { pair.red.east with role := .unsynchronized } { pair with red := { pair.red with lastAttempt := some t } }
def heldReply : HeldReply := { transport := .jtag, opcode := 0x0100, hdr := hdr, status := .ok, body := [7] }
def waits (t : Nat) (h : Hub) : Hub := { h with red := { h.red with syncWait := some t, heldReplies := [heldReply] } }

/-- Changes with and without a gap, at each role, and the acknowledgement's 50 us. -/
theorem test_changes_meet :
    let unsync := setEast { pair.red.east with role := .unsynchronized } pair
    let lost := { pair with red := { pair.red with synced := false } }
    let standby := setWest { pair.red.west with role := .unsynchronized } pair
    let left (h : Hub) : Bool := h.red.syncWait.isNone && answered .ok [7] h
    pair.transport = .jtag ∧
    after (.syncChange 1 true) (waits 1 pair) (fun h => h.red.syncRecv == 1 && left h) = true ∧
    after (.syncChange 1 false) pair (fun h => h.red.syncWait == some 40000000) = true ∧
    after (.syncChange 2 true) pair (fun h => h.red.east.role == .unsynchronized && !h.red.synced && (h.fc.source 0xFE8).count == 1) = true ∧
    ([lost, unsync].all fun h0 => after (.syncChange 2 true) h0 fun h => h.red == { h0.red with syncSent := 1 }) = true ∧
    after (.syncChange 2 true) standby (fun h => h.red == standby.red) = true ∧
    after .syncAckTimeout pair (fun h => h.red == pair.red) = true ∧
    after .syncAckTimeout (waits 39950001 pair) (fun h => h.red.syncWait.isSome) = true ∧
    after .syncAckTimeout (waits 39950000 lost) (fun h => left h && (h.fc.source 0xFE8).count == 0) = true ∧
    after .syncAckTimeout (waits 39950000 pair) (fun h => left h && !h.red.synced && h.red.east.role == .synchronized &&
      (h.fc.source 0xFE8).count == 1) = true := by decide +kernel

/-- Attempts, their ends with a command in the slot and without, and the two commands. -/
theorem test_standby_meets :
    let unsync := setEast { pair.red.east with role := .unsynchronized } pair
    let resync := setEast { pair.red.east with role := .resynchronizing } pair
    let asked := { resync with slot := some (execOf 0x0B01 .resync) }
    ([0x0B00, 0x0B01, 0x0B02].all fun c => pair.admits c hdr) = true ∧ unsync.canResync .east = true ∧ (unsync.taken hdr).canResync .east = true ∧
    (setEast { unsync.red.east with peerActive := 2 } unsync).canResync .east = false ∧ pair.red.standbySync = true ∧
    (execOf 0x0B01 .resync).mute = false ∧ (execOf 0x0B01 .resync).transport = .jtag ∧
    after .resyncComplete resync (fun h => h.red.east.role == .synchronized) = true ∧
    after .resyncTimeout resync (fun h => h.red.east.role == .unsynchronized) = true ∧
    after .resyncComplete asked (fun h => h.slot.isNone && answered .ok [2] h) = true ∧
    after .resyncTimeout asked (fun h => h.slot == asked.slot && h.red.east.role == .unsynchronized) = true ∧
    after .resyncComplete { asked with red := { asked.red with resyncSince := some 37999999 } } (fun h => h.slot == asked.slot &&
      h.red.east.role == .unsynchronized) = true ∧
    after .resyncComplete { asked with red := { asked.red with resyncSince := some 38000000 } } (answered .ok [2]) = true ∧
    ([Instr.resyncComplete, .resyncTimeout].all fun i => after i unsync fun h => h.red == unsync.red) = true ∧
    after .resyncRetry unsync (fun h => h.red.east.role == .resynchronizing && h.red.lastAttempt == some 40000000) = true ∧
    after .resyncRetry (tried 30000000) (fun h => h.red.east.role == .resynchronizing) = true ∧
    after .resyncRetry (tried 30000001) (fun h => h.red.east.role == .unsynchronized) = true ∧
    after .soloResyncComplete (setWest { pair.red.west with solo := true } pair) (fun h => !h.red.west.solo) = true ∧
    after .soloResyncComplete pair (fun h => h.red == pair.red) = true ∧
    after (.redundancyStatus hdr) pair (fun h => h.out.any fun o => match o with | .reply p => p.status == .ok | _ => false) = true ∧
    after (.standbyResync hdr) pair (answered .ok [2]) = true ∧
    after (.standbyResync hdr) resync (answered .ok [4]) = true ∧
    after (.standbyResync hdr) unsync (fun h => (h.slot.map (·.prog)) == some .resync) = true ∧
    after (.standbyResync hdr) (setEast { unsync.red.east with up := false } unsync) (answered .badState []) = true ∧
    after (.activeRelease hdr) pair (fun h => h.red.west.withdrawing && answered .ok [] h) = true ∧
    after (.heartbeatSend .west) { setWest { pair.red.west with withdrawing := true } pair with
      red.heldReplies := [{ heldReply with opcode := 0x0B02 }] } (fun h => h.red.west.withdrawing && h.out == []) = true ∧
    ([unsync, { pair with red := { pair.red with synced := false } }].all fun h => after (.activeRelease hdr) h (answered .badState [])) = true := by decide +kernel

/-! ### Power, resets, and steps -/

/-- A quiet hub: nothing is due, no session is open, and no domain is needed but by another. -/
def quiet : Hub := { pair with time := { edge := 0, base := 50000000 }, island := { hub.island with sessions := [] } }

/-- The domains that may go off in it; low speed after 100 us; errors in the first and the last structure. -/
theorem test_power_meets :
    let traced := { hub with trace := { collectors := [(0, { mirrors := [(0, { trace := 1 })] })] } }
    quiet.mayPowerOff 1 = false ∧ quiet.mayPowerOff 2 = true ∧ quiet.mayPowerOff 20 = false ∧ quiet.mayPowerOff 14 = true ∧
    ([2, 3].all fun d => after (.domainPowerOff d) quiet fun h => !h.domainOn 2 && !h.domainOn 3) = true ∧
    after (.domainPowerOff 20) quiet (fun h => h.domainOn 20) = true ∧
    after (.domainPowerOff 1) quiet (fun h => h.domainOn 1) = true ∧ quiet.dueWork = false ∧
    after .ready { traced with power := { hub.power with domains := 1, startUp := .enumerated } } (fun h => h.takesPackets &&
      [6, 7, 18, 19, 20].all fun d => h.domainOn d) = true ∧ traced.tracing = true ∧ traced.accepting = true ∧
    after (.lowSpeedEntry .west) (setWest { quiet.red.west with busyPt := 49900000 } quiet) (fun h => !h.red.west.fast) = true ∧
    after (.lowSpeedEntry .west) (setWest { quiet.red.west with busyPt := 49900001 } quiet) (fun h => h.red.west.fast) = true ∧
    hub.structureOn 0x0080 = true ∧ hub.structureOn 0x0A7F = true ∧ hub.structureOn 0x0A80 = false ∧ hub5.structureOn 0x1005 = true ∧
    after (.sramScrub 0x0A7F false) hub (fun h => (h.fc.source 0xFD3).count == 1) = true ∧
    after (.sramScrub 0x0080 true) hub (fun h => (h.fc.source 0xFD4).count == 1) = true ∧
    after (.sramScrub 0x0080 true) { hub with fc := { safe := true } } (fun h => (h.fc.source 0xFD4).count == 1 && h.agents == hub.agents) = true ∧
    after (.sramScrub 0x0A80 true) hub (fun h => (h.fc.source 0xFD4).count == 0) = true ∧
    after (.sramScrub 0x0100 true) { hub with fc := { safe := true } } (fun h => h.red.west.withdrawing && !h.red.east.withdrawing) = true ∧
    after (.sramScrub 0x01FF true) { hub with fc := { safe := true } } (fun h => !h.red.west.withdrawing && h.red.east.withdrawing) = true := by decide +kernel

/-- A hub reset with a program running and a command executing, and with a fixed source present. -/
theorem test_hub_reset_meets :
    let busy := { withSlot 7 dueSlot { withSlot 6 loadedSlot pair with slot := some (execOf 0x0B01 .resync) } with
      fc := { pendingRetire := [6] } }
    busy.fc.fixedPresent = [] ∧
    after .hubReset busy (fun h => h.pt == 40000000 && h.slot.isNone && h.island.sessions == [] && h.red.claim == 1 && h.red.granted &&
      h.red.west.role == .booting && h.red.west.hbSeq == 255 && h.power.domains == 1 && (h.probe.slot 7).error == 3 &&
      (h.probe.slot 6).error == 3 && (h.probe.slot 7).program == dueSlot.program && !h.fc.safe) = true ∧
    after .hubReset { busy with fc := { fixedPresent := [0xFBD] } } (fun h => h.fc.safe && h.power.domains == 1) = true := by
  decide +kernel

/-- A reset of the chip with a retirement waiting, of a unit that counts busy time; AO power-on. -/
theorem test_resets_meet :
    let busy := { withAgent 5 { running with sram := [(0, 9)], gated := true, cnt := { light := { cmds := 8 } } } pair with
      fc := { pendingRetire := [6] } }
    after .hubResetOfTheChip busy (fun h => h.retired 6 && h.fc.pendingRetire == [] && !(h.agent 5).gated && (h.agent 5).sram == [(0, 9)] &&
      (h.agent 5).cnt.light.cmds == 8 && !h.fc.safe) = true ∧
    after .aoPowerOn busy (fun h => h.pt == 0 && h.red.claim == 0 && !h.red.granted && h.unsighted && !(h.agent 5).powered) = true := by
  decide +kernel

/-- A step with a command in front, and idle steps within an edge, at the next one, and past the last PT. -/
theorem test_steps_meet :
    let s (h : Hub) : State := st h
    let at39 := { hub with time := { hub.time with sub := 39 } }
    (match step { s hub with pending := [.fastClockLoss .east, .timeGet hdr] } with
      | .next t => t.pending == [.timeGet hdr] && t.hub == hub
      | _ => false) = true ∧
    (match step (s hub) with
      | .next t => t.hub.time.sub == 1 && t.hub.pt == 40000000
      | _ => false) = true ∧
    (match step (s at39) with
      | .next t => t.hub.time.sub == 0 && t.hub.time.edge == 1000001 && t.hub.pt == 40000040
      | _ => false) = true ∧
    (match step (s (atPt (2 ^ 64) hub)) with
      | .fault .ptOverflow => true
      | _ => false) = true ∧
    hub.sight.starting = false ∧ at39.time.sub ≤ 39 ∧ (s hub).memoryWf = true := by decide +kernel

/-- The machine right after reset meets the invariants, and its first step answers. -/
theorem test_reset_meets : State.reset.memoryWf = true ∧ State.reset.hub.time.sub ≤ 39 ∧
    (match step State.reset with
      | .next t => t.hub.time.sub == 1 && t.hub.pt == 0 && t.memoryWf
      | _ => false) = true := by decide +kernel

/-! ### The spec's own examples -/

def exampleTap : TapSlot := {
  sounding := 0, format := 2, ctrl := 3, stats := 0x3F, expBase := 0xF2, shifts := 1, scaleBase := 0
  selA := 0x1000, selB := 0x1008, key := List.replicate 16 0 }

/-- Statistics of Table 11-4: one engine writes 1.5 and -0.25, the other 2^-24 and 65,504. -/
theorem test_table_11_4 :
    let a := (exampleTap.beat 0 { address := 0x1000, tag := 3, outBase := 0x1000, data := [0x00, 0x3E, 0x00, 0xB4], scales := [] }).1.acc
    let b := (exampleTap.beat 0 { address := 0x1004, tag := 3, outBase := 0x1000, data := [0x01, 0x00, 0xFF, 0x7B], scales := [] }).1.acc
    let flit (v : BitVec 320) (i : Nat) : Nat := v.toNat / 2 ^ (64 * i) % 2 ^ 64
    (a.elements, b.elements, b.subnormal, b.saturation) = (2, 2, 1, 1) ∧ (a.subnormal, a.saturation) = (0, 0) ∧
    a.expBins = [(7, 1), (8, 1)] ∧ b.expBins = [(0, 1), (15, 1)] ∧ a.minKey = 0xC02FFFFFFFFFFFFF ∧
    b.maxKey = 0x40EFFC0000000000 ∧ b.maxAbs = 0x40EFFC0000000000 ∧
    a.sum = 0x00280000 <<< 128 ∧ flit b.sum 1 = 0x2000000000000000 ∧ flit b.sum 2 = 0x0000001FFC000000 ∧
    flit (a.sum + b.sum) 1 = 0x2000000000000000 ∧ flit (a.sum + b.sum) 2 = 0x0000001FFC280000 ∧ flit (a.sum + b.sum) 3 = 0 := by
  decide +kernel

/-- The excursion of Chapter 18 (692 mV for 3.4 us), the claim of Chapter 3 that wraps, and Chapter 19's sources of
East M-core 18. -/
theorem test_excursion_claim_and_sources :
    excursionWord 692 false 3400 = 0x0002AAB4 ∧ laterThan 32 0x00000002 0xFFFFFFFF = true ∧
    ordinalOf 0x8012 = 996 ∧ ordinalOf 0x8012 = 0x3E4 ∧ sourceUnit 0x80123 = 0x8012 ∧ collectorOf 0x8012 = 18 := by decide +kernel

/-- The event of that excursion, its DATA, and what the next I3C image shows. -/
theorem test_supply_warning_example :
    after (.supplyExcursion 1 692 3400 false) hub (fun h => (h.fc.source 0xFA4).count == 1 && h.i3c.lowest == 692 && h.i3c.excursions == 1 &&
      h.fc.log.any fun e => e.data == 0x0002AAB4) = true := by decide +kernel

/-! ### Clauses beside the first ones -/

/-- A later probe; the fourth echo with a negative best offset and with one that is not; a fourth echo after the eighth probe, a
third one there; an echo from a chip that is not Committed; the eighth probe without an echo. -/
theorem test_later_probes_meet :
    let echo : EchoMsg := { round := 8, sender := 2, seq := 0, check := false, committed := true, t2 := 1000, t3 := 1010 }
    let with_ (n : Nat) (es : List Exchange) (h : Hub) : Hub := { h with sight := { h.sight with sent := n, echoes := es } }
    let three : List Exchange := [⟨1, 3216, 2⟩, ⟨2, 7777, 3⟩, ⟨3, 8888, 4⟩]
    let late := probing 39950000
    (bestExchange (three ++ [⟨0, 645, 70⟩])).map (·.offset) = some 3216 ∧
    after (.probeSendDue 320) { measuring with sight := { measuring.sight with sent := 7, lastEchoPt := 39999000 } } (fun h => h.sight.sent == 8 &&
      h.sight.probe.map (·.seq) == some 7) = true ∧
    after (.sightEcho 3 echo 400) (with_ 1 three (probing 39999000)) (fun h => h.sight.state == .measuring && h.sight.fourthPt == some 40000000) = true ∧
    after (.sightEcho 3 echo 400) (with_ 1 [⟨1, -3216, 2⟩, ⟨2, 7777, 3⟩, ⟨3, 8888, 4⟩] (probing 39999000)) (fun h =>
      h.sight.state == .behind && h.sight.fourthPt == none) = true ∧
    after (.sightEcho 3 echo 400) (with_ 8 (three.take 2) (probing 39999000)) (fun h => h.sight.state == .failed) = true ∧
    after (.sightEcho 3 echo 400) (with_ 8 three (probing 39999000)) (fun h => h.sight.state == .measuring) = true ∧
    after (.sightEcho 3 { echo with committed := false } 400) (probing 39999000) (fun h => h.sight.state == .failed && h.sight.probe.isNone) = true ∧
    after .echoTimeout (with_ 8 three late) (fun h => h.sight.state == .failed) = true ∧
    after .echoTimeout (with_ 7 three late) (fun h => h.sight.state == .measuring) = true := by decide +kernel

/-- A write of a read-only word of an agent window; a reply given up while another command executes; an event of a bench pulse
at its instant, and 6 ns after; a frame before the image is verified. -/
theorem test_window_reply_and_pulse_meet :
    let e := execOf 0x0300 .stop
    let full : Hub := { hub with tap := { fullSince := some 0, tx := [1] }, slot := some e }
    let old := { full with time := { edge := 25000000 } }
    let pulse (pt : Nat) : Hub := { hub with trig := { outCtrl := 1 }, stops := { standing := [(pt, .chip, [])] } }
    ((wordsOf 0 4).any fun w => !regWritable w.1) = true ∧
    after (.regWrite vendorHdr 0x1005000 [1]) (withIsland testHub.island hub5) (answered .badArg (badArgBody 0 0)) = true ∧
    after .replyAbandoned old (fun h => h.slot == some e && h.tap.tx == [] && h.tap.abandoned) = true ∧
    (pulse 40000000).eventNow 0 = true ∧ (pulse 39999990).eventNow 0 = false ∧
    after (.podTrigOutPulse 0) (pulse 40000000) (fun h => h.trig.outUntil == 40000100) = true ∧
    after (.podTrigOutPulse 0) (pulse 39999990) (fun h => h.trig.outUntil == 0) = true ∧
    after (.ackFrame (frame 2 0 0 [])) { laneUp with power := { startUp := .voted } } (fun h => h.port.lastFramePt == 40000000 &&
      !h.domainOn 2) = true := by decide +kernel

/-- Two of the two events of a HEALTH source that retirement asks for: of a core that runs, of one that is Stopped, and of one
that is off. -/
theorem test_retire_reactions_meet :
    let cfg := cfgWord 0 30 2 false
    let h (a : Agent) : Hub := { withAgent 5 a hub with fc := hub.fc.writeCfg 5 cfg, slot := some (execOf 0x0300 .stop) }
    let off := h {}
    (sourceRow 5).map (fun r => (r.fixed, cfgReaction r ((h running).fc.cfg 5))) = some (false, 2) ∧ (h running).lcNat < 3 ∧
    (h running).presence 5 = 0 ∧ off.presence 5 = 2 ∧ retirable 5 = true ∧ (h running).fc.slotFor.isSome = true ∧
    after (.faultEvent 5 5 0 none) (h running) (fun h => h.slot.isNone && h.retired 5 && h.out.contains (.unitPower 5 false) &&
      h.fe.requests.any (fun q => q.req == .dropInflight && q.units == [5]) && h.fc.windows.any fun w => w.unit == 5 && !w.hangStop) = true ∧
    after (.faultEvent 5 5 0 none) (h { running with state := .stopped }) (fun h => h.ident.retired == [] && h.fc.pendingRetire == [5] &&
      h.fc.records.any fun q => q.handling && q.pendingRet) = true ∧
    after (.faultEvent 5 5 0 none) off (fun h => h.ident.retired == [] && h.fc.records.any fun q => !q.handling && q.done) = true := by
  decide +kernel

/-- One event of a source whose reaction is hang-stop, with the chip running and with the whole chip stopped; and the Keystone's
uncorrectable error, outside the safe state and in it. -/
theorem test_hang_stop_reactions_meet :
    let h := hub5
    let still := withAgent 5 { running with state := .stopped } hub
    (sourceRow 0x805).map (fun r => cfgReaction r (h.fc.cfg 0x805)) = some 3 ∧ cfgN (h.fc.cfg 0x805) = 1 ∧
    h.chipStopped = false ∧ still.chipStopped = true ∧ h.rootOpen = true ∧
    after (.faultEvent 0x805 5 0 none) h (fun h => h.stops.declared && h.stops.hangId == 1 && h.stops.stopId == 1 && h.stops.confirming &&
      h.stops.newest.map (fun n => (n.t, n.scope, n.cause)) == some (40000250, .chip, 5) && h.fc.pendingDrops == [some 1] &&
      h.out.any fun o => match o with | .bcast b => b.cls == 0 && b.instant == 40000250 | _ => false) = true ∧
    after (.faultEvent 0x805 5 0 none) still (fun h => h.stops.declared && h.stops.stopId == 0 && h.fc.records.any fun q => !q.handling && q.done) =
      true ∧
    after (.faultEvent 0xFBD 0 2 none) hub (fun h => h.fc.safe && h.red.frozen) = true ∧
    after (.faultEvent 0xFBD 0 2 none) { hub with fc := { safe := true } } (fun h => h.red.frozen && h.fc.safeEvents == 1) = true ∧
    after (.faultEvent 0xFBD 0 1 none) { hub with fc := { safe := true } } (fun h => !h.red.frozen) = true := by decide +kernel

/-- A bad head, and a later flit of its packet; an OVERFLOW first of a node's notices; ENUM before its 100 us are over; the
access to a unit that has been retired; a multicast's packet that is not its last. -/
theorem test_dcn_clauses_meet :
    let overflow : Hub := { hub5 with dcn := { nodes := [(.pier .west 0, { notices := [{ link := none, notice := { kind := 4, unit := 0, arg := 0, body := 0 } }] })] } }
    let lost := withAgent 5 { running with unreachable := true } hub
    let due (n : Nat) : Hub := { lost with dcn := { enums := [(5, some n)] } }
    let e : Exec := { opcode := 0x0308, hdr := hdr, transport := .jtag, startPt := 0, prog := .access 5 (.timeGet hdr) }
    let gone := { silent with slot := some e, ident := { retired := [5] }, dcn := { silent.dcn with txns := [access 1] } }
    after (.linkNotice (.bay .west 0 0)) overflow (fun h => h.dcn.nodes == [] && h.dcn.sources.any fun y => y.1 == .node (.pier .west 0)) = true ∧
    (due 39900001).enumDue 5 = false ∧ (due 39900000).enumDue 5 = true ∧ lost.rootOpen = true ∧
    after (.enumProbe 5 (some 5)) (due 39900001) (fun h => (h.agent 5).unreachable) = true ∧
    after (.enumProbe 5 (some 5)) (due 39900000) (fun h => !(h.agent 5).unreachable && mapGet none h.dcn.known 5 == some .running &&
      !h.enumDue 5 && !h.dcn.sources.isEmpty) = true ∧
    after (.accessTimeout 4) gone (fun h => !(h.agent 5).unreachable && h.slot.isNone && answered .unreachable (unitsBody [5]) h) = true := by
  decide +kernel

/-- The operators of Table 4-7: a carry out of ADD, the 320 bits of WADD320, and the signed and unsigned extremes of 1 and -1. -/
theorem test_operators_meet :
    let x : Reduced := { value := 0xFFFFFFFFFFFFFFFF, count := 2, missing := 3 }
    let y : Reduced := { value := 1, count := 1, missing := 4 }
    (x.join 2 y).value = 0 ∧ (x.join 2 y).wrap = true ∧ (x.join 2 y).missing = 7 ∧ (x.join 3 y).value = 0x10000000000000000 ∧
    (x.join 3 y).wrap = false ∧ (x.join 0 y).value = 1 ∧ (x.join 1 y).value = x.value ∧ (x.join 4 y).value = x.value ∧
    (x.join 5 y).value = 1 ∧ (x.join 6 y).value = 1 ∧ (x.join 7 y).value = x.value := by decide +kernel

/-- DECLARE_HANG while measuring, with TRIGGER_ON_HANG; a broadcast at a retired unit; markers at a unit without a checker; a step
that leaves a request in the fence. -/
theorem test_stop_clauses_meet :
    let m : Hub := { measuring with trace := { onHang := true } }
    let out := withAgent 5 { (stepping true none).agent 5 with outbound := [(1, 0x1000, [1])] } (stepping true none)
    let gone : Hub := { issued stopBcast running with ident := { retired := [5] } }
    let mk : CutMarker := { identity := 1, seq := 1, instant := 39998500, gatePt := 39998500, late := false, earlySeen := false }
    let held : CutPort := { marker := some mk, arrivalPt := 39999000 }
    after (.declareHang hdr 1) m (fun h => !h.stops.declared && answered .badState [] h) = true ∧
    after (.declareHang hdr 1) measuring (fun h => h.stops.declared) = true ∧
    after (.bcastAccept 5 0 1) gone (fun h => (h.agent 5).armed == []) = true ∧
    after (.commandStepEnd 5 .queueEmpty false) out (fun h => (h.agent 5).step.fenceStall) = true ∧
    hasChecker 5 = false ∧
    after (.cutMarkerArrival 5 0 mk) hub5 (fun h => mapGet {} (h.agent 5).ports 0 == { marker := some mk, arrivalPt := 40000000 }) = true ∧
    after (.cutMarkerArrival 5 0 mk) (withAgent 5 { running with cut := some cutNowInfo, gated := true, ports := [(0, held)] } hub) (fun h =>
      mapGet {} (h.agent 5).ports 0 == held) = true := by decide +kernel

/-- COMMIT of a trace setting and of a sounding slot, each staged with CHANGE. -/
theorem test_commit_clauses_meet :
    let entry : BitVec 32 := BitVec.ofNat 32 (2 ^ 28 + 3 * 2 ^ 16 + 0x15)
    let staged : SMap Byte := memWrite [] (traceEntryAddr 1) (le 8 entry.toNat)
    let tap : SMap Byte := memWrite [] 0x40 ([0, 2, 0x81, 0x3F] ++ zeros 60)
    let a : Agent := { running with staging := staged, armed := [(4, { stopArmed with arg := 3 })], engines := [(1, { begun := 9 })] }
    let b : Agent := { running with staging := tap, armed := [(4, { stopArmed with arg := 2 })] }
    a.traceEntry 1 = entry.toNat ∧
    after (.commitInstant 5) (withAgent 5 a hub) (fun h => ((h.agent 5).engine 1).trace == 0x15 && ((h.agent 5).engine 1).kM1 == 3 &&
      ((h.agent 5).engine 1).begun == 0 && (h.agent 5).traceEntry 1 < 2 ^ 28) = true ∧
    after (.commitInstant 5) (withAgent 5 b hub) (fun h => (h.agent 5).taps.map (fun t => (t.1, t.2.sounding, t.2.ctrl)) == [(0, 0, 1)] &&
      memByte (h.agent 5).staging 0x42 == 1) = true := by decide +kernel

/-- A tagged push that the unit sent before it lost its power; a FREEZE that replaces one still to come; a configuration port and an
injector that refuse; a Mark with a collector's domain off. -/
theorem test_counter_and_trace_clauses_meet :
    let p : TaggedPush := { incr := { busy := 7 }, freezeId := 1, snapPt := 0, late := false, state := 0 }
    let pushing := withAgent 5 { running with cnt := { tagged := [p] } } hub
    let waits : Hub := { hub5 with arrays := { freezeId := 3, freezes := [{ frozen with instant := 40009000 }] } }
    let held (i : Nat) (h : Hub) : Hub := { h with red := { h.red with stages := [(i, some (9, .east))] } }
    let ownStage (i : Nat) (h : Hub) : Hub := { h with red := { h.red with stages := [(i, some (1, .west))] } }
    let dark : Hub := { traceSet with power := { hub.power with domains := 0xFFFDF } }
    ([Instr.unitPowerOff 5, .emergencyPowerOff 5].all fun i => after i pushing fun h => (h.arrayTotals 5).busy == 7 && !(h.agent 5).powered) = true ∧
    after (.counterFreeze hdr 0 0 five) waits (fun h => h.arrays.freezes.map (fun f => (f.freezeId, f.westTaken && f.eastTaken)) ==
      [(4, false), (3, true)]) = true ∧
    (held 1 hub).rootOpen = false ∧ (ownStage 1 hub).rootOpen = true ∧ ((held (collectorStage 0) traceSet).taken hdr).refuses (collectorStage 0) = true ∧
    after (.traceRestart hdr) (held (collectorStage 0) { traceSet with trace := { traceSet.trace with collectors := [(0, { lineSeq := 9 }), (1, { lineSeq := 9 })] } })
      (fun h => (h.collector 0).lineSeq == 9 && (h.collector 1).lineSeq == 0 && h.out.contains (.rejected (collectorStage 0) .west)) = true ∧
    after (.traceMark hdr 0 5) dark (fun h => (h.collector 0).marks == [] && (h.collector 16).marks.length == 1) = true ∧
    after (.stopCancel hdr) (held 1 hub) (fun h => h.out.contains (.rejected 1 .west) && h.dcn.issued == [] && h.red.rejects == 2) = true ∧
    hub.muxRefuses = false ∧ (held 0 laneUp).refuses 0 = true ∧ ((held 0 laneUp).sendReply .dpt 0 hdr .ok []).out = [.rejected 0 .west] := by decide +kernel

/-- A beat across the fence of a command step; a REPLAY whose number has no room in its ring; the crossbar in dump mode. -/
theorem test_step_and_replay_clauses_meet :
    let beat : Beat := { address := 0x1000, tag := 3, outBase := 0x1000, data := [1, 2, 3, 4], scales := [] }
    let fenced := { stepping true none with power := hub.power }
    let fresh : Hub := waiting (feReq .dumpModeEnter [] 39999000)
    (fenced.agent 5).engineGated 1 = false ∧ fenced.crossesFence 5 0x1000 = true ∧ hub5.crossesFence 5 0x1000 = false ∧
    (match exec (.writebackBeat 5 1 beat) (st fenced) with
      | .next t => t.mem == [] && (t.hub.agent 5).outbound == [(1, 0x1000, [1, 2, 3, 4])]
      | _ => false) = true ∧
    fresh.waitingDump = none ∧
    after (.frontEndAnswer .dumpModeEntered) (withAgent 0x5000 { running with selfRefresh := true } fresh) (fun h =>
      h.fe.dumpMode && !(h.agent 0x5000).selfRefresh) = true := by decide +kernel

/-- A unit that leaves: already read, in the middle of its reading, Absent at the stop, and Unreachable then without an answer. -/
theorem test_leaving_units_meet :
    let run (h : Hub) (q : DumpRun → Bool) : Bool := h.slot.any fun e => match e.prog with | .dump r => q r | _ => false
    let leave (r : DumpRun) (q : DumpRun → Bool) : Bool := after (.unitPresenceChange 5 .poweredOff) (dumping r) fun h => run h q
    leave { dumpRun with todo := [], done := [5] } (fun r => r.unreach.map (·.unit) == [5] && r.sections == []) = true ∧
    leave { dumpRun with types := some [2] } (fun r => r.todo.map (·.1) == [6] && r.sections.length == 1) = true ∧
    leave { dumpRun with todo := [(5, 1)] } (fun r => r.todo == [(5, 1)] && r.unreach == []) = true ∧
    leave { dumpRun with todo := [(5, 3)] } (fun r => r.todo == [(5, 3)] && r.unreach == []) = true ∧
    leave { dumpRun with todo := [(5, 3)], types := some [2] } (fun r => r.todo == [] && r.unreach.map (·.unit) == [5]) = true ∧
    leave { dumpRun with todo := [(6, 0)] } (fun r => r.todo == [(6, 0)] && r.unreach == []) = true := by decide +kernel

/-- The reload with the directory in force damaged: with the older one, and with that damaged too. -/
theorem test_directories_meet :
    let old : FlashDir := { dirSeq := 8, items := [{ data := .cand candidate, blocks := [2] }], candLost := 3, resultsLost := 0 }
    let flash : Flash := { dirSeq := 9, items := [], older := some old, corrupt := [1] }
    let h (f : Flash) : Hub := { hub with pat := { reloading := true, flash := f } }
    after .patternReload (h flash) (fun h => !h.pat.reloading && h.pat.candidates == [candidate] && h.pat.flash.dirSeq == 8) = true ∧
    after .patternReload (h { flash with corrupt := [0, 1] }) (fun h => !h.pat.reloading && h.pat.candidates == [] && h.pat.packs == []) = true ∧
    after .patternReload (h { flash with older := none }) (fun h => !h.pat.reloading && h.pat.candidates == []) = true ∧
    after .resultsMirror { hub with pat := { candLost := 1, flash := { dirSeq := 9 } } } (fun h => h.pat.flash.dirSeq == 10 && h.pat.flash.candLost == 1) =
      true := by decide +kernel

/-- A probe that waited past a sighting step; actions with no controller that holds the claim; the lead of a MARK after a
failover. -/
theorem test_probe_clauses_meet :
    let away : Hub := { queued 4 39999000 with red := { hub.red with west := { hub.red.west with role := .withdrawn } } }
    let later : Hub := { queued 1 39999000 with red := { hub.red with grantPt := 39999500 } }
    away.claimHeld = false ∧ later.actFrom ⟨7, 1, 0x55, 0, 39999000⟩ = 40000000 ∧ (queued 1 39999000).actFrom ⟨7, 1, 0x55, 0, 39999000⟩ = 39999000 ∧
    after .probeAction away (fun h => h.probe.queue.length == 2) = true ∧
    after .probeAction later (fun h => h.trace.marked.getLast? == some (40001000, false)) = true ∧
    after (.probeEvaluation 7) (withSlot 7 { dueSlot with state := .evaluating, after := some 77 } hub) (fun h =>
      (h.probe.slot 7).next == 77 && (h.probe.slot 7).after == none && (h.probe.slot 7).skippedN == dueSlot.skippedN + 1) = true := by decide +kernel

/-- Both roots' domains after a reset with a fixed source present; an agent that answers ENUM with another's Unit ID; a controller
before the image is verified; a bound that ends nothing, and that of a long INSPECT_READ. -/
theorem test_reset_and_bound_clauses_meet :
    let faulty : Hub := { hub with fc := { fixedPresent := [0xFA5] } }
    let swapped : Hub := { hub5 with power := { hub.power with startUp := .granted }, chip := { hub.chip with ports := [(5, some 6)] } }
    let early : Hub := { pair with power := { pair.power with startUp := .voted } }
    let run (n : Nat) (i : Instr) (p : Instr → Prog) : Hub := { hub5 with slot := some { execOf 0x0308 (p i) with startPt := 40000000 - n } }
    after .hubReset faulty (fun h => h.fc.safe && (List.range 19).all fun d => !h.domainOn (d + 2)) = true ∧
    swapped.enumAnswer 5 = some 6 ∧
    after .dcnEnumeration swapped (fun h => h.power.startUp == .enumerated && (h.agent 5).unreachable && (h.fc.source 0xFC6).count == 1) = true ∧
    early.mayBoot = false ∧
    after (.firmwareUp .east) (setEast {} early) (fun h => !h.red.east.up) = true ∧
    after .opcodeBoundEnd (run 39000000 (.counterSnapshotRead hdr five) (.gather [5])) (fun h => h.slot.isSome && h.out == []) = true ∧
    after .opcodeBoundEnd (run 1024999 (.inspectRead hdr 5 0 0 100) (.access 5)) (fun h => h.slot.isSome) = true ∧
    after .opcodeBoundEnd (run 1025000 (.inspectRead hdr 5 0 0 100) (.access 5)) (answered .boundReached []) = true := by decide +kernel

end Sys2Proof.Tests
end

namespace Sys2Proof.Machine

section
variable {i : Ident} {h : Hub}

/-! ### The identity a later hub still has -/

/-- Every unit that `i` shows retired is retired in `j`, and an assigned Chip ID of `i` is that of `j` (R22, R28). -/
def Ident.KeptIn (i j : Ident) : Prop :=
  (∀ o ∈ i.retired, o ∈ j.retired) ∧ (i.assigned = true → j.assigned = true ∧ j.chipId = i.chipId)

/-- The hub still has what `i` records. -/
def Keeps (i : Ident) (h : Hub) : Prop := i.KeptIn h.ident

theorem Keeps.refl (h : Hub) : Keeps h.ident h := ⟨fun _ m => m, fun a => ⟨a, rfl⟩⟩

theorem mem_insertNat_of_mem {o n : Nat} {l : List Nat} (m : o ∈ l) : o ∈ insertNat n l := by
  induction l with
  | nil => cases m
  | cons a l ih =>
    simp only [insertNat]
    split
    · exact List.mem_cons_of_mem _ m
    · split
      · exact m
      · rcases List.mem_cons.1 m with rfl | m
        · exact List.mem_cons_self
        · exact List.mem_cons_of_mem _ (ih m)

/-- A retirement adds to the map and leaves the Chip ID. -/
theorem Ident.KeptIn.retire {i j : Ident} {o : Nat} (k : i.KeptIn j) : i.KeptIn (j.retire o) := by
  unfold Ident.retire
  split
  · exact k
  · exact ⟨fun p m => mem_insertNat_of_mem (k.1 p m), k.2⟩

theorem Ident.KeptIn.foldl_retire {i j : Ident} {l : List Nat} (k : i.KeptIn j) :
    i.KeptIn (l.foldl Ident.retire j) := by
  induction l generalizing j with
  | nil => exact k
  | cons o l ih => exact ih k.retire

/-- A Chip ID given to a chip that has none leaves none changed. -/
theorem Ident.KeptIn.assign {i j : Ident} {c : W16} (k : i.KeptIn j) (free : ¬ j.assigned = true) :
    i.KeptIn { j with chipId := c, assigned := true } :=
  ⟨k.1, fun a => absurd (k.2 a).1 free⟩

/-! ### Rules for the forms that functions of the hub have

Each function of the hub below has one rule, under the function's own name: it keeps what the hub it was given keeps.
The rules are applied as the function is written. -/

/-- An update of other blocks. -/
theorem Keeps.upd {time sight port tap i3c trig ctl dcn agents stops dump trace arrays soundings soundBudget replayStat
    probe fc pat red island power fe chip slot discards latches out free} (k : Keeps i h) :
    Keeps i ⟨time, sight, h.ident, port, tap, i3c, trig, ctl, dcn, agents, stops, dump, trace, arrays, soundings,
      soundBudget, replayStat, probe, fc, pat, red, island, power, fe, chip, slot, discards, latches, out, free⟩ := k

/-- An update of the identity with one that still has what `i` records. -/
theorem Keeps.withIdent {j time sight port tap i3c trig ctl dcn agents stops dump trace arrays soundings soundBudget
    replayStat probe fc pat red island power fe chip slot discards latches out free} (k : i.KeptIn j) :
    Keeps i ⟨time, sight, j, port, tap, i3c, trig, ctl, dcn, agents, stops, dump, trace, arrays, soundings,
      soundBudget, replayStat, probe, fc, pat, red, island, power, fe, chip, slot, discards, latches, out, free⟩ := k

section
variable {c : Prop} [Decidable c] {α β γ : Type}

theorem Keeps.ite {a b : Hub} (ka : Keeps i a) (kb : Keeps i b) : Keeps i (if c then a else b) := by
  split
  · exact ka
  · exact kb

theorem Keeps.ite₁ {a b : Hub × α} (ka : Keeps i a.1) (kb : Keeps i b.1) : Keeps i (if c then a else b).1 := by
  split
  · exact ka
  · exact kb

theorem Keeps.ite₂ {a b : α × Hub} (ka : Keeps i a.2) (kb : Keeps i b.2) : Keeps i (if c then a else b).2 := by
  split
  · exact ka
  · exact kb

theorem Keeps.foldl {f : Hub → β → Hub} {l : List β} (k : Keeps i h)
    (kept : ∀ h b, Keeps i h → Keeps i (f h b)) : Keeps i (l.foldl f h) := by
  induction l generalizing h with
  | nil => exact k
  | cons b l ih => exact ih (kept h b k)

theorem Keeps.foldl₁ {f : Hub × α → β → Hub × α} {l : List β} {x : Hub × α} (k : Keeps i x.1)
    (kept : ∀ x b, Keeps i x.1 → Keeps i (f x b).1) : Keeps i (l.foldl f x).1 := by
  induction l generalizing x with
  | nil => exact k
  | cons b l ih => exact ih (kept x b k)

theorem Keeps.foldl₂ {f : α × Hub → β → α × Hub} {l : List β} {x : α × Hub} (k : Keeps i x.2)
    (kept : ∀ x b, Keeps i x.2 → Keeps i (f x b).2) : Keeps i (l.foldl f x).2 := by
  induction l generalizing x with
  | nil => exact k
  | cons b l ih => exact ih (kept x b k)

theorem Keeps.pair₁ {a : α} (k : Keeps i h) : Keeps i (h, a).1 := k

theorem Keeps.pair₂ {a : α} (k : Keeps i h) : Keeps i (a, h).2 := k

/-- The hub of a result that has been taken apart. -/
theorem Keeps.ofSnd {x : α × Hub} {a : α} (e : x = (a, h)) (k : Keeps i x.2) : Keeps i h := by
  subst e
  exact k

end

/-! ### Units, domains, outputs, replies and admission -/

theorem Keeps.setAgent {u a} (k : Keeps i h) : Keeps i (h.setAgent u a) := .upd k

theorem Keeps.modAgent {u f} (k : Keeps i h) : Keeps i (h.modAgent u f) := .setAgent k

theorem Keeps.setLink {n s} (k : Keeps i h) : Keeps i (h.setLink n s) := .upd k

theorem Keeps.emit {o} (k : Keeps i h) : Keeps i (h.emit o) := .upd k

theorem Keeps.drawFree (k : Keeps i h) : Keeps i h.drawFree := .upd k

theorem Keeps.powerDomain {d} (k : Keeps i h) : Keeps i (h.powerDomain d) := by
  dsimp only [Hub.powerDomain]
  exact .ite k (by split <;> exact .upd k)

theorem Keeps.powerDomains {ds} (k : Keeps i h) : Keeps i (h.powerDomains ds) :=
  .foldl k fun _ _ k => .powerDomain k

theorem Keeps.domainsOff {ds} (k : Keeps i h) : Keeps i (h.domainsOff ds) := .upd k

theorem Keeps.wakeDomains (k : Keeps i h) : Keeps i h.wakeDomains := .powerDomains k

theorem Keeps.wake (k : Keeps i h) : Keeps i h.wake := .ite (.wakeDomains (.upd k)) k

theorem Keeps.atWork (k : Keeps i h) : Keeps i h.atWork := .upd k

theorem Keeps.wakeWork (k : Keeps i h) : Keeps i h.wakeWork := .atWork (.wake k)

theorem Keeps.refuse {j side} (k : Keeps i h) : Keeps i (h.refuse j side) := .emit (.upd k)

theorem Keeps.atStage {j} {act : Hub → Hub} (k : Keeps i h) (kept : ∀ h, Keeps i h → Keeps i (act h)) :
    Keeps i (h.atStage j act) := .ite (.refuse k) (kept _ k)

theorem Keeps.pumpFuel {f} (k : Keeps i h) : Keeps i (pumpFuel f h) := by
  induction f generalizing h with
  | zero => exact k
  | succ f ih =>
    dsimp only [Machine.pumpFuel]
    split
    · exact k
    · exact .ite k (ih (.emit (.upd k)))

theorem Keeps.pump (k : Keeps i h) : Keeps i h.pump := .pumpFuel k

theorem Keeps.fillJtag (k : Keeps i h) : Keeps i h.fillJtag := .upd k

theorem Keeps.send {tr p} (k : Keeps i h) : Keeps i (h.send tr p) := by
  dsimp only [Hub.send]
  refine .ite k ?_
  split
  · exact .atStage k fun _ k => .pump (.upd (.emit k))
  · exact .fillJtag (.upd (.emit k))

theorem Keeps.sendReply {tr code hdr st body} (k : Keeps i h) : Keeps i (h.sendReply tr code hdr st body) :=
  .foldl k fun _ _ k => .send k

theorem Keeps.answerOn {tr code hdr st body} (k : Keeps i h) : Keeps i (h.answerOn tr code hdr st body) :=
  .ite (.upd k) (.sendReply k)

theorem Keeps.syncDone (k : Keeps i h) : Keeps i h.syncDone := .foldl (.upd k) fun _ _ k => .sendReply k

theorem Keeps.answer {code hdr st body} (k : Keeps i h) : Keeps i (h.answer code hdr st body) := .answerOn k

theorem Keeps.ok {code hdr body} (k : Keeps i h) : Keeps i (h.ok code hdr body) := .answer k

theorem Keeps.badArg {code hdr offset} (k : Keeps i h) : Keeps i (h.badArg code hdr offset) := .answer k

theorem Keeps.badState {code hdr} (k : Keeps i h) : Keeps i (h.badState code hdr) := .answer k

theorem Keeps.denied {code hdr} (k : Keeps i h) : Keeps i (h.denied code hdr) := .answer k

theorem Keeps.occupy {code hdr p} (k : Keeps i h) : Keeps i (h.occupy code hdr p) := .upd k

theorem Keeps.conclude {st body} (k : Keeps i h) : Keeps i (h.conclude st body) := by
  dsimp only [Hub.conclude]
  split
  · exact k
  · exact .ite (.upd k) (.answerOn (.upd k))

theorem Keeps.setProg {p} (k : Keeps i h) : Keeps i (h.setProg p) := .upd k

theorem Keeps.touch {tag} (k : Keeps i h) : Keeps i (h.touch tag) := .upd k

theorem Keeps.working (k : Keeps i h) : Keeps i h.working := .upd k

theorem Keeps.icp {code hdr} {run : Hub → Hub} (k : Keeps i h) (kept : ∀ h, Keeps i h → Keeps i (run h)) :
    Keeps i (h.icp code hdr run) := by
  have w : Keeps i (h.touch hdr.session).wake.working := .working (.wake (.touch k))
  dsimp only [Hub.icp]
  split
  · exact k
  · refine .ite (.ite (.ite (.answer (.upd k)) (kept _ k)) k) (.ite k ?_)
    split
    · exact kept _ w
    · exact .answer (.ite (.upd (.ite (.upd w) w)) (.ite (.upd w) w))

/-! ### Packets into the network -/

theorem Keeps.inject {c p} (k : Keeps i h) : Keeps i (h.inject c p) := .upd k

theorem Keeps.injectAll {ps} (k : Keeps i h) : Keeps i (h.injectAll ps) := .atStage k fun _ k => .upd k

theorem Keeps.injectDown {p} (k : Keeps i h) : Keeps i (h.injectDown p) := .injectAll k

theorem Keeps.enterLatch {l} (k : Keeps i h) : Keeps i (h.enterLatch l) := by
  dsimp only [Hub.enterLatch]
  split
  · exact k
  · exact .ite k (.upd k)

theorem Keeps.latch {l} (k : Keeps i h) : Keeps i (h.latch l) := .ite (.upd k) (.enterLatch k)

theorem Keeps.emptiedFuel {n cls f} (k : Keeps i h) : Keeps i (emptiedFuel n cls f h) := by
  induction f generalizing h with
  | zero => exact k
  | succ f ih =>
    dsimp only [Machine.emptiedFuel]
    split
    · exact ih (.enterLatch (.upd k))
    · exact k

theorem Keeps.startBcast {root cls startPt cells} (k : Keeps i h) : Keeps i (h.startBcast root cls startPt cells) :=
  .latch k

/-! ### Broadcasts, combines and accesses -/

theorem Keeps.start {b} (k : Keeps i h) : Keeps i (h.start b) := .emit (.startBcast (.upd k))

theorem Keeps.issueTagged {cls sc instant arg tag} (k : Keeps i h) :
    Keeps i (h.issueTagged cls sc instant arg tag) := .atStage k fun _ k => .start (.upd k)

theorem Keeps.issue {cls sc instant arg} (k : Keeps i h) : Keeps i (h.issue cls sc instant arg) := .issueTagged k

theorem Keeps.writeMasks {cls us} (k : Keeps i h) : Keeps i (h.writeMasks cls us) := .upd k

theorem Keeps.maskFor {cls sc us} (k : Keeps i h) : Keeps i (h.maskFor cls sc us) := .ite (.writeMasks k) k

theorem Keeps.addCombine {c} (k : Keeps i h) : Keeps i (h.addCombine c) := .upd k

theorem Keeps.openCollect {r} (k : Keeps i h) : Keeps i (h.openCollect r) := .issueTagged (.addCombine k)

theorem Keeps.beginMcast {sc m} (k : Keeps i h) : Keeps i (h.beginMcast sc m) := .upd (.addCombine k)

theorem Keeps.collect {op quantity sc instant timeoutUs j} (k : Keeps i h) :
    Keeps i (h.collect op quantity sc instant timeoutUs j) := .ite k (.ite (.openCollect k) (.upd k))

theorem Keeps.setCombine {c} (k : Keeps i h) : Keeps i (h.setCombine c) := .upd k

theorem Keeps.nextCollect (k : Keeps i h) : Keeps i h.nextCollect := by
  dsimp only [Hub.nextCollect]
  split
  · exact .openCollect (.upd k)
  · exact k

theorem Keeps.endCombine {tag} (k : Keeps i h) : Keeps i (h.endCombine tag) := by
  dsimp only [Hub.endCombine]
  split
  · exact k
  · exact .nextCollect (.upd k)

theorem Keeps.contribute {u tag v} (k : Keeps i h) : Keeps i (h.contribute u tag v) := by
  dsimp only [Hub.contribute]
  split
  · exact k
  · exact .ite k (.inject (.setCombine k))

theorem Keeps.sendUp {c s body} (k : Keeps i h) : Keeps i (h.sendUp c s body) := by
  dsimp only [Hub.sendUp]
  split
  · exact .inject (.setCombine k)
  · exact .setCombine k

theorem Keeps.sendRequest {tries p} (k : Keeps i h) : Keeps i (h.sendRequest tries p) :=
  .ite (.upd k) (.ite (.upd k) (.injectDown (.upd k)))

theorem Keeps.sendWaiting {f} (k : Keeps i h) : Keeps i (sendWaiting f h) := by
  induction f generalizing h with
  | zero => exact k
  | succ f ih =>
    dsimp only [Machine.sendWaiting]
    split
    · exact .ite k (ih (.sendRequest (.upd k)))
    · exact k

theorem Keeps.dropTxns {p} (k : Keeps i h) : Keeps i (h.dropTxns p) := .sendWaiting (.upd k)

theorem Keeps.dropAccess {u} (k : Keeps i h) : Keeps i (h.dropAccess u) := .dropTxns (.upd k)

theorem Keeps.learnState {u s} (k : Keeps i h) : Keeps i (h.learnState u s) := .upd k

theorem Keeps.withAgent {code hdr u again} {run : Hub → Hub} (k : Keeps i h)
    (kept : ∀ h, Keeps i h → Keeps i (run h)) :
    Keeps i (h.withAgent code hdr u again run) := .ite (kept _ k) (.ite (.sendRequest (.occupy k)) (.answer k))

theorem Keeps.withAgents {code hdr us again} {run : Hub → Hub} (k : Keeps i h)
    (kept : ∀ h, Keeps i h → Keeps i (run h)) :
    Keeps i (h.withAgents code hdr us again run) := .ite (kept _ k) (.foldl (.occupy k) fun _ _ k => .sendRequest k)

/-! ### Marks, triggers and restarts -/

theorem Keeps.setCollector {c x} (k : Keeps i h) : Keeps i (h.setCollector c x) := .upd k

theorem Keeps.allCollectors {f} (k : Keeps i h) : Keeps i (h.allCollectors f) :=
  .foldl k fun _ _ k => .setCollector k

theorem Keeps.mark {instant value origin program trigger} (k : Keeps i h) :
    Keeps i (h.mark instant value origin program trigger) :=
  .foldl (.upd k) fun _ _ k => .ite k (.atStage k fun _ k => .setCollector k)

theorem Keeps.triggerNow {tt value origin program} (k : Keeps i h) :
    Keeps i (h.triggerNow tt value origin program) := .mark (.upd k)

theorem Keeps.triggerIgnored (k : Keeps i h) : Keeps i h.triggerIgnored := .upd k

theorem Keeps.trigger {tt value origin program} (k : Keeps i h) : Keeps i (h.trigger tt value origin program) :=
  .ite (.triggerNow k) (.triggerIgnored k)

theorem Keeps.triggerOrMark {tt value origin program} (k : Keeps i h) :
    Keeps i (h.triggerOrMark tt value origin program) := .ite (.triggerNow k) (.mark (.triggerIgnored k))

theorem Keeps.restartStreams (k : Keeps i h) : Keeps i h.restartStreams := .allCollectors (.upd k)

theorem Keeps.restartByCommand (k : Keeps i h) : Keeps i h.restartByCommand :=
  .foldl (.upd k) fun _ _ k => .atStage k fun _ k => .setCollector k

/-! ### Hangs and stops as issued -/

theorem Keeps.declareHang {cause unit engine data session} (k : Keeps i h) :
    Keeps i (h.declareHang cause unit engine data session) := .ite (.trigger (.drawFree (.upd k))) (.upd k)

theorem Keeps.issueStop {t sc us pod late initiator} (k : Keeps i h) :
    Keeps i (h.issueStop t sc us pod late initiator) := .upd (.issue (.maskFor k))

theorem Keeps.stopWithoutReply {t} (k : Keeps i h) : Keeps i (h.stopWithoutReply t) := .upd (.issueStop k)

theorem Keeps.ctlAll {skip typ payload} (k : Keeps i h) : Keeps i (h.ctlAll skip typ payload) :=
  .ite k (.foldl k fun _ _ k => .ite (.emit k) k)

/-! ### Faults, reactions and retirement -/

theorem Keeps.noteIbi (k : Keeps i h) : Keeps i h.noteIbi := .ite k (.upd k)

theorem Keeps.decideTaint {t} (k : Keeps i h) : Keeps i (h.decideTaint t) := .ite (.upd k) (.ite (.upd k) (.upd k))

theorem Keeps.eventTaint {s unit origin} (k : Keeps i h) : Keeps i (h.eventTaint s unit origin) := .decideTaint k

theorem Keeps.feRequest {r us} (k : Keeps i h) : Keeps i (h.feRequest r us) := .emit (.upd k)

theorem Keeps.feReissue {u engine scratch descriptor} (k : Keeps i h) :
    Keeps i (h.feReissue u engine scratch descriptor) := .emit (.upd k)

theorem Keeps.requestDrop {record} (k : Keeps i h) : Keeps i (h.requestDrop record) := .emit (.upd k)

theorem Keeps.discardWaiting {reaction} (k : Keeps i h) : Keeps i (h.discardWaiting reaction) := by
  dsimp only [Hub.discardWaiting]
  split
  · exact k
  · exact .ite k (.send (.upd k))

theorem Keeps.discardSlot {reaction} (k : Keeps i h) : Keeps i (h.discardSlot reaction) := by
  dsimp only [Hub.discardSlot]
  split
  · exact .discardWaiting k
  · exact .ite (.conclude k) (.ite (.conclude k) (.feRequest (.conclude k)))

theorem Keeps.discardWork {reaction record} (k : Keeps i h) : Keeps i (h.discardWork reaction record) :=
  .ite (.upd (.ite (.discardSlot k) (.upd (.discardSlot k))))
    (.requestDrop (.ite (.discardSlot k) (.upd (.discardSlot k))))

theorem Keeps.retireNow {u} (k : Keeps i h) : Keeps i (h.retireNow u) :=
  .emit (.feRequest (.withIdent (Ident.KeptIn.retire k)))

theorem Keeps.retire {u record} (k : Keeps i h) : Keeps i (h.retire u record) := by
  dsimp only [Hub.retire]
  refine .ite ?_ ?_
  · split
    · exact .upd k
    · exact k
  · exact .ite (by split <;> exact .upd k) (.retireNow k)

theorem Keeps.issueSafe (k : Keeps i h) : Keeps i h.issueSafe :=
  .ite k (.foldl (.upd k) fun _ _ k => .emit (.start k))

theorem Keeps.enterSafe {record} (k : Keeps i h) : Keeps i (h.enterSafe record) :=
  .ite k (.discardWork (.upd (.allCollectors (.upd (.wakeWork (.issueSafe k))))))

theorem Keeps.fire {performed s u record} (k : Keeps i h) : Keeps i (h.fire performed s u record) := by
  dsimp only [Hub.fire]
  split
  · exact .retire (.discardWork (.ite (.upd (.wakeWork k)) (.wakeWork k)))
  · refine .ite ?_ (.discardWork (.stopWithoutReply (.declareHang (.ite (.upd (.wakeWork k)) (.wakeWork k)))))
    refine .discardWork ?_
    split
    · exact .upd (.declareHang (.ite (.upd (.wakeWork k)) (.wakeWork k)))
    · exact .declareHang (.ite (.upd (.wakeWork k)) (.wakeWork k))
  · exact .enterSafe k
  · exact k

theorem Keeps.countEvent {r s u data origin} (k : Keeps i h) : Keeps i (h.countEvent r s u data origin) :=
  .ite (.upd k) (.ite (.upd k) (.ite (.upd k) (.fire (.upd k))))

theorem Keeps.disposeEvent {s u data origin injected} (k : Keeps i h) :
    Keeps i (h.disposeEvent s u data origin injected) := by
  dsimp only [Hub.disposeEvent]
  split
  · exact k
  · refine .ite (.upd k) (.ite (.enterSafe (.upd (.ite (.eventTaint (.upd k)) (.upd k)))) ?_)
    split
    · exact .upd k
    · split
      · exact .ite (.eventTaint (.upd k)) (.upd k)
      · exact .countEvent (.ite (.eventTaint (.upd k)) (.upd k))

theorem Keeps.takeEvent {s u data origin injected} (k : Keeps i h) :
    Keeps i (h.takeEvent s u data origin injected) := .noteIbi (.disposeEvent k)

theorem Keeps.raise {s u data} (k : Keeps i h) : Keeps i (h.raise s u data) := .takeEvent k

theorem Keeps.raiseLine {s data asserted} (k : Keeps i h) : Keeps i (h.raiseLine s data asserted) := .takeEvent k

theorem Keeps.flashError {block} (k : Keeps i h) : Keeps i (h.flashError block) := .raise k

theorem Keeps.stored {code hdr body} (k : Keeps i h) : Keeps i (h.stored code hdr body) := .ite (.answer k) (.ok k)

/-! ### Staging, soundings and sessions -/

theorem Keeps.castStaging {tag us ps} (k : Keeps i h) : Keeps i (h.castStaging tag us ps) :=
  .ite (.upd k) (.injectAll (.beginMcast k))

theorem Keeps.stageAll {us ws} (k : Keeps i h) : Keeps i (h.stageAll us ws) :=
  .foldl (.castStaging k) fun _ _ k => .contribute (.modAgent k)

theorem Keeps.commit {sc instant arg} (k : Keeps i h) : Keeps i (h.commit sc instant arg) := .issue k

theorem Keeps.setSounding {s x} (k : Keeps i h) : Keeps i (h.setSounding s x) := .upd k

theorem Keeps.clearSounding {s td} (k : Keeps i h) : Keeps i (h.clearSounding s td) :=
  .setSounding (.commit (.stageAll k))

theorem Keeps.clearOwned {tag} (k : Keeps i h) : Keeps i (h.clearOwned tag) :=
  .foldl k fun _ _ k => .clearSounding k

theorem Keeps.setGate (k : Keeps i h) : Keeps i h.setGate := .ite k (.emit (.upd k))

theorem Keeps.endSession {tag} (k : Keeps i h) : Keeps i (h.endSession tag) := .setGate (.upd (.clearOwned k))

theorem Keeps.endSessions {p} (k : Keeps i h) : Keeps i (h.endSessions p) := .foldl k fun _ _ k => .endSession k

theorem Keeps.endAllSessions (k : Keeps i h) : Keeps i h.endAllSessions := .endSessions k

theorem Keeps.leaveTransport {left} (k : Keeps i h) : Keeps i (h.leaveTransport left) := .upd (.endSessions k)

theorem Keeps.discardInFlight (k : Keeps i h) : Keeps i h.discardInFlight := .upd k

/-! ### Arrays, partitions and power of units -/

theorem Keeps.arrayAdd {u t} (k : Keeps i h) : Keeps i (h.arrayAdd u t) := .upd k

theorem Keeps.deliverTagged {u} (k : Keeps i h) : Keeps i (h.deliverTagged u) := by
  dsimp only [Hub.deliverTagged]
  split
  · exact k
  · split
    · exact .setAgent (.arrayAdd k)
    · exact .upd (.setAgent (.arrayAdd k))

theorem Keeps.push {u} (k : Keeps i h) : Keeps i (h.push u) :=
  .setAgent (.arrayAdd (.foldl k fun _ _ k => .deliverTagged k))

theorem Keeps.loadPartition {u} (k : Keeps i h) : Keeps i (h.loadPartition u) := by
  dsimp only [Hub.loadPartition]
  exact .ite k (by split <;> exact .modAgent k)

theorem Keeps.loadTotals {u} (k : Keeps i h) : Keeps i (h.loadTotals u) := .ite k (.modAgent k)

theorem Keeps.answerPending {u} (k : Keeps i h) : Keeps i (h.answerPending u) := .upd k

theorem Keeps.powerDown {u} (k : Keeps i h) : Keeps i (h.powerDown u) :=
  .emit (.answerPending (.modAgent (.ite (.push k) k)))

theorem Keeps.releasePower {u} (k : Keeps i h) : Keeps i (h.releasePower u) := .ite (.powerDown k) k

theorem Keeps.landPushes {u} (k : Keeps i h) : Keeps i (h.landPushes u) :=
  .ite k (.foldl k fun _ _ k => .deliverTagged k)

theorem Keeps.unitGone {u} (k : Keeps i h) : Keeps i (h.unitGone u) :=
  .setAgent (.upd (.setCollector (.landPushes k)))

theorem Keeps.retirementDone {u} (k : Keeps i h) : Keeps i (h.retirementDone u) := by
  dsimp only [Hub.retirementDone]
  refine .ite k ?_
  split
  · exact .ite (.conclude (.upd k)) (.upd k)
  · exact .upd k

/-! ### Events and notices of units -/

theorem Keeps.opUnitPowerOn {unit} (k : Keeps i h) : Keeps i (opUnitPowerOn unit h) := .ite k (.emit (.setAgent k))

theorem Keeps.opReplicaLoad {unit} (k : Keeps i h) : Keeps i (opReplicaLoad unit h) :=
  .ite k (.loadPartition (.loadTotals (.modAgent k)))

theorem Keeps.opPartitionChange {unit member ident} (k : Keeps i h) :
    Keeps i (opPartitionChange unit member ident h) := .ite k (.ite (.upd k) (.modAgent (.upd k)))

theorem Keeps.opPowerDownRequest {unit} (k : Keeps i h) : Keeps i (opPowerDownRequest unit h) :=
  .ite k (.ite (.modAgent k) (.powerDown k))

theorem Keeps.accessLost {u} (k : Keeps i h) : Keeps i (h.accessLost u) := by
  dsimp only [Hub.accessLost]
  split
  · exact .ite (.conclude (.dropAccess k)) k
  · exact k

theorem Keeps.opUnitPowerOff {unit} (k : Keeps i h) : Keeps i (opUnitPowerOff unit h) :=
  .ite k (.accessLost (.retirementDone (.unitGone (.answerPending k))))

theorem Keeps.opEmergencyPowerOff {unit} (k : Keeps i h) : Keeps i (opEmergencyPowerOff unit h) :=
  .ite k (.retirementDone (.unitGone k))

theorem Keeps.opUnitEvent {unit code engine data} (k : Keeps i h) : Keeps i (opUnitEvent unit code engine data h) :=
  .ite k (.modAgent k)

theorem Keeps.expireWatchdog {u e head} (k : Keeps i h) : Keeps i (h.expireWatchdog u e head) := by
  dsimp only [Hub.expireWatchdog]
  refine .ite k ?_
  split
  · exact k
  · exact .setAgent k

theorem Keeps.opWatchdogExpiry {unit engine head} (k : Keeps i h) : Keeps i (opWatchdogExpiry unit engine head h) :=
  .expireWatchdog k

theorem Keeps.opWatchdogNotice {unit} (k : Keeps i h) : Keeps i (opWatchdogNotice unit h) := by
  dsimp only [Machine.opWatchdogNotice]
  split
  · exact k
  · exact .takeEvent (.declareHang (.upd k))

theorem Keeps.eventArrives {n} (k : Keeps i h) : Keeps i (h.eventArrives n) :=
  .ite (.takeEvent k) (.ite (.takeEvent k) (.ite (.takeEvent k) k))

theorem Keeps.lateArrives {cls} (k : Keeps i h) : Keeps i (h.lateArrives cls) := by
  dsimp only [Hub.lateArrives]
  split
  · exact .upd k
  · exact .upd k
  · exact .upd k
  · exact .upd k
  · exact k

theorem Keeps.cutArrives {n} (k : Keeps i h) : Keeps i (h.cutArrives n) := .ite (.upd k) (.upd k)

theorem Keeps.refusalArrives {n} (k : Keeps i h) : Keeps i (h.refusalArrives n) := .upd k

theorem Keeps.noticeArrives {n} (k : Keeps i h) : Keeps i (h.noticeArrives n) := by
  dsimp only [Hub.noticeArrives]
  split
  · exact .learnState k
  · exact .refusalArrives k
  · exact .eventArrives k
  · exact .lateArrives k
  · exact .upd k
  · exact .cutArrives k
  · exact k

theorem Keeps.opNoticeSend {unit} (k : Keeps i h) : Keeps i (opNoticeSend unit h) := by
  dsimp only [Machine.opNoticeSend]
  split
  · exact k
  · exact .ite k (.ite (.powerDomains k) (.noticeArrives (.setAgent (.inject (.powerDomains k)))))

theorem Keeps.opPendingRetirement {unit} (k : Keeps i h) : Keeps i (opPendingRetirement unit h) :=
  .ite k (.ite (.retireNow (.upd k)) (.retirementDone (.retireNow (.upd k))))

/-! ### Agent windows -/

theorem Keeps.fence {u data} (k : Keeps i h) : Keeps i (h.fence u data) := .modAgent k

theorem Keeps.writeLimit {u e v head} (k : Keeps i h) : Keeps i (h.writeLimit u e v head) :=
  .expireWatchdog (.modAgent k)

theorem Keeps.writeCtrl {u v} (k : Keeps i h) : Keeps i (h.writeCtrl u v) := .releasePower (.modAgent k)

theorem Keeps.testModeWrite {u off v} (k : Keeps i h) : Keeps i (h.testModeWrite u off v) := by
  dsimp only [Hub.testModeWrite]
  split
  · exact .ite (.modAgent k) k
  · exact .modAgent k
  · exact k

theorem Keeps.writeReg {u off v} (k : Keeps i h) : Keeps i (h.writeReg u off v).2 :=
  .ite₂ (.ite₂ (.fence k) (.ite₂ (.testModeWrite (.modAgent k)) k))
    (.ite₂ (.writeCtrl k) (.ite₂ (.modAgent k) (.ite₂ (.writeLimit k)
    (.ite₂ (.modAgent k) (.ite₂ (.modAgent k) (.ite₂ (.ite (.modAgent k) k) (.ite₂ k k)))))))

theorem Keeps.bulkRead {u addr n} (k : Keeps i h) : Keeps i (h.bulkRead u addr n).2.2 := .ite (.fence k) k

theorem Keeps.bulkWrite {u addr data} (k : Keeps i h) : Keeps i (h.bulkWrite u addr data).2 :=
  .ite₂ (.modAgent k) (.ite₂ (.ite₂ (.modAgent k) (.fence k)) k)

theorem Keeps.agentWrite {u off v} (k : Keeps i h) : Keeps i (h.agentWrite u off v) := .ite (.writeReg k) k

theorem Keeps.opWdogStatusWrite {unit value} (k : Keeps i h) : Keeps i (opWdogStatusWrite unit value h) :=
  .agentWrite k

theorem Keeps.opWdogLimitWrite {unit engine value head} (k : Keeps i h) :
    Keeps i (opWdogLimitWrite unit engine value head h) := .ite (.writeLimit k) k

theorem Keeps.opClearQueues {unit value} (k : Keeps i h) : Keeps i (opClearQueues unit value h) := .agentWrite k

theorem Keeps.opShadowKeepWrite {unit value} (k : Keeps i h) : Keeps i (opShadowKeepWrite unit value h) :=
  .agentWrite k

/-! ### Agents at FREEZE, COMMIT and STOP -/

theorem Keeps.agentFreeze {u arg late} (k : Keeps i h) : Keeps i (h.agentFreeze u arg late) :=
  .ite (.setAgent k) (.setAgent k)

theorem Keeps.commitTrace {u pt e} (k : Keeps i h) : Keeps i (h.commitTrace u pt e) :=
  .ite k (.setCollector (.setAgent k))

theorem Keeps.commitSound {u n'} (k : Keeps i h) : Keeps i (h.commitSound u n') :=
  .ite k (.setCollector (.setAgent k))

theorem Keeps.agentCommit {u arg instant} (k : Keeps i h) : Keeps i (h.agentCommit u arg instant) :=
  .ite (.foldl (.ite (.foldl (.modAgent k) fun _ _ k => .commitTrace k) (.modAgent k)) fun _ _ k => .commitSound k)
    (.ite (.foldl (.modAgent k) fun _ _ k => .commitTrace k) (.modAgent k))

theorem Keeps.sendMarkers {u x late step} (k : Keeps i h) : Keeps i (h.sendMarkers u x late step) :=
  .ite (.emit (.foldl (.emit (.foldl k fun _ _ k => .emit k)) fun _ _ k => .emit k))
    (.emit (.foldl k fun _ _ k => .emit k))

theorem Keeps.agentStop {u x late} (k : Keeps i h) : Keeps i (h.agentStop u x late) :=
  .ite (.sendMarkers (.modAgent k)) (.modAgent k)

/-! ### Hang-stops, pod stops and cut checkers -/

theorem Keeps.opDeclareHang {hdr reason} (k : Keeps i h) : Keeps i (opDeclareHang hdr reason h) :=
  .icp k fun _ k => .ite (.badState k) (.ok (.declareHang k))

theorem Keeps.opHangStatus {hdr} (k : Keeps i h) : Keeps i (opHangStatus hdr h) := .icp k fun _ k => .ok k

theorem Keeps.opHangClear {hdr} (k : Keeps i h) : Keeps i (opHangClear hdr h) := .icp k fun _ k => .ok (.upd k)

theorem Keeps.startPod {t} (k : Keeps i h) : Keeps i (h.startPod t) := .ctlAll (.upd k)

theorem Keeps.opHangStop {hdr t pod sb} (k : Keeps i h) : Keeps i (opHangStop hdr t pod sb h) := by
  dsimp only [Machine.opHangStop]
  refine .icp k fun _ k => .ite (.badArg k) ?_
  split
  · exact .badArg k
  · refine .ite (.answer k) (.ite (.badState k) ?_)
    split
    · exact .badArg k
    · exact .occupy (.ite (.startPod (.issueStop k)) (.issueStop k))

theorem Keeps.confirmStop (k : Keeps i h) : Keeps i h.confirmStop := by
  dsimp only [Hub.confirmStop]
  split
  · exact k
  · exact .ite k (.collect (.collect (.upd k)))

theorem Keeps.endStopHandling (k : Keeps i h) : Keeps i h.endStopHandling := .upd k

theorem Keeps.opStopComplete (k : Keeps i h) : Keeps i (opStopComplete h) := by
  dsimp only [Machine.opStopComplete]
  split
  · exact k
  · refine .ite k ?_
    split
    · exact .ite (.conclude (.endStopHandling (.upd k))) (.endStopHandling (.upd k))
    · exact .endStopHandling (.upd k)

theorem Keeps.opStopCancel {hdr} (k : Keeps i h) : Keeps i (opStopCancel hdr h) :=
  .icp k fun _ k => .occupy (.collect (.maskFor (.upd (.issue k))))

theorem Keeps.actPodStop {link m} (k : Keeps i h) : Keeps i (h.actPodStop link m) :=
  .ite (.ctlAll (.declareHang (.upd (.wakeWork k)))) (.upd (.issueStop
    (.upd (.ctlAll (.declareHang (.upd (.wakeWork k)))))))

theorem Keeps.opPodStop {link m} (k : Keeps i h) : Keeps i (opPodStop link m h) :=
  .ite (.upd k) (.ite k (.actPodStop k))

theorem Keeps.noteCancel {u x} (k : Keeps i h) : Keeps i (h.noteCancel u x) := by
  dsimp only [Hub.noteCancel]
  split
  · exact .upd k
  · exact k

theorem Keeps.actNow {u cls x late} (k : Keeps i h) : Keeps i (h.actNow u cls x late) := by
  dsimp only [Hub.actNow]
  split
  · exact .agentStop (.modAgent k)
  · exact .agentFreeze k
  · exact .ite (.modAgent k) (.modAgent k)
  · exact .releasePower (.modAgent k)
  · exact .agentCommit k

theorem Keeps.takeTimed {u cls x} (k : Keeps i h) : Keeps i (h.takeTimed u cls x) :=
  .ite (.actNow k) (.ite (.actNow (.modAgent k)) (.modAgent k))

theorem Keeps.accepted {u b} (k : Keeps i h) : Keeps i (h.accepted u b) := by
  dsimp only [Hub.accepted]
  split
  · exact .modAgent k
  · split
    · exact .noteCancel (.setAgent (.modAgent k))
    · exact .setAgent (.modAgent k)
  · exact .modAgent (.modAgent k)
  · exact .takeTimed (.modAgent k)

theorem Keeps.collectReceipt {c u} (k : Keeps i h) : Keeps i (h.collectReceipt c u).1 := .setCombine (.setAgent k)

theorem Keeps.opBcastAccept {unit cls seq} (k : Keeps i h) : Keeps i (opBcastAccept unit cls seq h) := by
  dsimp only [Machine.opBcastAccept]
  split
  · exact k
  · refine .ite k (.ite ?_ (.ite (.accepted k) k))
    split
    · exact .collectReceipt k
    · exact k

theorem Keeps.opStopInstant {unit} (k : Keeps i h) : Keeps i (opStopInstant unit h) := by
  dsimp only [Machine.opStopInstant]
  split
  · exact k
  · exact .agentStop k

theorem Keeps.opCutMarkerArrival {unit port m} (k : Keeps i h) : Keeps i (opCutMarkerArrival unit port m h) := by
  dsimp only [Machine.opCutMarkerArrival]
  refine .ite k (.ite (.ite k (.setAgent k)) ?_)
  refine .ite k ?_
  split
  · exact k
  · exact .ite k (.setAgent k)

theorem Keeps.opCheckerClose {unit port peerKind peer inFlight flitAfterMarker} (k : Keeps i h) :
    Keeps i (opCheckerClose unit port peerKind peer inFlight flitAfterMarker h) := by
  dsimp only [Machine.opCheckerClose]
  split
  · exact k
  · exact .ite k (.setAgent k)

theorem Keeps.opCaptureComplete {unit count blocks} (k : Keeps i h) :
    Keeps i (opCaptureComplete unit count blocks h) := by
  dsimp only [Machine.opCaptureComplete]
  split
  · exact .ite k (.setAgent k)
  · exact k

/-! ### Counters -/

theorem Keeps.readWindows {hdr which sc us} (k : Keeps i h) : Keeps i (h.readWindows hdr which sc us) :=
  .ite (.ok k) (.answer k)

theorem Keeps.opCounterRead {hdr which sb} (k : Keeps i h) : Keeps i (opCounterRead hdr which sb h) := by
  dsimp only [Machine.opCounterRead]
  refine .icp k fun _ k => .ite (.badArg k) ?_
  split
  · exact .badArg k
  · exact .ite (.withAgents k fun _ k => .readWindows k) (.ite (.denied k) (.ok k))

theorem Keeps.opCounterAggregate {hdr quantity sb} (k : Keeps i h) :
    Keeps i (opCounterAggregate hdr quantity sb h) := by
  dsimp only [Machine.opCounterAggregate]
  refine .icp k fun _ k => ?_
  split
  · exact .badArg k
  · split
    · exact .badArg k
    · exact .ite (.denied k) (.occupy (.collect (.maskFor k)))

theorem Keeps.completeAggregate {c r} (k : Keeps i h) : Keeps i (h.completeAggregate c r) := by
  dsimp only [Hub.completeAggregate]
  split
  · split
    · exact .conclude k
    · exact k
  · exact k

theorem Keeps.issueFreeze {f mode sc us confirm} (k : Keeps i h) : Keeps i (h.issueFreeze f mode sc us confirm) :=
  .upd (.issue (.maskFor k))

theorem Keeps.opCounterFreeze {hdr f mode sb} (k : Keeps i h) : Keeps i (opCounterFreeze hdr f mode sb h) := by
  dsimp only [Machine.opCounterFreeze]
  refine .icp k fun _ k => .ite (.badArg k) ?_
  split
  · exact .badArg k
  · refine .ite (.denied k) (.ite (.badState k) ?_)
    split
    · exact .badArg k
    · exact .occupy (.issueFreeze k)

theorem Keeps.confirmFreeze (k : Keeps i h) : Keeps i h.confirmFreeze := by
  dsimp only [Hub.confirmFreeze]
  split
  · split
    · exact .ite k (.collect (.upd k))
    · exact k
  · exact k

theorem Keeps.completeFreeze (k : Keeps i h) : Keeps i h.completeFreeze := by
  dsimp only [Hub.completeFreeze]
  split
  · split
    · exact .ite k (.conclude k)
    · exact k
  · exact k

theorem Keeps.opFreezeInstant {unit} (k : Keeps i h) : Keeps i (opFreezeInstant unit h) := by
  dsimp only [Machine.opFreezeInstant]
  split
  · exact k
  · exact .agentFreeze k

theorem Keeps.opCounterPush {unit} (k : Keeps i h) : Keeps i (opCounterPush unit h) := .ite (.push k) k

theorem Keeps.opTaggedPush {unit} (k : Keeps i h) : Keeps i (opTaggedPush unit h) := .ite k (.deliverTagged k)

theorem Keeps.opArrayProvisional {half} (k : Keeps i h) : Keeps i (opArrayProvisional half h) := by
  dsimp only [Machine.opArrayProvisional]
  split
  · exact k
  · exact .upd k

theorem Keeps.opArrayFinalize {half} (k : Keeps i h) : Keeps i (opArrayFinalize half h) := by
  dsimp only [Machine.opArrayFinalize]
  split
  · exact k
  · exact .upd k

theorem Keeps.observerSnapshots {hdr sc} (k : Keeps i h) : Keeps i (h.observerSnapshots hdr sc) :=
  .ite (.ok k) (.answer k)

theorem Keeps.opCounterSnapshotRead {hdr sb} (k : Keeps i h) : Keeps i (opCounterSnapshotRead hdr sb h) := by
  dsimp only [Machine.opCounterSnapshotRead]
  refine .icp k fun _ k => ?_
  split
  · exact .badArg k
  · exact .ite (.withAgents k fun _ k => .observerSnapshots k) (.ok k)

theorem Keeps.runCounterClear {hdr sc us} (k : Keeps i h) : Keeps i (h.runCounterClear hdr sc us) :=
  .ok (.foldl k fun _ _ k => .modAgent k)

theorem Keeps.opCounterClear {hdr sb} (k : Keeps i h) : Keeps i (opCounterClear hdr sb h) := by
  dsimp only [Machine.opCounterClear]
  refine .icp k fun _ k => ?_
  split
  · exact .badArg k
  · exact .withAgents k fun _ k => .runCounterClear k

/-! ### Contributions to a combine -/

theorem Keeps.sampleFor {c u inSc} (k : Keeps i h) : Keeps i (h.sampleFor c u inSc) :=
  .inject (.setCombine (.setAgent k))

theorem Keeps.opCollectReceived {unit tag} (k : Keeps i h) : Keeps i (opCollectReceived unit tag h) := by
  dsimp only [Machine.opCollectReceived]
  split
  · exact k
  · refine .ite k ?_
    split
    · exact .ite₁ k (.ite₁ (.collectReceipt k) k)
    · exact .ite (.sampleFor (.ite₁ k (.ite₁ (.collectReceipt k) k))) (.ite₁ k (.ite₁ (.collectReceipt k) k))

/-! ### Flits, links and nodes -/

theorem Keeps.setWay {w e} (k : Keeps i h) : Keeps i (h.setWay w e) := .setLink k

theorem Keeps.popSource {at_ c} (k : Keeps i h) : Keeps i (h.popSource at_ c) := .upd k

theorem Keeps.popInput {at_ w lane j c} (k : Keeps i h) : Keeps i (h.popInput at_ w lane j c) := by
  dsimp only [Hub.popInput]
  split
  · exact .popSource k
  · exact .ite (.setWay k) (.ite (.setWay k) (.setWay k))

theorem Keeps.emptied {n cls} (k : Keeps i h) : Keeps i (h.emptied n cls) := .emptiedFuel k

theorem Keeps.popLatch {w l n'} (k : Keeps i h) : Keeps i (h.popLatch w l n') :=
  .ite (.ite (.setWay (.upd k)) (.upd k)) (.emptied (.ite (.setWay (.upd k)) (.upd k)))

theorem Keeps.sends {w x} (k : Keeps i h) : Keeps i (h.sends w x) := by
  dsimp only [Hub.sends]
  split
  · exact .setWay k
  · exact .popLatch (.setWay k)
  · exact .popInput (.setWay k)

theorem Keeps.crcFailure {n} (k : Keeps i h) : Keeps i (h.crcFailure n) := .raise (.setLink (.upd k))

theorem Keeps.protocolError {s data} (k : Keeps i h) : Keeps i (h.protocolError s data) := .raise (.upd k)

theorem Keeps.takeBcast {w c} (k : Keeps i h) : Keeps i (h.takeBcast w c) := by
  dsimp only [Hub.takeBcast]
  split
  · exact k
  · exact .ite (.latch (.setWay k)) (.setWay k)

theorem Keeps.takeLane {w lane c} (k : Keeps i h) : Keeps i (h.takeLane w lane c) := .ite (.setWay k) (.setWay k)

theorem Keeps.takeFlit {w c} (k : Keeps i h) : Keeps i (h.takeFlit w c) :=
  .ite (.ite (.takeBcast k) (.takeLane k)) (.ite (.protocolError (.ite k (.setWay k))) (.ite k (.setWay k)))

theorem Keeps.arrives {w seq sent got} (k : Keeps i h) : Keeps i (h.arrives w seq sent got) :=
  .ite (.crcFailure (.setWay k)) (.ite k (.takeFlit (.setWay k)))

theorem Keeps.opFlitReceived {link dir flit} (k : Keeps i h) : Keeps i (opFlitReceived link dir flit h) := by
  dsimp only [Machine.opFlitReceived]
  refine .ite k ?_
  split
  · exact k
  · exact .arrives (.sends k)

theorem Keeps.opLinkControlFlit {link dir flit} (k : Keeps i h) : Keeps i (opLinkControlFlit link dir flit h) :=
  .ite k (.ite (.crcFailure k) (.setLink k))

theorem Keeps.setNodeQueue {n q} (k : Keeps i h) : Keeps i (h.setNodeQueue n q) := .upd k

theorem Keeps.queueLink {n up} (k : Keeps i h) : Keeps i (h.queueLink n up) :=
  .ite (.setNodeQueue k) (.setNodeQueue (.setLink k))

theorem Keeps.opLinkDown {link cause} (k : Keeps i h) : Keeps i (opLinkDown link cause h) :=
  .ite k (.raise (.queueLink (.setLink k)))

theorem Keeps.opLinkRetrain {link succeeded} (k : Keeps i h) : Keeps i (opLinkRetrain link succeeded h) :=
  .ite k (.ite (.queueLink (.setLink k)) (.setLink k))

theorem Keeps.reroute (k : Keeps i h) : Keeps i h.reroute := .upd k

theorem Keeps.cutOff (k : Keeps i h) : Keeps i h.cutOff := .upd k

theorem Keeps.noteRoot {n} (k : Keeps i h) : Keeps i (h.noteRoot n) := by
  dsimp only [Hub.noteRoot]
  split
  · exact .ite (.raise k) k
  · exact k

theorem Keeps.reissueRecent {report} (k : Keeps i h) : Keeps i (h.reissueRecent report) :=
  .foldl k fun _ _ k => .atStage k fun _ k => .start k

theorem Keeps.linkReported {link up} (k : Keeps i h) : Keeps i (h.linkReported link up) :=
  .ite k (.reissueRecent (.noteRoot (.cutOff (.reroute k))))

theorem Keeps.sendNodeNotice {n x} (k : Keeps i h) : Keeps i (h.sendNodeNotice n x) := .inject (.setNodeQueue k)

theorem Keeps.sendOverflows {n f} (k : Keeps i h) : Keeps i (sendOverflows n f h) := by
  induction f generalizing h with
  | zero => exact k
  | succ f ih =>
    dsimp only [Machine.sendOverflows]
    split
    · exact .ite (ih (.sendNodeNotice k)) k
    · exact k

theorem Keeps.opLinkNotice {link} (k : Keeps i h) : Keeps i (opLinkNotice link h) := by
  dsimp only [Machine.opLinkNotice]
  refine .ite k ?_
  split
  · exact .sendOverflows k
  · split
    · exact .ite (.linkReported (.sendNodeNotice (.sendOverflows k))) (.sendOverflows k)
    · exact .sendOverflows k

theorem Keeps.opRouteRestore {link} (k : Keeps i h) : Keeps i (opRouteRestore link h) := .ite k (.upd k)

theorem Keeps.lateCombine {s} (k : Keeps i h) : Keeps i (h.lateCombine s) := .upd k

theorem Keeps.opCombineReceived {node child tag} (k : Keeps i h) :
    Keeps i (opCombineReceived node child tag h) := by
  dsimp only [Machine.opCombineReceived]
  split
  · exact k
  · split
    · exact k
    · refine .ite k ?_
      split
      · exact .lateCombine (.setCombine k)
      · exact .ite (.sendUp k) (.setCombine k)

theorem Keeps.opCombineTimeout {node tag} (k : Keeps i h) : Keeps i (opCombineTimeout node tag h) := by
  dsimp only [Machine.opCombineTimeout]
  split
  · exact k
  · split
    · exact k
    · exact .ite k (.sendUp k)

theorem Keeps.wrongEnum {unit answer tag} (k : Keeps i h) : Keeps i (h.wrongEnum unit answer tag) :=
  .protocolError k

theorem Keeps.opEnumProbe {unit answer} (k : Keeps i h) : Keeps i (opEnumProbe unit answer h) := by
  dsimp only [Machine.opEnumProbe]
  refine .ite k ?_
  split
  · exact .injectDown (.upd k)
  · exact .ite (.learnState (.setAgent (.injectDown (.upd (.inject (.injectDown (.upd k)))))))
      (.wrongEnum (.inject (.injectDown (.upd k))))

/-! ### Probes past a step of PT -/

theorem Keeps.probeSteppedPast {old pt} (k : Keeps i h) : Keeps i (h.probeSteppedPast old pt) := .upd k

/-! ### Collectors and trace sources -/

theorem Keeps.fillLine {j} (k : Keeps i h) : Keeps i (h.fillLine j) := .ite (.setCollector k) k

theorem Keeps.offer {j r} (k : Keeps i h) : Keeps i (h.offer j r) :=
  .ite k (.ite (.setCollector k) (.ite (.drawFree (.setCollector k)) (.fillLine (.setCollector k))))

theorem Keeps.ownRecord {j r} (k : Keeps i h) : Keeps i (h.ownRecord j r) := .ite k (.fillLine (.setCollector k))

theorem Keeps.writeLine {j m} (k : Keeps i h) : Keeps i (h.writeLine j m).1 := .setCollector k

theorem Keeps.opLineWrite {collector m} (k : Keeps i h) : Keeps i (opLineWrite collector m h).1 :=
  .ite₁ k (.ite₁ (.fillLine (.writeLine (.fillLine k))) (.fillLine k))

theorem Keeps.flushFuel {n f} {x : Hub × SMap Byte} (k : Keeps i x.1) : Keeps i (flushFuel n f x).1 := by
  induction f generalizing x with
  | zero => exact k
  | succ f ih =>
    dsimp only [Machine.flushFuel]
    exact .ite₁ k (.ite₁ (.fillLine k) (ih (.writeLine (.fillLine k))))

theorem Keeps.flushLine {n} {x : Hub × SMap Byte} (k : Keeps i x.1) : Keeps i (Hub.flushLine x n).1 :=
  .flushFuel k

theorem Keeps.opGapClose {collector} (k : Keeps i h) : Keeps i (opGapClose collector h) :=
  .ite k (.fillLine (.setCollector k))

theorem Keeps.opPeriodicFix {collector} (k : Keeps i h) : Keeps i (opPeriodicFix collector h) :=
  .ite k (.ownRecord k)

theorem Keeps.placeMarks {j trigger} (k : Keeps i h) : Keeps i (h.placeMarks j trigger) :=
  .foldl (.setCollector k) fun _ _ k => .ownRecord k

theorem Keeps.opTriggerInstant {collector} (k : Keeps i h) : Keeps i (opTriggerInstant collector h) :=
  .ite k (.placeMarks k)

theorem Keeps.opMarkInstant {collector} (k : Keeps i h) : Keeps i (opMarkInstant collector h) :=
  .ite k (.placeMarks k)

theorem Keeps.opCollectorWake {collector} (k : Keeps i h) : Keeps i (opCollectorWake collector h) :=
  .ite (.wakeWork k) k

theorem Keeps.opSourceClosed {source} (k : Keeps i h) : Keeps i (opSourceClosed source h) := by
  dsimp only [Machine.opSourceClosed]
  split
  · exact k
  · exact .ite k (.ownRecord (.setCollector k))

theorem Keeps.emitRec {u e typ tag payload} (k : Keeps i h) : Keeps i (h.emitRec u e typ tag payload) :=
  .ite k (.offer k)

theorem Keeps.sourceBegin {u e tag cls} (k : Keeps i h) : Keeps i (h.sourceBegin u e tag cls) := by
  dsimp only [Hub.sourceBegin]
  refine .ite k ?_
  split
  · exact .ite (.emitRec (.modAgent k)) (.modAgent k)
  · exact .modAgent k

theorem Keeps.finishCmd {u e r err} (k : Keeps i h) : Keeps i (h.finishCmd u e r err) :=
  .ite (.emitRec (.setAgent k)) (.setAgent k)

theorem Keeps.sourceEnd {u e tag err} (k : Keeps i h) : Keeps i (h.sourceEnd u e tag err) := by
  dsimp only [Hub.sourceEnd]
  split
  · exact k
  · exact .ite k (.modAgent (.finishCmd k))

theorem Keeps.opTraceRecord {source ev} (k : Keeps i h) : Keeps i (opTraceRecord source ev h) := by
  dsimp only [Machine.opTraceRecord]
  refine .ite k ?_
  split
  · exact .sourceBegin k
  · exact .sourceEnd k
  · exact .ite (.emitRec k) k
  · exact .ite (.emitRec k) k

/-! ### Steps, RESUME and inspection -/

theorem Keeps.opStepCycles {hdr ts d flags} (k : Keeps i h) : Keeps i (opStepCycles hdr ts d flags h) :=
  .icp k fun _ k => .ite (.badArg k) (.ite (.badArg k) (.ite (.badState k) (.occupy (.collect k))))

theorem Keeps.stepJudged {c r} (k : Keeps i h) : Keeps i (h.stepJudged c r) := by
  dsimp only [Hub.stepJudged]
  split
  · split
    · refine .ite (.conclude k) (.ite (.conclude k) ?_)
      split
      · exact .conclude k
      · exact .setProg (.upd (.issue k))
    · exact k
  · exact k

theorem Keeps.confirmCycles (k : Keeps i h) : Keeps i h.confirmCycles := by
  dsimp only [Hub.confirmCycles]
  split
  · split
    · exact .ite k (.collect (.collect (.upd k)))
    · exact k
  · exact k

theorem Keeps.completeCycles (k : Keeps i h) : Keeps i h.completeCycles := by
  dsimp only [Hub.completeCycles]
  split
  · split
    · exact .ite k (.conclude k)
    · exact k
  · exact k

theorem Keeps.startCommandStep {hdr ts u engine limit} (k : Keeps i h) :
    Keeps i (h.startCommandStep hdr ts u engine limit) := by
  dsimp only [Hub.startCommandStep]
  refine .ite (.badState k) ?_
  split
  · exact .badArg k
  · exact .occupy (.issue (.writeMasks k))

theorem Keeps.opStepCommand {hdr ts unit engine limit} (k : Keeps i h) :
    Keeps i (opStepCommand hdr ts unit engine limit h) :=
  .icp k fun _ k => .ite (.badArg k) (.ite (.badArg k) (.ite (.badArg k)
    (.ite (.badState k) (.withAgent k fun _ k => .startCommandStep k))))

theorem Keeps.completeCommandStep (k : Keeps i h) : Keeps i h.completeCommandStep := by
  dsimp only [Hub.completeCommandStep]
  split
  · split
    · exact .ite (.conclude k) k
    · exact k
  · exact k

theorem Keeps.startResume {hdr tr sc us} (k : Keeps i h) : Keeps i (h.startResume hdr tr sc us) := by
  dsimp only [Hub.startResume]
  refine .ite (.badState k) ?_
  split
  · exact .badArg k
  · exact .occupy (.upd (.issue (.maskFor k)))

theorem Keeps.opResume {hdr tr scope} (k : Keeps i h) : Keeps i (opResume hdr tr scope h) := by
  dsimp only [Machine.opResume]
  refine .icp k fun _ k => ?_
  split
  · exact .startResume k
  · split
    · exact .startResume k
    · exact .badState k
  · exact .badArg k

theorem Keeps.confirmResume (k : Keeps i h) : Keeps i h.confirmResume := by
  dsimp only [Hub.confirmResume]
  split
  · split
    · exact .ite k (.collect (.upd k))
    · exact k
  · exact k

theorem Keeps.agentResume {u} (k : Keeps i h) : Keeps i (h.agentResume u) := .releasePower (.modAgent k)

theorem Keeps.opStepInstant {unit} (k : Keeps i h) : Keeps i (opStepInstant unit h) := by
  dsimp only [Machine.opStepInstant]
  split
  · exact k
  · exact .modAgent k

theorem Keeps.opResumeInstant {unit} (k : Keeps i h) : Keeps i (opResumeInstant unit h) := by
  dsimp only [Machine.opResumeInstant]
  split
  · exact k
  · exact .agentResume k

theorem Keeps.opCommitInstant {unit} (k : Keeps i h) : Keeps i (opCommitInstant unit h) := by
  dsimp only [Machine.opCommitInstant]
  split
  · exact k
  · exact .agentCommit k

theorem Keeps.opCycleStepEnd {unit} (k : Keeps i h) : Keeps i (opCycleStepEnd unit h) := by
  dsimp only [Machine.opCycleStepEnd]
  split
  · exact k
  · exact .ite k (.sendMarkers (.setAgent k))

theorem Keeps.stepLast {u e reason} (k : Keeps i h) : Keeps i (h.stepLast u e reason) := by
  dsimp only [Hub.stepLast]
  split
  · exact .finishCmd k
  · exact .modAgent k
  · exact k

theorem Keeps.opCommandStepEnd {unit reason fenceStall} (k : Keeps i h) :
    Keeps i (opCommandStepEnd unit reason fenceStall h) := by
  dsimp only [Machine.opCommandStepEnd]
  split
  · exact k
  · exact .ite k (.modAgent (.stepLast k))

theorem Keeps.onPage {α : Type} {u off} {f : Hub → α × Hub} (k : Keeps i h)
    (p : ∀ h, Keeps i h → Keeps i (f h).2) : Keeps i (h.onPage u off f).2 :=
  .ite₂ (p _ k) (.modAgent (p _ (.modAgent k)))

/-- Inspections run one after another keep the identity where each of them does. -/
theorem Keeps.inspectAll {f : Hub → Nat → Nat → Inspect} {ps} {r : Inspect} (k : Keeps i r.hub)
    (p : ∀ h o n, Keeps i h → Keeps i (f h o n).hub) : Keeps i (inspectAll f ps r).hub := by
  induction ps generalizing r with
  | nil => exact k
  | cons x ps ih =>
    dsimp only [Machine.inspectAll]
    split
    · exact k
    · exact ih (p _ _ _ k)

theorem Keeps.inspectBulk {u off n} (k : Keeps i h) : Keeps i (Hub.inspectBulk u h off n).hub :=
  .onPage k fun _ k => .bulkRead k

theorem Keeps.inspectWord {u off n} (k : Keeps i h) : Keeps i (Hub.inspectWord u h off n).hub :=
  .setAgent k

theorem Keeps.checkedRead {code hdr unit space off n} {run : Hub → Hub} (k : Keeps i h)
    (kept : ∀ h, Keeps i h → Keeps i (run h)) :
    Keeps i (h.checkedRead code hdr unit space off n run) := by
  dsimp only [Hub.checkedRead]
  split
  · exact .denied k
  · exact .ite (kept _ k) (.denied k)

theorem Keeps.runInspectRead {hdr unit space off n} (k : Keeps i h) :
    Keeps i (h.runInspectRead hdr unit space off n) := by
  dsimp only [Hub.runInspectRead]
  have r : Keeps i (if space = 0 then Machine.inspectAll (Hub.inspectWord unit) (wordsOf off n) ⟨.done, [], h⟩
      else Machine.inspectAll (Hub.inspectBulk unit) (pieces off n) ⟨.done, [], h⟩).hub := by
    split
    · exact .inspectAll k fun _ _ _ k => .inspectWord k
    · exact .inspectAll k fun _ _ _ k => .inspectBulk k
  exact .ite (.badState r) (.ok r)

theorem Keeps.opInspectRead {hdr unit space offset length} (k : Keeps i h) :
    Keeps i (opInspectRead hdr unit space offset length h) := by
  dsimp only [Machine.opInspectRead]
  refine .icp k fun _ k => ?_
  split
  · exact .badArg k
  · exact .ite (.badArg k) (.checkedRead k fun _ k => .withAgent k fun _ k => .runInspectRead k)

theorem Keeps.noteWritten {u} (k : Keeps i h) : Keeps i (h.noteWritten u) := .modAgent (.upd k)

theorem Keeps.inspectPoke {data base u space off n} (k : Keeps i h) :
    Keeps i (Hub.inspectPoke data base u space h off n).hub := by
  have r : Keeps i (if space = 0 then h.writeReg u off (BitVec.ofNat 32 (leNat ((data.drop (off - base)).take n)))
      else h.onPage u off fun h => h.bulkWrite u (bulkAddr off) ((data.drop (off - base)).take n)).2 :=
    .ite₂ (.writeReg k) (.onPage k fun _ k => .bulkWrite k)
  exact .ite (.noteWritten r) r

theorem Keeps.runInspectWrite {hdr unit space off data} (k : Keeps i h) :
    Keeps i (h.runInspectWrite hdr unit space off data) :=
  .ite (.badState (.inspectAll k fun _ _ _ k => .inspectPoke k)) (.ok (.inspectAll k fun _ _ _ k => .inspectPoke k))

theorem Keeps.opInspectWrite {hdr unit space offset data} (k : Keeps i h) :
    Keeps i (opInspectWrite hdr unit space offset data h) := by
  dsimp only [Machine.opInspectWrite]
  refine .icp k fun _ k => ?_
  split
  · exact .badArg k
  · exact .ite (.badArg k) (.ite (.badArg k) (.withAgent k fun _ k => .runInspectWrite k))

/-! ### Fault configuration, records and taint notices -/

theorem Keeps.opFaultConfig {hdr entries} (k : Keeps i h) : Keeps i (opFaultConfig hdr entries h) := by
  dsimp only [Machine.opFaultConfig]
  refine .icp k fun _ k => .ite (.badArg k) ?_
  split
  · exact .badArg k
  · exact .ok (.upd k)

theorem Keeps.opFcCfgWrite {source value} (k : Keeps i h) : Keeps i (opFcCfgWrite source value h) := .upd k

theorem Keeps.opFaultRead {hdr fromSeq max} (k : Keeps i h) : Keeps i (opFaultRead hdr fromSeq max h) :=
  .icp k fun _ k => .ok k

theorem Keeps.opFaultAck {hdr seqs} (k : Keeps i h) : Keeps i (opFaultAck hdr seqs h) :=
  .icp k fun _ k => .ok (.noteIbi (.upd k))

theorem Keeps.opFaultHistoryRead {hdr} (k : Keeps i h) : Keeps i (opFaultHistoryRead hdr h) :=
  .icp k fun _ k => .ok k

theorem Keeps.opFaultInject {hdr source unit data} (k : Keeps i h) :
    Keeps i (opFaultInject hdr source unit data h) := by
  dsimp only [Machine.opFaultInject]
  refine .icp k fun _ k => .ite (.badArg k) (.ite (.badArg k) ?_)
  split
  · exact .ite (.conclude (.takeEvent (.occupy k))) (.takeEvent (.occupy k))
  · exact .takeEvent (.occupy k)

theorem Keeps.opFaultEvent {source unit data originPt} (k : Keeps i h) :
    Keeps i (opFaultEvent source unit data originPt h) :=
  .takeEvent (.ite (.upd (.ite (.upd k) k)) (.ite (.upd k) k))

theorem Keeps.opNotifyTimeout {recordSeq} (k : Keeps i h) : Keeps i (opNotifyTimeout recordSeq h) := by
  dsimp only [Machine.opNotifyTimeout]
  split
  · exact k
  · exact .ite (.upd k) k

theorem Keeps.opReactionWindowClose (k : Keeps i h) : Keeps i (opReactionWindowClose h) := .upd k

theorem Keeps.opFaultCleared {source} (k : Keeps i h) : Keeps i (opFaultCleared source h) :=
  .ite (.upd k) (.ite (.upd k) (.ite (.ite k (.upd k)) (.upd k)))

theorem Keeps.opSupplyExcursion {domain lowestCode durationNs ongoing} (k : Keeps i h) :
    Keeps i (opSupplyExcursion domain lowestCode durationNs ongoing h) :=
  .ite k (.ite (.upd (.ite (.upd k) k)) (.raiseLine (.upd (.ite (.upd k) k))))

theorem Keeps.opVddAoResetLevel {lowestCode} (k : Keeps i h) : Keeps i (opVddAoResetLevel lowestCode h) :=
  .ite k (.raiseLine (.upd k))

theorem Keeps.opPortConfinement {half address length issued} (k : Keeps i h) :
    Keeps i (opPortConfinement half address length issued h) := .ite k (.raise (.upd k))

theorem Keeps.sendTaint {t} (k : Keeps i h) : Keeps i (h.sendTaint t) := .foldl (.upd k) fun _ _ k => .emit k

theorem Keeps.releaseHeld (k : Keeps i h) : Keeps i h.releaseHeld :=
  .ite k (.foldl (.upd k) fun _ _ k => .sendTaint k)

theorem Keeps.opTaintSend (k : Keeps i h) : Keeps i (opTaintSend h) :=
  .ite (.upd k) (.foldl (.upd k) fun _ _ k => .sendTaint k)

theorem Keeps.opTaintDestSet {hdr chips} (k : Keeps i h) : Keeps i (opTaintDestSet hdr chips h) := by
  dsimp only [Machine.opTaintDestSet]
  refine .icp k fun _ k => .ite (.badArg k) ?_
  split
  · exact .badArg k
  · exact .ok (.releaseHeld (.upd k))

theorem Keeps.opTaintEpochSet {hdr epoch} (k : Keeps i h) : Keeps i (opTaintEpochSet hdr epoch h) :=
  .icp k fun _ k => .ok (.upd k)

theorem Keeps.opUnitRetire {hdr unit} (k : Keeps i h) : Keeps i (opUnitRetire hdr unit h) :=
  .icp k fun _ k => .ite (.badArg k) (.ite (.ok (.retire (.upd k)))
    (.ite (.ok (.retire (.upd k))) (.occupy (.retire (.upd k)))))

/-! ### Status and the Chip ID -/

theorem Keeps.opHubStatus {hdr} (k : Keeps i h) : Keeps i (opHubStatus hdr h) := .icp k fun _ k => .ok k

theorem Keeps.opUnitStatus {hdr sb} (k : Keeps i h) : Keeps i (opUnitStatus hdr sb h) := by
  dsimp only [Machine.opUnitStatus]
  refine .icp k fun _ k => ?_
  split
  · exact .badArg k
  · exact .ok k

/-- A Chip ID is given only to a chip that has none. -/
theorem Keeps.opChipIdSet {hdr chip} (k : Keeps i h) : Keeps i (opChipIdSet hdr chip h) := by
  refine .icp k fun h k => ?_
  split
  next => exact .ite (.ok k) (.badState k)
  next free => exact .ok (.releaseHeld (.withIdent (Ident.KeptIn.assign k free)))

theorem Keeps.opRetiredMapGet {hdr} (k : Keeps i h) : Keeps i (opRetiredMapGet hdr h) := .icp k fun _ k => .ok k

theorem Keeps.opSafeRecordGet {hdr} (k : Keeps i h) : Keeps i (opSafeRecordGet hdr h) := .icp k fun _ k => .ok k

/-! ### Trace commands and the query -/

theorem Keeps.opTraceRegionSet {hdr base size mode flags n'} (k : Keeps i h) :
    Keeps i (opTraceRegionSet hdr base size mode flags n' h) :=
  .icp k fun _ k => .ite (.badState k) (.ite (.badArg k) (.ite (.badArg k)
    (.ite (.badArg k) (.ite (.badArg k) (.ite (.badArg k) (.ite (.badArg k) (.ok (.restartByCommand (.upd k)))))))))

theorem Keeps.opTraceRestart {hdr} (k : Keeps i h) : Keeps i (opTraceRestart hdr h) :=
  .icp k fun _ k => .ok (.restartByCommand k)

theorem Keeps.runTraceConfig {hdr tc entries} (k : Keeps i h) : Keeps i (h.runTraceConfig hdr tc entries) := by
  dsimp only [Hub.runTraceConfig]
  split
  · exact .badArg k
  · exact .ok (.commit (.powerDomains (.stageAll k)))

theorem Keeps.opTraceConfig {hdr tc entries} (k : Keeps i h) : Keeps i (opTraceConfig hdr tc entries h) :=
  .icp k fun _ k => .ite (.badArg k) (.ite (.badState k) (.ite (.badArg k)
    (.withAgents k fun _ k => .runTraceConfig k)))

theorem Keeps.opTraceTrigger {hdr tt value} (k : Keeps i h) : Keeps i (opTraceTrigger hdr tt value h) := by
  dsimp only [Machine.opTraceTrigger]
  refine .icp k fun _ k => .ite (.badState k) ?_
  split
  · exact .badArg k
  · exact .ok (.trigger k)

theorem Keeps.opTraceMark {hdr instant value} (k : Keeps i h) : Keeps i (opTraceMark hdr instant value h) := by
  dsimp only [Machine.opTraceMark]
  refine .icp k fun _ k => .ite (.badState k) ?_
  split
  · exact .badArg k
  · exact .ok (.mark k)

theorem Keeps.opTraceStatus {hdr} (k : Keeps i h) : Keeps i (opTraceStatus hdr h) := .icp k fun _ k => .ok k

theorem Keeps.queryStep {m} (k : Keeps i h) : Keeps i (h.queryStep m) := by
  dsimp only [Hub.queryStep]
  split
  · split
    · exact .conclude k
    · split
      · exact .setProg k
      · exact .ite (.setProg k) (.ite (.conclude k) (.setProg k))
  · exact k

theorem Keeps.icpMem {m code hdr} {run : Hub → Hub × SMap Byte} (k : Keeps i h)
    (kept : ∀ h, Keeps i h → Keeps i (run h).1) :
    Keeps i (h.icpMem m code hdr run).1 := .ite₁ (kept _ (.working (.wake (.touch k)))) (.icp k fun _ k => k)

theorem Keeps.opTraceQuery {hdr q m} (k : Keeps i h) : Keeps i (opTraceQuery hdr q m h).1 := by
  have f : Keeps i (collectorNumbers.foldl Hub.flushLine (h, m)).1 := .foldl₁ k fun _ _ k => .flushLine k
  dsimp only [Machine.opTraceQuery]
  generalize collectorNumbers.foldl Hub.flushLine (h, m) = x at f ⊢
  split
  · exact .icp k fun _ k => .badArg k
  · exact .ite₁ (.icp f fun _ k => .occupy (.powerDomains k)) (.icp k fun _ k => k)

/-! ### Writebacks -/

theorem Keeps.chipWrite {m a bs} (k : Keeps i h) : Keeps i (h.chipWrite m a bs).1 := by
  dsimp only [Hub.chipWrite]
  split
  · exact .ite₁ (.modAgent k) k
  · exact .ite₁ k k

theorem Keeps.launchHeld {m} (k : Keeps i h) : Keeps i (h.launchHeld m).1 :=
  .foldl₁ k fun _ _ k => .foldl₁ (.modAgent k) fun _ _ k => .chipWrite k

theorem Keeps.opWritebackBeat {unit engine beat m} (k : Keeps i h) :
    Keeps i (opWritebackBeat unit engine beat m h).1 := .ite₁ k (.ite₁ (.setAgent k) (.chipWrite (.setAgent k)))

/-! ### Soundings -/

theorem Keeps.armSounding {hdr p s sc us tc} (k : Keeps i h) : Keeps i (h.armSounding hdr p s sc us tc) :=
  .ok (.setSounding (.commit (.maskFor (.powerDomains (.stageAll k)))))

theorem Keeps.checkSounding {hdr p} {run : Session → Scope → List UnitId → Nat → Hub} (k : Keeps i h)
    (kept : ∀ s sc us tc, Keeps i (run s sc us tc)) : Keeps i (h.checkSounding hdr p run) := by
  dsimp only [Hub.checkSounding]
  split
  · exact .denied k
  · refine .ite (.badState k) (.ite (.denied k) ?_)
    split
    · exact .badArg k
    · split
      · exact .badArg k
      · exact kept _ _ _ _

theorem Keeps.runSoundingSet {hdr p} (k : Keeps i h) : Keeps i (h.runSoundingSet hdr p) :=
  .checkSounding k fun _ _ _ _ => .armSounding k

theorem Keeps.opSoundingSet {hdr p} (k : Keeps i h) : Keeps i (opSoundingSet hdr p h) :=
  .icp k fun _ k => .checkSounding k fun _ _ _ _ => .withAgents k fun _ k => .runSoundingSet k

theorem Keeps.opSoundingClear {hdr s td} (k : Keeps i h) : Keeps i (opSoundingClear hdr s td h) := by
  dsimp only [Machine.opSoundingClear]
  refine .icp k fun _ k => .ite (.badState k) ?_
  split
  · exact .badArg k
  · exact .ok (.clearSounding k)

theorem Keeps.opSoundingKey {hdr key} (k : Keeps i h) : Keeps i (opSoundingKey hdr key h) :=
  .icp k fun _ k => .ok (.upd k)

theorem Keeps.opSoundingRead {hdr s max postSeq} (k : Keeps i h) :
    Keeps i (opSoundingRead hdr s max postSeq h) := by
  dsimp only [Machine.opSoundingRead]
  refine .icp k fun _ k => ?_
  split
  · exact .denied k
  · exact .ite (.denied k) (.ok k)

theorem Keeps.opSoundingStatus {hdr} (k : Keeps i h) : Keeps i (opSoundingStatus hdr h) := .icp k fun _ k => .ok k

theorem Keeps.issueWords {s f} (k : Keeps i h) : Keeps i (h.issueWords s f) := by
  induction f generalizing h with
  | zero => exact k
  | succ f ih =>
    dsimp only [Hub.issueWords]
    split
    · exact k
    · split
      · exact k
      · exact .ite k (ih (.collect (.setSounding k)))

theorem Keeps.opPostingInstant {sounding} (k : Keeps i h) : Keeps i (opPostingInstant sounding h) := by
  dsimp only [Machine.opPostingInstant]
  split
  · exact k
  · exact .ite k (.issueWords (.setSounding (.upd k)))

theorem Keeps.opPostingEdge {unit sounding} (k : Keeps i h) : Keeps i (opPostingEdge unit sounding h) := by
  dsimp only [Machine.opPostingEdge]
  split
  · exact k
  · exact .ite k (.setAgent k)

theorem Keeps.freeSlots {s} (k : Keeps i h) : Keeps i (h.freeSlots s) := .allCollectors (.upd k)

theorem Keeps.freeBuffers {s} (k : Keeps i h) : Keeps i (h.freeBuffers s) := .upd k

theorem Keeps.writePosting {s x p} (k : Keeps i h) : Keeps i (h.writePosting s x p) :=
  .ite (.freeSlots (.setSounding (.freeBuffers k))) (.setSounding (.freeBuffers k))

/-! ### The probe engine -/

theorem Keeps.modProbe {n f} (k : Keeps i h) : Keeps i (h.modProbe n f) := .upd k

theorem Keeps.loaded {n rd v short} (k : Keeps i h) : Keeps i (h.loaded n rd v short) := .modProbe k

theorem Keeps.loadSounding {n s n'} (k : Keeps i h) : Keeps i (h.loadSounding n s n').2 := .modProbe k

theorem Keeps.loadAggregate {n rd q} (k : Keeps i h) : Keeps i (h.loadAggregate n rd q).2 := by
  dsimp only [Hub.loadAggregate]
  split
  · exact .loaded k
  · exact .ite₂ (.loaded k) (.collect (.modProbe (.powerDomains k)))

theorem Keeps.queueAct {n w v} (k : Keeps i h) : Keeps i (h.queueAct n w v) := .ite (.modProbe k) (.upd k)

theorem Keeps.probeWord {n w} (k : Keeps i h) : Keeps i (h.probeWord n w).2 := by
  dsimp only [Hub.probeWord]
  refine .ite₂ (.modProbe k) (.ite₂ (.modProbe k) ?_)
  refine .ite₂ (.modProbe k) (.ite₂ (.modProbe k) ?_)
  refine .ite₂ (.modProbe k) (.ite₂ k ?_)
  refine .ite₂ (.ite₂ k (.modProbe k)) (.ite₂ (.modProbe k) ?_)
  refine .ite₂ ?_ (.ite₂ (.loaded (.loadSounding k)) (.ite₂ (.modProbe k) (.ite₂ (.modProbe k) (.queueAct k))))
  exact .ite₂ (.loadAggregate k) (by split <;> exact .loaded k)

theorem Keeps.probeOverrun {n} (k : Keeps i h) : Keeps i (h.probeOverrun n) := .raise (.modProbe k)

theorem Keeps.probeFrom {n f pc} (k : Keeps i h) : Keeps i (h.probeFrom n f pc) := by
  induction f generalizing h pc with
  | zero => exact .probeOverrun k
  | succ f ih =>
    dsimp only [Hub.probeFrom]
    refine .ite (.probeOverrun k) ?_
    split
    next e => exact .ofSnd e (.probeWord (.modProbe k))
    next e => exact ih (.ofSnd e (.probeWord (.modProbe k)))

theorem Keeps.opProbeEvaluation {slot} (k : Keeps i h) : Keeps i (opProbeEvaluation slot h) :=
  .ite k (.ite (.modProbe k) (.ite k (.probeFrom (.modProbe k))))

theorem Keeps.opWaitptResume {slot} (k : Keeps i h) : Keeps i (opWaitptResume slot h) := by
  dsimp only [Machine.opWaitptResume]
  split
  · exact .ite k (.probeFrom (.modProbe k))
  · exact k

theorem Keeps.probeLoaded {n r} (k : Keeps i h) : Keeps i (h.probeLoaded n r) := by
  dsimp only [Hub.probeLoaded]
  split
  · exact .ite (.modProbe (.loaded (.modProbe k))) (.probeFrom (.loaded (.modProbe k)))
  · exact k

theorem Keeps.opProbeTimer {slot} (k : Keeps i h) : Keeps i (opProbeTimer slot h) := .ite k (.powerDomains k)

theorem Keeps.probeSnapshot {instant} (k : Keeps i h) : Keeps i (h.probeSnapshot instant) := .upd k

theorem Keeps.probeFreeze {mode} (k : Keeps i h) : Keeps i (h.probeFreeze mode) := .issueFreeze (.wakeWork k)

theorem Keeps.performAct {a} (k : Keeps i h) : Keeps i (h.performAct a) := by
  dsimp only [Hub.performAct]
  split
  · exact .modProbe (.probeFreeze k)
  · exact .ite (.modProbe (.mark k)) (.modProbe (.powerDomains k))
  · exact .ite (.modProbe (.triggerOrMark k)) (.modProbe (.powerDomains k))
  · exact .modProbe (.probeSnapshot k)
  · exact .modProbe (.raise k)
  · exact .ite (.modProbe (.stopWithoutReply (.wakeWork k))) (.modProbe k)

theorem Keeps.opProbeAction (k : Keeps i h) : Keeps i (opProbeAction h) := by
  dsimp only [Machine.opProbeAction]
  split
  · exact k
  · exact .ite k (.performAct (.upd k))

theorem Keeps.opProbeLoad {hdr slot words} (k : Keeps i h) : Keeps i (opProbeLoad hdr slot words h) := by
  dsimp only [Machine.opProbeLoad]
  refine .icp k fun _ k => .ite (.badArg k) (.ite (.badState k) ?_)
  refine .ite (.badArg k) ?_
  split
  · exact .answer k
  · exact .ite (.denied k) (.ok (.modProbe (.powerDomain k)))

theorem Keeps.opProbeStart {hdr slot p s} (k : Keeps i h) : Keeps i (opProbeStart hdr slot p s h) := by
  dsimp only [Machine.opProbeStart]
  refine .icp k fun _ k => .ite (.badArg k) (.ite (.badState k) ?_)
  refine .ite (.badArg k) ?_
  split
  · exact .badArg k
  · exact .ok (.modProbe (.powerDomain k))

theorem Keeps.opProbeStop {hdr slot} (k : Keeps i h) : Keeps i (opProbeStop hdr slot h) :=
  .icp k fun _ k => .ite (.badArg k) (.ok (.modProbe (.upd k)))

theorem Keeps.opProbeStatus {hdr slot} (k : Keeps i h) : Keeps i (opProbeStatus hdr slot h) :=
  .icp k fun _ k => .ite (.badArg k) (.ok k)

/-! ### Sessions, life cycle and firmware -/

theorem Keeps.openFailed (k : Keeps i h) : Keeps i h.openFailed := .upd k

theorem Keeps.opIdentify {hdr} (k : Keeps i h) : Keeps i (opIdentify hdr h) := .icp k fun _ k => .ok k

theorem Keeps.opSessionChallenge {hdr role partition} (k : Keeps i h) :
    Keeps i (opSessionChallenge hdr role partition h) := by
  dsimp only [Machine.opSessionChallenge]
  refine .icp k fun _ k => .ite (.badArg k) (.ite (.badArg k) ?_)
  refine .ite (.denied k) (.ite (.badState k) ?_)
  split
  · exact .badState k
  · exact .ok (.upd k)

theorem Keeps.opSessionOpen {hdr role partition response} (k : Keeps i h) :
    Keeps i (opSessionOpen hdr role partition response h) := by
  dsimp only [Machine.opSessionOpen]
  refine .icp k fun _ k => .ite (.denied (.openFailed (.upd k))) ?_
  split
  · refine .ite (.badState (.upd k)) ?_
    split
    · exact .badState (.upd k)
    · exact .ok (.setGate (.upd k))
  · exact .badState (.upd k)

theorem Keeps.opSessionClose {hdr} (k : Keeps i h) : Keeps i (opSessionClose hdr h) :=
  .icp k fun _ k => .endSession (.ok k)

theorem Keeps.opIdentityCert {hdr} (k : Keeps i h) : Keeps i (opIdentityCert hdr h) := .icp k fun _ k => .ok k

theorem Keeps.eraseFlash (k : Keeps i h) : Keeps i h.eraseFlash := .upd k

theorem Keeps.doSideWork {l} (k : Keeps i h) : Keeps i (h.doSideWork l) :=
  .ite (.eraseFlash (.upd (.ite (.upd k) k))) (.ite (.upd k) k)

theorem Keeps.voteNow (k : Keeps i h) : Keeps i h.voteNow := .setGate (.doSideWork (.upd k))

theorem Keeps.voteCopy (k : Keeps i h) : Keeps i h.voteCopy := .setGate (.upd k)

theorem Keeps.advanceDone (k : Keeps i h) : Keeps i h.advanceDone := by
  dsimp only [Hub.advanceDone]
  split
  · exact .endSession (.conclude (.voteNow (.upd k)))
  · exact .voteNow (.upd k)

theorem Keeps.otpStep (k : Keeps i h) : Keeps i h.otpStep := by
  dsimp only [Hub.otpStep]
  split
  · exact k
  · exact .upd k
  · exact .ite (.voteCopy (.upd k)) (.ite (.upd k) (.advanceDone k))
  · exact .advanceDone k

theorem Keeps.opLifecycleGet {hdr} (k : Keeps i h) : Keeps i (opLifecycleGet hdr h) := .icp k fun _ k => .ok k

theorem Keeps.opLifecycleAdvance {hdr target confirm} (k : Keeps i h) :
    Keeps i (opLifecycleAdvance hdr target confirm h) := by
  dsimp only [Machine.opLifecycleAdvance]
  refine .icp k fun _ k => ?_
  split
  · exact .badArg k
  · exact .ite (.badArg k) (.ite (.badState k) (.ite (.badState k)
      (.ite (.badState k) (.ite (.badState k) (.occupy (.upd k))))))

theorem Keeps.opRoleKeyProgram {hdr role hash} (k : Keeps i h) : Keeps i (opRoleKeyProgram hdr role hash h) := by
  dsimp only [Machine.opRoleKeyProgram]
  refine .icp k fun _ k => ?_
  split
  · exact .badArg k
  · exact .ite (.badArg k) (.ite (.badState k) (.ite (.ok (.upd k)) (.badState (.upd k))))

theorem Keeps.opFirmwareInfo {hdr} (k : Keeps i h) : Keeps i (opFirmwareInfo hdr h) := .icp k fun _ k => .ok k

theorem Keeps.takeFirmware {f n free got} (k : Keeps i h) : Keeps i (h.takeFirmware f n free got).2 := by
  induction f generalizing h free got with
  | zero => exact k
  | succ f ih =>
    dsimp only [Hub.takeFirmware]
    refine .ite₂ k ?_
    split
    · exact k
    · exact .ite₂ (ih (.flashError (.upd k))) (ih (.upd k))

theorem Keeps.writeFirmware {n} (k : Keeps i h) : Keeps i (h.writeFirmware n).2 := by
  dsimp only [Hub.writeFirmware]
  split
  next e => exact .ofSnd e (.takeFirmware k)
  next e =>
    have k := Keeps.ofSnd e (.takeFirmware k)
    exact .ite₂ (.flashError k) (.ite₂ (.flashError (.upd k)) (.upd k))

theorem Keeps.commitLoad {hdr b total} (k : Keeps i h) : Keeps i (h.commitLoad hdr b total) :=
  .ite (.ite (.denied k) (.ite (.ok (.upd k)) (.badArg k))) (.ite
    (.ite (.ite (.answer (.writeFirmware k)) (.badState (.writeFirmware k)))
    (.ite (.wake (.stored (.upd (.writeFirmware k)))) (.stored (.upd (.writeFirmware k))))) (.badArg k))

theorem Keeps.opFirmwareWrite {hdr offset total final data} (k : Keeps i h) :
    Keeps i (opFirmwareWrite hdr offset total final data h) := by
  dsimp only [Machine.opFirmwareWrite]
  refine .icp k fun _ k => ?_
  split
  · exact .badArg (.upd k)
  · exact .ite (.ok (.upd k)) (.commitLoad (.upd k))

theorem Keeps.opOtpVote (k : Keeps i h) : Keeps i (opOtpVote h) := .ite k (.upd (.voteNow (.upd k)))

theorem Keeps.opChallengeExpiry (k : Keeps i h) : Keeps i (opChallengeExpiry h) := by
  dsimp only [Machine.opChallengeExpiry]
  split
  · exact .ite (.upd k) k
  · exact k

theorem Keeps.opSessionIdleTimeout {tag} (k : Keeps i h) : Keeps i (opSessionIdleTimeout tag h) := by
  dsimp only [Machine.opSessionIdleTimeout]
  split
  · exact .ite (.endSession k) k
  · exact k

theorem Keeps.opEntropyFail (k : Keeps i h) : Keeps i (opEntropyFail h) := .upd k

theorem Keeps.opTestGateFall (k : Keeps i h) : Keeps i (opTestGateFall h) := .ite k (.upd k)

/-! ### The pattern store and its mirror -/

theorem Keeps.takeBlocks {f n free got} (k : Keeps i h) : Keeps i (h.takeBlocks f n free got).2 := by
  induction f generalizing h free got with
  | zero => exact k
  | succ f ih =>
    dsimp only [Hub.takeBlocks]
    refine .ite₂ k ?_
    split
    · exact k
    · exact .ite₂ (ih (.flashError (.upd k))) (ih (.upd k))

theorem Keeps.writeContent {d taken} (k : Keeps i h) : Keeps i (h.writeContent d taken).2 := .takeBlocks k

theorem Keeps.writeContents {ds got} (k : Keeps i h) : Keeps i (h.writeContents ds got).2 := by
  induction ds generalizing h got with
  | nil => exact k
  | cons d ds ih =>
    dsimp only [Hub.writeContents]
    split
    next e => exact .ofSnd e (.writeContent k)
    next e => exact ih (.ofSnd e (.writeContent k))

theorem Keeps.writeDirectory {items} (k : Keeps i h) : Keeps i (h.writeDirectory items).2 :=
  .ite₂ (.flashError k) (.ite₂ (.flashError (.upd k)) (.upd k))

theorem Keeps.mirror {drop add} (k : Keeps i h) : Keeps i (h.mirror drop add).2 := by
  dsimp only [Hub.mirror]
  split
  next e => exact .writeDirectory (.ofSnd e (.writeContents k))
  next e =>
    have k := Keeps.ofSnd e (.writeContents k)
    split
    next e => exact .writeDirectory (.ofSnd e (.writeContents k))
    next e => exact .flashError (.ofSnd e (.writeContents k))

theorem Keeps.reloadStore (k : Keeps i h) : Keeps i h.reloadStore :=
  .upd (.ite (.upd k) (.mirror (.foldl (.upd k) fun _ _ k => .flashError k)))

theorem Keeps.storeUp (k : Keeps i h) : Keeps i h.storeUp := .ite (.reloadStore (.powerDomains k)) (.powerDomains k)

theorem Keeps.dropResults {drop} (k : Keeps i h) : Keeps i (h.dropResults drop) := .upd k

theorem Keeps.mirrorResults (k : Keeps i h) : Keeps i h.mirrorResults := .ite (.upd (.mirror k)) (.upd (.mirror k))

theorem Keeps.keepCandidate {c} (k : Keeps i h) : Keeps i (h.keepCandidate c).2 :=
  .ite₂ (.upd (.storeUp k)) (.pair₂ (.mirror (.upd (.storeUp k))))

/-! ### The hub register space -/

theorem Keeps.readWord {a} (k : Keeps i h) : Keeps i (h.readWord a).2 := .ite₂ (.upd k) (.ite₂ (.upd k) k)

theorem Keeps.readWords {n a} (k : Keeps i h) : Keeps i (readWords n a h).2 := by
  induction n generalizing h a with
  | zero => exact k
  | succ n ih => exact ih (.readWord k)

theorem Keeps.runRegRead {hdr u off n} (k : Keeps i h) : Keeps i (h.runRegRead hdr u off n) := by
  have r := Keeps.inspectAll (f := Hub.inspectWord u) (ps := wordsOf off (4 * n)) (r := ⟨.done, [], h⟩) k
    fun _ _ _ k => .inspectWord k
  exact .ite (.badState r) (.ite (.answer r) (.ok r))

theorem Keeps.regReadAgent {hdr address count u} (k : Keeps i h) : Keeps i (h.regReadAgent hdr address count u) :=
  .checkedRead k fun _ k => .withAgent k fun _ k => .runRegRead k

theorem Keeps.opRegRead {hdr address count} (k : Keeps i h) : Keeps i (opRegRead hdr address count h) := by
  dsimp only [Machine.opRegRead]
  refine .icp k fun _ k => ?_
  split
  · exact .badArg k
  · refine .ite (.badArg k) ?_
    split
    · exact .regReadAgent k
    · exact .ok (.readWords (.powerDomains k))

theorem Keeps.writeWord {a v} (k : Keeps i h) : Keeps i (h.writeWord a v) := by
  dsimp only [Hub.writeWord]
  refine .ite (.upd ?powered) (.ite (.upd ?powered) (.ite (.upd ?powered)
    (.ite (.atStage ?powered fun _ k => .setCollector k) (.ite (.upd ?powered) (.ite (.upd ?powered) ?powered)))))
  split
  · exact .powerDomains k
  · exact k

theorem Keeps.writeWords {vs a} (k : Keeps i h) : Keeps i (writeWords vs a h) := by
  induction vs generalizing h a with
  | nil => exact k
  | cons v vs ih => exact ih (.writeWord k)

theorem Keeps.pokeWord {ws base u off n} (k : Keeps i h) : Keeps i (Hub.pokeWord ws base u h off n).hub :=
  .ite (.noteWritten (.writeReg k)) (.writeReg k)

theorem Keeps.runRegWrite {hdr u off ws} (k : Keeps i h) : Keeps i (h.runRegWrite hdr u off ws) := by
  have r := Keeps.inspectAll (f := Hub.pokeWord ws off u) (ps := wordsOf off (4 * ws.length)) (r := ⟨.done, [], h⟩) k
    fun _ _ _ k => .pokeWord k
  exact .ite (.badState r) (.ite (.answer r) (.ok r))

theorem Keeps.opRegWrite {hdr address words} (k : Keeps i h) : Keeps i (opRegWrite hdr address words h) := by
  dsimp only [Machine.opRegWrite]
  refine .icp k fun _ k => ?_
  split
  · exact .badArg k
  · refine .ite (.badArg k) ?_
    split
    · exact .ite (.badArg k) (.withAgent k fun _ k => .runRegWrite k)
    · exact .ok (.writeWords k)

/-! ### Replays -/

theorem Keeps.endReplay {st} (k : Keeps i h) : Keeps i (h.endReplay st) := .conclude (.upd k)

theorem Keeps.bisectReplay {m run st} (k : Keeps i h) : Keeps i (h.bisectReplay m run st) :=
  .ite (.endReplay k) (.ite (.endReplay k) (.ite (.endReplay k) (.endReplay (.keepCandidate k))))

theorem Keeps.decideReplay {m run inputs} (k : Keeps i h) : Keeps i (h.decideReplay m run inputs) :=
  .ite (.endReplay (.upd k)) (.ite (.raise (.ite (.upd k) (.decideTaint (.upd k))))
    (.ite (.bisectReplay (.raise (.ite (.upd k) (.decideTaint (.upd k)))))
    (.endReplay (.raise (.ite (.upd k) (.decideTaint (.upd k)))))))

theorem Keeps.armReplay {hdr run u} (k : Keeps i h) : Keeps i (h.armReplay hdr run u) :=
  .setProg (.setSounding (.commit (.maskFor (.powerDomains (.stageAll k)))))

theorem Keeps.nextReplay {m hdr run} (k : Keeps i h) : Keeps i (h.nextReplay m hdr run) := by
  dsimp only [Hub.nextReplay]
  split
  · exact .armReplay k
  · exact .ite (.decideReplay k) (.endReplay k)

theorem Keeps.opReplay {hdr p m} (k : Keeps i h) : Keeps i (opReplay hdr p m h) := by
  dsimp only [Machine.opReplay]
  refine .icp k fun _ k => .ite (.badState k) ?_
  split
  · exact .badArg k
  · exact .ite (.nextReplay (.occupy (.powerDomains k))) (.endReplay (.occupy (.powerDomains k)))

theorem Keeps.opReplayStatus {hdr} (k : Keeps i h) : Keeps i (opReplayStatus hdr h) := .icp k fun _ k => .ok k

theorem Keeps.requestReplay (k : Keeps i h) : Keeps i h.requestReplay := by
  dsimp only [Hub.requestReplay]
  split
  · split
    · exact k
    · exact .ite k (.feReissue (.setProg k))
  · exact k

theorem Keeps.clearReplays (k : Keeps i h) : Keeps i h.clearReplays :=
  .ite k (.foldl k fun _ _ k => .clearSounding k)

theorem Keeps.replayRefused {run} (k : Keeps i h) : Keeps i (h.replayRefused run) := .endReplay (.clearSounding k)

theorem Keeps.replayRunEnded {run} (k : Keeps i h) : Keeps i (h.replayRunEnded run) := .setSounding k

theorem Keeps.replayPosted {m s p} (k : Keeps i h) : Keeps i (h.replayPosted m s p) := by
  dsimp only [Hub.replayPosted]
  split
  · exact .ite k (.nextReplay (.setProg (.clearSounding k)))
  · exact k

theorem Keeps.opPostingWrite {sounding m} (k : Keeps i h) : Keeps i (opPostingWrite sounding m h) := by
  dsimp only [Machine.opPostingWrite]
  split
  · exact k
  · exact .ite k (.ite (.replayPosted (.writePosting k)) (.writePosting k))

/-! ### Results of combines and ends of accesses -/

theorem Keeps.postingWord {s w r} (k : Keeps i h) : Keeps i (h.postingWord s w r) := by
  dsimp only [Hub.postingWord]
  split
  · exact k
  · exact .setSounding k

theorem Keeps.noteResult {f} (k : Keeps i h) : Keeps i (h.noteResult f) := .upd k

theorem Keeps.resumeDone {r} (k : Keeps i h) : Keeps i (h.resumeDone r) := by
  dsimp only [Hub.resumeDone]
  split
  · split
    · exact .conclude k
    · exact k
  · exact k

theorem Keeps.cancelDone {r} (k : Keeps i h) : Keeps i (h.cancelDone r) := by
  dsimp only [Hub.cancelDone]
  split
  · exact .ite (.conclude k) k
  · exact k

theorem Keeps.handResult {c r} (k : Keeps i h) : Keeps i (h.handResult c r) := by
  dsimp only [Hub.handResult]
  split
  · exact .upd k
  · exact .upd k
  · exact .cancelDone k
  · exact .noteResult k
  · exact .noteResult k
  · exact .stepJudged k
  · exact .resumeDone k
  · exact .noteResult k
  · exact .completeAggregate k
  · exact .postingWord k
  · exact .probeLoaded k
  · exact k
  · exact .upd k

theorem Keeps.opCombineResult {tag} (k : Keeps i h) : Keeps i (opCombineResult tag h) := by
  dsimp only [Machine.opCombineResult]
  split
  · exact k
  · split
    · exact k
    · exact .handResult (.endCombine k)

theorem Keeps.againAll {j} (k : Keeps i h) : Keeps i (h.againAll j) := by
  dsimp only [Hub.againAll]
  split
  · exact .readWindows k
  · exact .observerSnapshots k
  · exact .runCounterClear k
  · exact .runTraceConfig k
  · exact .runSoundingSet k
  · exact k

theorem Keeps.again {u j} (k : Keeps i h) : Keeps i (h.again u j) := by
  dsimp only [Hub.again]
  split
  · exact .checkedRead k fun _ k => .runInspectRead k
  · exact .runInspectWrite k
  · exact .startCommandStep k
  · exact .checkedRead k fun _ k => .runRegRead k
  · exact .runRegWrite k
  · exact .againAll k

theorem Keeps.goOn {e u j} (k : Keeps i h) : Keeps i (h.goOn e u j) :=
  .ite (.upd (.again (.upd k))) (.upd (.again (.upd k)))

theorem Keeps.gathered {e us u j} (k : Keeps i h) : Keeps i (h.gathered e us u j) := .ite (.goOn k) (.setProg k)

theorem Keeps.accessOutcome {u answered} (k : Keeps i h) : Keeps i (h.accessOutcome u answered) := by
  dsimp only [Hub.accessOutcome]
  split
  · exact k
  · split
    · exact .ite k (.ite (.goOn k) (.conclude k))
    · exact .ite (.gathered k) k
    · exact k

theorem Keeps.endMcasts (k : Keeps i h) : Keeps i h.endMcasts := .foldl (.upd k) fun _ _ k => .emit k

theorem Keeps.unicastWrite {u tag addr data} (k : Keeps i h) : Keeps i (h.unicastWrite u tag addr data) :=
  .ite (.modAgent k) (.inject (.emit (.bulkWrite k)))

theorem Keeps.mcastOutcome {u answered} (k : Keeps i h) : Keeps i (h.mcastOutcome u answered) :=
  .endMcasts (.ite (.foldl (.upd k) fun _ _ k => .foldl k fun _ _ k => .unicastWrite k) (.upd k))

theorem Keeps.outcome {u answered} (k : Keeps i h) : Keeps i (h.outcome u answered) :=
  .mcastOutcome (.accessOutcome k)

theorem Keeps.replyIn {u tag powering} (k : Keeps i h) : Keeps i (h.replyIn u tag powering) :=
  .ite (.outcome (.dropTxns k)) k

theorem Keeps.opAccessTimeout {tag} (k : Keeps i h) : Keeps i (opAccessTimeout tag h) := by
  dsimp only [Machine.opAccessTimeout]
  split
  · exact k
  · exact .ite k (.ite (.outcome (.dropTxns k)) (.ite (.outcome (.modAgent (.dropTxns k)))
      (.ite (.outcome (.dropTxns k)) (.sendRequest (.dropTxns k)))))

/-! ### Register and bulk accesses -/

theorem Keeps.respond {u tag status data} (k : Keeps i h) : Keeps i (h.respond u tag status data) :=
  .replyIn (.inject (.emit k))

theorem Keeps.respondBulk {u tag status data} (k : Keeps i h) : Keeps i (h.respondBulk u tag status data) :=
  .replyIn (.inject (.emit k))

theorem Keeps.opRegAccess {unit tag write offset data} (k : Keeps i h) :
    Keeps i (opRegAccess unit tag write offset data h) :=
  .ite k (.ite (.respond k) (.ite (.respond (.writeReg k)) (.respond (.setAgent k))))

theorem Keeps.opBulkRead {unit tag address words} (k : Keeps i h) : Keeps i (opBulkRead unit tag address words h) :=
  .ite k (.ite (.respondBulk k) (.respondBulk (.bulkRead k)))

theorem Keeps.performHeld {u} (k : Keeps i h) : Keeps i (h.performHeld u) :=
  .ite k (.foldl (.setAgent k) fun _ _ k => .respond (.bulkWrite k))

theorem Keeps.openMcast {tag m} (k : Keeps i h) : Keeps i (h.openMcast tag m) := .ite k (.beginMcast k)

theorem Keeps.modMcast {tag f} (k : Keeps i h) : Keeps i (h.modMcast tag f) := .upd k

theorem Keeps.multicastAt {u tag arg address data} (k : Keeps i h) :
    Keeps i (h.multicastAt u tag arg address data) := by
  dsimp only [Hub.multicastAt]
  split
  · exact .modMcast (.openMcast k)
  · refine .ite (.modMcast (.openMcast k)) (.ite ?_ ?_)
    · refine .contribute (.ite (.modMcast (.openMcast k)) ?_)
      refine .ite ?_ (.ite (.bulkWrite (.modMcast (.openMcast k)))
        (.modMcast (.bulkWrite (.modMcast (.openMcast k)))))
      split
      · exact .modAgent (.modMcast (.modMcast (.openMcast k)))
      · exact .modMcast (.modMcast (.openMcast k))
    · refine .ite (.modMcast (.openMcast k)) ?_
      refine .ite ?_ (.ite (.bulkWrite (.modMcast (.openMcast k)))
        (.modMcast (.bulkWrite (.modMcast (.openMcast k)))))
      split
      · exact .modAgent (.modMcast (.modMcast (.openMcast k)))
      · exact .modMcast (.modMcast (.openMcast k))

theorem Keeps.opBulkWrite {unit tag mcast address data} (k : Keeps i h) :
    Keeps i (opBulkWrite unit tag mcast address data h) := by
  dsimp only [Machine.opBulkWrite]
  refine .ite k ?_
  split
  · exact .multicastAt k
  · exact .ite (.respond k) (.replyIn (.unicastWrite k))

theorem Keeps.opMulticastComplete {tag} (k : Keeps i h) : Keeps i (opMulticastComplete tag h) := by
  dsimp only [Machine.opMulticastComplete]
  split
  · exact k
  · exact .ite k (.endMcasts (.foldl (.foldl (.modMcast k) fun _ _ k => .mcastOutcome k) fun _ _ k => .sendRequest k))

/-! ### Bench triggers -/

theorem Keeps.edgeMark (k : Keeps i h) : Keeps i h.edgeMark := .ite k (.ite (.triggerOrMark k) (.ite (.mark k) k))

theorem Keeps.edgeIssue (k : Keeps i h) : Keeps i h.edgeIssue :=
  .ite (.ite (.issueFreeze k) k) (.ite (.stopWithoutReply (.ite (.issueFreeze k) k)) (.upd (.ite (.issueFreeze k) k)))

theorem Keeps.opPodTrigInEdge {lowNs highNs} (k : Keeps i h) : Keeps i (opPodTrigInEdge lowNs highNs h) :=
  .ite k (.ite (.upd k) (.ite (.upd k) (.edgeIssue (.edgeMark (.upd k)))))

theorem Keeps.opPodTrigOutPulse {event} (k : Keeps i h) : Keeps i (opPodTrigOutPulse event h) :=
  .ite k (.ite (.upd k) (.emit (.upd k)))

/-! ### The dump -/

theorem Keeps.opDumpRegionSet {hdr base size} (k : Keeps i h) : Keeps i (opDumpRegionSet hdr base size h) :=
  .icp k fun _ k => .ite (.badArg k) (.ite (.badArg k) (.ok (.upd k)))

theorem Keeps.opDumpImageRegister {hdr imageId address length m} (k : Keeps i h) :
    Keeps i (opDumpImageRegister hdr imageId address length m h) := by
  dsimp only [Machine.opDumpImageRegister]
  refine .icp k fun _ k => .ite (.badState k) (.ite (.badArg k) ?_)
  refine .ite (.badArg k) ?_
  split
  · exact .badArg k
  · exact .ite (.badArg k) (.ok (.powerDomains (.upd k)))

theorem Keeps.opDumpImageRemove {hdr index} (k : Keeps i h) : Keeps i (opDumpImageRemove hdr index h) :=
  .icp k fun _ k => .ite (.badArg k) (.ok (.upd k))

theorem Keeps.opDumpImageList {hdr} (k : Keeps i h) : Keeps i (opDumpImageList hdr h) := .icp k fun _ k => .ok k

theorem Keeps.beginUnit {run u p} (k : Keeps i h) : Keeps i (h.beginUnit run u p) := by
  dsimp only [Hub.beginUnit]
  refine .ite (.setProg k) (.ite (.ite (.setProg (.learnState (.modAgent k))) (.setProg k)) ?_)
  split
  · exact .setProg (.learnState k)
  · exact .setProg k

theorem Keeps.readOne {m run u p types} (k : Keeps i h) : Keeps i (h.readOne m run u p types).1 := by
  dsimp only [Hub.readOne]
  split
  · exact .setProg k
  · split <;> exact .setProg k

theorem Keeps.dumpUnit {m run} (k : Keeps i h) : Keeps i (h.dumpUnit m run).1 := by
  dsimp only [Hub.dumpUnit]
  split
  · exact k
  · split
    · exact .beginUnit k
    · exact .readOne k

theorem Keeps.dumpTail {m run bound} (k : Keeps i h) : Keeps i (h.dumpTail m run bound).1 := .conclude (.upd k)

theorem Keeps.dumpRead {m run} (k : Keeps i h) : Keeps i (h.dumpRead m run).1 := .setProg k

theorem Keeps.startDump {m hdr n flags regions} (k : Keeps i h) : Keeps i (h.startDump m hdr n flags regions).1 :=
  .ite₁ (.dumpRead (.occupy (.upd (.powerDomains k)))) (.feRequest (.occupy (.upd (.powerDomains k))))

theorem Keeps.opDump {hdr flags regions m} (k : Keeps i h) : Keeps i (opDump hdr flags regions m h).1 := by
  dsimp only [Machine.opDump]
  refine .icpMem k fun _ k => ?_
  split
  · exact .badState k
  · split
    · exact .badArg k
    · exact .startDump k

theorem Keeps.dumpStep {m} (k : Keeps i h) : Keeps i (h.dumpStep m).1 := by
  dsimp only [Hub.dumpStep]
  split
  · exact .ite₁ k (.ite₁ (.dumpTail k) (.dumpUnit (.setProg k)))
  · exact k

theorem Keeps.opUnitPresenceChange {unit reason} (k : Keeps i h) :
    Keeps i (opUnitPresenceChange unit reason h) := by
  dsimp only [Machine.opUnitPresenceChange]
  split
  · refine .ite k ?_
    split
    · exact .ite (.setProg k) k
    · exact .ite k (.setProg k)
  · exact k

theorem Keeps.opDumpStatus {hdr} (k : Keeps i h) : Keeps i (opDumpStatus hdr h) := .icp k fun _ k => .ok k

theorem Keeps.opDumpFetch {hdr dumpId offset length m} (k : Keeps i h) :
    Keeps i (opDumpFetch hdr dumpId offset length m h) :=
  .icp k fun _ k => .ite (.badState k) (.ite (.badArg k) (.ok (.powerDomains k)))

/-! ### Packs and pattern runs -/

theorem Keeps.removePacks {drop} (k : Keeps i h) : Keeps i (h.removePacks drop) :=
  .ite k (.mirror (.dropResults (.upd k)))

theorem Keeps.storePack {hdr b} (k : Keeps i h) : Keeps i (h.storePack hdr b) := by
  dsimp only [Hub.storePack]
  refine .ite (.badArg k) ?_
  split
  · exact .badState k
  · exact .ite (.badState k) (.stored (.mirror (.ite (.dropResults (.upd k)) (.upd k))))

theorem Keeps.opPatternLoad {hdr offset total final data} (k : Keeps i h) :
    Keeps i (opPatternLoad hdr offset total final data h) := by
  dsimp only [Machine.opPatternLoad]
  refine .icp k fun _ k => ?_
  split
  · exact .badArg (.upd k)
  · exact .ite (.ok (.upd k)) (.ite (.badArg (.storeUp (.upd k)))
      (.ite (.denied (.storeUp (.upd k))) (.storePack (.storeUp (.upd k)))))

theorem Keeps.opPatternRemove {hdr packId} (k : Keeps i h) : Keeps i (opPatternRemove hdr packId h) :=
  .icp k fun _ k => .ite (.badArg (.storeUp k)) (.stored (.removePacks (.storeUp k)))

theorem Keeps.opPatternList {hdr} (k : Keeps i h) : Keeps i (opPatternList hdr h) :=
  .icp k fun _ k => .stored (.storeUp k)

theorem Keeps.opPatternKeyRegister {hdr key} (k : Keeps i h) : Keeps i (opPatternKeyRegister hdr key h) :=
  .icp k fun _ k => .ite (.badArg k) (.ite (.badState k) (.ok (.upd k)))

theorem Keeps.opPatternKeyRevoke {hdr slot} (k : Keeps i h) : Keeps i (opPatternKeyRevoke hdr slot h) := by
  dsimp only [Machine.opPatternKeyRevoke]
  refine .icp k fun _ k => ?_
  split
  · exact .badArg k
  · exact .stored (.removePacks (.storeUp (.upd k)))

theorem Keeps.discardImage {m} (k : Keeps i h) : Keeps i (h.discardImage m).1 := .upd k

theorem Keeps.countResult {u pack pattern errors pass fail} (k : Keeps i h) :
    Keeps i (h.countResult u pack pattern errors pass fail) := .ite k (.ite (.upd k) (.ite (.upd k) (.upd k)))

theorem Keeps.countRun {r u errors pass fail} (k : Keeps i h) : Keeps i (h.countRun r u errors pass fail).2 :=
  .countResult k

theorem Keeps.startGroup {m r b} (k : Keeps i h) : Keeps i (h.startGroup m r b).1 :=
  .setProg (.foldl k fun _ _ k => .feReissue k)

theorem Keeps.endPatterns {r} (k : Keeps i h) : Keeps i (h.endPatterns r) := .ite (.conclude k) (.conclude k)

theorem Keeps.finishPatterns {r} (k : Keeps i h) : Keeps i (h.finishPatterns r) :=
  .ite (.endPatterns k) (.feRequest (.setProg k))

theorem Keeps.skipUnits {r b us} (k : Keeps i h) : Keeps i (h.skipUnits r b us).2 :=
  .foldl₂ k fun _ _ k => .countRun k

theorem Keeps.startPattern {m r b} (k : Keeps i h) : Keeps i (h.startPattern m r b).2.1 := .skipUnits k

theorem Keeps.runPatterns {f r m} (k : Keeps i h) : Keeps i (h.runPatterns f r m).1 := by
  induction f generalizing h r m with
  | zero => exact .finishPatterns k
  | succ f ih =>
    dsimp only [Hub.runPatterns]
    split
    · exact .finishPatterns k
    · split
      · exact ih k
      · refine .ite₁ (.startGroup (.skipUnits k)) ?_
        split
        · exact .finishPatterns (.skipUnits k)
        · split
          · exact ih (.skipUnits k)
          · exact ih (.startPattern (.skipUnits k))

theorem Keeps.beginPatterns {m r} (k : Keeps i h) : Keeps i (h.beginPatterns m r).1 := by
  dsimp only [Hub.beginPatterns]
  split
  · exact .finishPatterns k
  · split
    · exact .runPatterns k
    · exact .runPatterns (.startPattern k)

theorem Keeps.groupStep {m r u} (k : Keeps i h) : Keeps i (h.groupStep m r u).1 :=
  .ite₁ (.runPatterns k) (.setProg k)

theorem Keeps.runError {m r u} (k : Keeps i h) : Keeps i (h.runError m r u).1 := .groupStep (.countRun k)

theorem Keeps.patRunEnded {m r g error} (k : Keeps i h) : Keeps i (h.patRunEnded m r g error).1 := by
  dsimp only [Hub.patRunEnded]
  split
  · exact k
  · split
    · exact .runError k
    · exact .groupStep (.countRun k)

theorem Keeps.patternLost {m} (k : Keeps i h) : Keeps i (h.patternLost m).1 := by
  dsimp only [Hub.patternLost]
  split
  · split
    · exact .runError k
    · exact k
  · exact k

theorem Keeps.opRunPatterns {hdr packId pattern flags runLimit units m} (k : Keeps i h) :
    Keeps i (opRunPatterns hdr packId pattern flags runLimit units m h).1 := by
  dsimp only [Machine.opRunPatterns]
  refine .icpMem k fun _ k => .ite₁ (.answer (.storeUp k)) (.ite₁ (.badState (.storeUp k)) ?_)
  split
  · exact .badArg (.storeUp k)
  · exact .feRequest (.occupy (.ite₁ (.discardImage (.storeUp k)) (.storeUp k)))

theorem Keeps.opRunLimitExpiry {unit m} (k : Keeps i h) : Keeps i (opRunLimitExpiry unit m h).1 := by
  dsimp only [Machine.opRunLimitExpiry]
  split
  · split
    · exact .runError (.feRequest k)
    · exact k
  · exact k

theorem Keeps.patternsBound {r} (k : Keeps i h) : Keeps i (h.patternsBound r) :=
  .ite k (.ite (.endPatterns k) (.ite (.finishPatterns k) (.setProg k)))

theorem Keeps.patternLate {r u} (k : Keeps i h) : Keeps i (h.patternLate r u) :=
  .ite (.patternsBound k) (.ite (.finishPatterns k) (.setProg k))

theorem Keeps.opPatternResults {hdr pack} (k : Keeps i h) : Keeps i (opPatternResults hdr pack h) :=
  .icp k fun _ k => .ite (.badArg k) (.stored (.storeUp k))

theorem Keeps.opPatternResultsClear {hdr pack} (k : Keeps i h) : Keeps i (opPatternResultsClear hdr pack h) :=
  .icp k fun _ k => .ite (.badArg k) (.stored (.dropResults (.storeUp k)))

theorem Keeps.opCandidateList {hdr} (k : Keeps i h) : Keeps i (opCandidateList hdr h) :=
  .icp k fun _ k => .stored (.storeUp k)

theorem Keeps.opCandidateExport {hdr candSeq} (k : Keeps i h) : Keeps i (opCandidateExport hdr candSeq h) := by
  dsimp only [Machine.opCandidateExport]
  refine .icp k fun _ k => ?_
  split
  · exact .badArg (.storeUp k)
  · exact .stored (.upd (.storeUp k))

theorem Keeps.opCandidateRemove {hdr candSeq} (k : Keeps i h) : Keeps i (opCandidateRemove hdr candSeq h) :=
  .icp k fun _ k => .ite (.badArg (.storeUp k)) (.stored (.mirror (.upd (.storeUp k))))

theorem Keeps.opPatternReload (k : Keeps i h) : Keeps i (opPatternReload h) := .ite (.reloadStore k) k

theorem Keeps.opResultsMirror (k : Keeps i h) : Keeps i (opResultsMirror h) := .ite k (.mirrorResults k)

/-! ### The command front end -/

theorem Keeps.dropWork {covers} (k : Keeps i h) : Keeps i (h.dropWork covers) := .upd k

theorem Keeps.droppedWork {q count} (k : Keeps i h) : Keeps i (h.droppedWork q count) := by
  dsimp only [Hub.droppedWork]
  refine .ite (.dropWork k) ?_
  split
  · exact .upd (.dropWork k)
  · exact .dropWork k

theorem Keeps.reissueAnswer {m q u ok} (k : Keeps i h) : Keeps i (h.reissueAnswer m q u ok).1 := by
  dsimp only [Hub.reissueAnswer]
  split
  · exact .ite (.ite (.upd k) k) (.replayRefused (.ite (.upd k) k))
  · split
    · exact .ite₁ (.ite (.upd k) k) (.ite₁ (.setProg (.ite (.upd k) k)) (.runError (.ite (.upd k) k)))
    · exact .ite (.upd k) k

theorem Keeps.opFrontEndAnswer {a m} (k : Keeps i h) : Keeps i (opFrontEndAnswer a m h).1 := by
  dsimp only [Machine.opFrontEndAnswer]
  split
  · exact k
  · split
    · split
      · exact .ite₁ (.upd (.dropWork (.upd k))) (.beginPatterns (.upd (.dropWork (.upd k))))
      · exact .upd (.dropWork (.upd k))
    · split
      · exact .ite (.endPatterns (.upd k)) (.upd k)
      · exact .upd k
    · exact .droppedWork (.upd k)
    · exact .reissueAnswer (.upd k)
    · split
      · exact .dumpRead (.upd k)
      · exact .upd k
    · exact .upd k

theorem Keeps.replayBound {run} (k : Keeps i h) : Keeps i (h.replayBound run) := .conclude (.upd k)

theorem Keeps.dropFailed {us} (k : Keeps i h) : Keeps i (h.dropFailed us) := by
  dsimp only [Hub.dropFailed]
  split
  · split
    · exact .ite (.conclude k) k
    · exact .ite (.patternsBound k) k
    · exact k
  · exact k

theorem Keeps.requestFailed {m q} (k : Keeps i h) : Keeps i (h.requestFailed m q).1 := by
  dsimp only [Hub.requestFailed]
  split
  · split
    · exact .ite k (.endPatterns k)
    · exact k
  · split
    · exact .ite (.endPatterns k) k
    · exact k
  · split
    · exact .replayBound k
    · split
      · exact .ite (.patternLate k) k
      · exact k
  · exact .dropFailed k
  · split
    · exact .conclude k
    · exact k
  · exact k

theorem Keeps.opFrontEndTimeout {r m} (k : Keeps i h) : Keeps i (opFrontEndTimeout r m h).1 := by
  dsimp only [Machine.opFrontEndTimeout]
  split
  · exact k
  · exact .requestFailed (.raise (.upd k))

theorem Keeps.opReissueEnd {unit error m} (k : Keeps i h) : Keeps i (opReissueEnd unit error m h).1 := by
  dsimp only [Machine.opReissueEnd]
  split
  · exact k
  · refine .ite₁ k ?_
    split
    · refine .replayRunEnded ?_
      split
      · exact .sourceEnd (.upd k)
      · exact .upd k
    · split
      · split
        · refine .patRunEnded ?_
          split
          · exact .sourceEnd (.upd k)
          · exact .upd k
        · split
          · exact .sourceEnd (.upd k)
          · exact .upd k
      · split
        · exact .sourceEnd (.upd k)
        · exact .upd k

/-! ### The pair of controllers -/

theorem Keeps.setCtrl {s c} (k : Keeps i h) : Keeps i (h.setCtrl s c) := .upd k

theorem Keeps.opHeartbeatSend {side} (k : Keeps i h) : Keeps i (opHeartbeatSend side h) :=
  .ite k (.ite k (.ite (.emit (.setCtrl k)) (.ite k (.emit (.setCtrl k)))))

theorem Keeps.opHeartbeatReceived {sender wire word} (k : Keeps i h) :
    Keeps i (opHeartbeatReceived sender wire word h) := by
  dsimp only [Machine.opHeartbeatReceived]
  split
  · exact .ite (.upd k) k
  · exact .ite (.setCtrl k) k

theorem Keeps.standbyLost (k : Keeps i h) : Keeps i h.standbyLost := .ite (.raise (.upd k)) k

theorem Keeps.unsync {s} (k : Keeps i h) : Keeps i (h.unsync s) := .standbyLost (.upd (.setCtrl k))

theorem Keeps.resyncFailed {s} (k : Keeps i h) : Keeps i (h.resyncFailed s) := .upd (.setCtrl k)

theorem Keeps.startResync {s} (k : Keeps i h) : Keeps i (h.startResync s) := .syncDone (.upd (.setCtrl k))

theorem Keeps.becomeSolo {s} (k : Keeps i h) : Keeps i (h.becomeSolo s) := .upd (.endAllSessions (.setCtrl k))

theorem Keeps.opPeerHeartbeatMissed {side} (k : Keeps i h) : Keeps i (opPeerHeartbeatMissed side h) :=
  .ite k (.ite (.ite (.unsync (.setCtrl (.ite (.resyncFailed k) k)))
    (.ite (.standbyLost (.setCtrl (.ite (.resyncFailed k) k))) (.setCtrl (.ite (.resyncFailed k) k))))
    (.ite (.resyncFailed k) k))

theorem Keeps.opResyncComplete (k : Keeps i h) : Keeps i (opResyncComplete h) := by
  dsimp only [Machine.opResyncComplete]
  refine .ite k (.ite (.resyncFailed k) ?_)
  split
  · exact .conclude (.upd (.setCtrl k))
  · exact .upd (.setCtrl k)

theorem Keeps.opResyncTimeout (k : Keeps i h) : Keeps i (opResyncTimeout h) := .ite (.resyncFailed k) k

theorem Keeps.opResyncRetry (k : Keeps i h) : Keeps i (opResyncRetry h) := .ite (.startResync k) k

theorem Keeps.opSoloResyncComplete (k : Keeps i h) : Keeps i (opSoloResyncComplete h) := .ite (.setCtrl k) k

theorem Keeps.takeRole {s} (k : Keeps i h) : Keeps i (h.takeRole s) :=
  .ite k (.ite (.becomeSolo k) (.ite (.startResync k) (.upd (.setCtrl k))))

theorem Keeps.startGrant (k : Keeps i h) : Keeps i h.startGrant := .takeRole (.takeRole (.emit (.upd k)))

theorem Keeps.opFirmwareUp {side} (k : Keeps i h) : Keeps i (opFirmwareUp side h) :=
  .ite k (.ite (.takeRole (.setCtrl k)) (.ite (.startGrant (.setCtrl k)) (.setCtrl k)))

theorem Keeps.opControllerColdCycle {side} (k : Keeps i h) : Keeps i (opControllerColdCycle side h) :=
  .ite k (.powerDomain (.setCtrl (.upd k)))

theorem Keeps.withdraw {side} (k : Keeps i h) : Keeps i (h.withdraw side) := .ite k (.setCtrl k)

theorem Keeps.opFastClockLoss {side} (k : Keeps i h) : Keeps i (opFastClockLoss side h) :=
  .ite k (.raiseLine (.upd (.withdraw (.setCtrl k))))

theorem Keeps.grant {cold cause} (k : Keeps i h) : Keeps i (h.grant cold cause) :=
  .raise (.emit (.upd (.ite (.upd (.discardInFlight k)) (.discardInFlight k))))

theorem Keeps.keystoneDecide (k : Keeps i h) : Keeps i h.keystoneDecide :=
  .ite k (.ite (.ite k (.emit k)) (.ite (.grant k) (.ite (.grant k)
    (.ite (.ite k (.raise (.upd k))) (.ite (.upd k) k)))))

theorem Keeps.opKeystoneDecision (k : Keeps i h) : Keeps i (opKeystoneDecision h) :=
  .ite (.keystoneDecide (.ite (.emit (.upd k)) (.upd k))) (.ite (.keystoneDecide k) k)

theorem Keeps.keystoneFault {data} (k : Keeps i h) : Keeps i (h.keystoneFault data) := .raise (.upd k)

theorem Keeps.opKeystoneFault {stage wordA wordB} (k : Keeps i h) : Keeps i (opKeystoneFault stage wordA wordB h) :=
  .ite (.keystoneFault k) k

theorem Keeps.abutmentGrant {s claim holder} (k : Keeps i h) : Keeps i (h.abutmentGrant s claim holder) := by
  dsimp only [Hub.abutmentGrant]
  refine .ite k ?_
  split
  · exact .ite (.setCtrl k) (.upd (.setCtrl (.setCtrl k)))
  · exact .ite (.setCtrl (.setCtrl k)) (.setCtrl k)
  · exact .ite (.becomeSolo (.setCtrl k)) (.setCtrl k)
  · exact .ite (.becomeSolo (.upd (.setCtrl k))) (.setCtrl k)
  · exact .setCtrl k

theorem Keeps.opGrantWord {rx wordA wordB} (k : Keeps i h) : Keeps i (opGrantWord rx wordA wordB h) := by
  dsimp only [Machine.opGrantWord]
  split
  · exact .ite k (.ite (.keystoneFault k) (.ite k (.upd k)))
  · exact .ite (.abutmentGrant k) k

theorem Keeps.opStageAccess {stage side claim} (k : Keeps i h) : Keeps i (opStageAccess stage side claim h) :=
  .ite k (.ite k (.ite k (.refuse k)))

theorem Keeps.opSyncChange {seq acked} (k : Keeps i h) : Keeps i (opSyncChange seq acked h) :=
  .ite k (.ite (.upd k) (.ite (.unsync (.upd k)) (.ite (.syncDone (.upd k)) (.upd k))))

theorem Keeps.opSyncAckTimeout (k : Keeps i h) : Keeps i (opSyncAckTimeout h) := by
  dsimp only [Machine.opSyncAckTimeout]
  split
  · exact k
  · exact .ite (.standbyLost (.syncDone k)) k

theorem Keeps.opRedundancyStatus {hdr} (k : Keeps i h) : Keeps i (opRedundancyStatus hdr h) :=
  .icp k fun _ k => .ok k

theorem Keeps.opStandbyResync {hdr} (k : Keeps i h) : Keeps i (opStandbyResync hdr h) :=
  .icp k fun _ k => .ite (.ok k) (.ite (.occupy (.startResync k)) (.badState k))

theorem Keeps.opActiveRelease {hdr} (k : Keeps i h) : Keeps i (opActiveRelease hdr h) :=
  .icp k fun _ k => .ite (.badState k) (.setCtrl (.ok k))

/-! ### Bounds of commands -/

theorem Keeps.accessBound {u j} (k : Keeps i h) : Keeps i (h.accessBound u j) := by
  dsimp only [Hub.accessBound]
  split
  · exact .conclude (.dropAccess k)
  · exact .conclude (.dropAccess k)
  · exact k
  · exact .conclude (.dropAccess k)

theorem Keeps.boundMcasts (k : Keeps i h) : Keeps i h.boundMcasts :=
  .foldl (.upd k) fun _ _ k => .emit (.endCombine k)

theorem Keeps.gatherBoundEnd {us j} (k : Keeps i h) : Keeps i (h.gatherBoundEnd us j) := by
  dsimp only [Hub.gatherBoundEnd]
  split
  · exact .conclude (.boundMcasts (.foldl k fun _ _ k => .dropAccess k))
  · exact .conclude (.boundMcasts (.foldl k fun _ _ k => .dropAccess k))
  · exact .conclude (.foldl k fun _ _ k => .dropAccess k)
  · exact .conclude (.foldl k fun _ _ k => .dropAccess k)

theorem Keeps.endAtBound {m e} (k : Keeps i h) : Keeps i (h.endAtBound m e).1 := by
  dsimp only [Hub.endAtBound]
  split
  · split
    · exact .conclude k
    · exact k
  · exact .conclude k
  · exact .conclude k
  · exact .conclude k
  · exact .conclude k
  · exact .dumpTail k
  · exact .conclude k
  · exact .replayBound k
  · exact .patternsBound k
  · exact .conclude k
  · exact .conclude k
  · exact .accessBound k
  · exact .gatherBoundEnd k
  · exact k
  · exact k
  · exact k
  · exact k
  · exact k

theorem Keeps.opOpcodeBoundEnd {m} (k : Keeps i h) : Keeps i (opOpcodeBoundEnd m h).1 := by
  dsimp only [Machine.opOpcodeBoundEnd]
  split
  · exact k
  · split
    · exact k
    · exact .ite₁ k (.endAtBound k)

/-! ### I3C -/

theorem Keeps.takeAddress {address} (k : Keeps i h) : Keeps i (h.takeAddress address) := .ite (.upd k) k

theorem Keeps.opEntdaa {address} (k : Keeps i h) : Keeps i (opEntdaa address h) := .takeAddress k

theorem Keeps.opSetdasa {address} (k : Keeps i h) : Keeps i (opSetdasa address h) := .takeAddress k

theorem Keeps.opRstdaa (k : Keeps i h) : Keeps i (opRstdaa h) := .ite (.upd k) k

theorem Keeps.opEnec (k : Keeps i h) : Keeps i (opEnec h) := .ite (.upd k) k

theorem Keeps.opDisec (k : Keeps i h) : Keeps i (opDisec h) := .ite (.upd k) k

theorem Keeps.ccc {b} (k : Keeps i h) : Keeps i (h.ccc b) := .ite (.emit k) k

theorem Keeps.opGetstatus (k : Keeps i h) : Keeps i (opGetstatus h) := .ite (.emit (.upd k)) k

theorem Keeps.opGetpid (k : Keeps i h) : Keeps i (opGetpid h) := .ccc k

theorem Keeps.opGetbcr (k : Keeps i h) : Keeps i (opGetbcr h) := .ccc k

theorem Keeps.opGetdcr (k : Keeps i h) : Keeps i (opGetdcr h) := .ccc k

theorem Keeps.opGetmwl (k : Keeps i h) : Keeps i (opGetmwl h) := .ccc k

theorem Keeps.opGetmrl (k : Keeps i h) : Keeps i (opGetmrl h) := .ccc k

theorem Keeps.opWake (k : Keeps i h) : Keeps i (opWake h) := .ite (.wake k) k

theorem Keeps.opI3cPrivateWrite {bytes parityGood} (k : Keeps i h) :
    Keeps i (opI3cPrivateWrite bytes parityGood h) := by
  dsimp only [Machine.opI3cPrivateWrite]
  refine .ite k (.ite (.upd k) ?_)
  split
  · exact .upd k
  · exact .ite (.wake k) k
  · exact k

theorem Keeps.opI3cPrivateRead {count} (k : Keeps i h) : Keeps i (opI3cPrivateRead count h) :=
  .ite k (.emit (.upd k))

theorem Keeps.opImageSnapshot (k : Keeps i h) : Keeps i (opImageSnapshot h) := .ite k (.noteIbi (.upd k))

theorem Keeps.opIbiAccepted (k : Keeps i h) : Keeps i (opIbiAccepted h) := by
  dsimp only [Machine.opIbiAccepted]
  split
  · exact .emit (.upd k)
  · exact k

/-! ### The Debug Port and the TAP -/

theorem Keeps.acked {n} (k : Keeps i h) : Keeps i (h.acked n) := .ite k (.upd k)

theorem Keeps.takeAck {n} (k : Keeps i h) : Keeps i (h.takeAck n) := .pump (.acked k)

theorem Keeps.sendNak (k : Keeps i h) : Keeps i h.sendNak := by
  dsimp only [Hub.sendNak]
  split
  · exact .ite k (.emit (.upd k))
  · exact .emit (.upd k)

theorem Keeps.badFrame (k : Keeps i h) : Keeps i h.badFrame := .sendNak (.upd k)

theorem Keeps.resendAll (k : Keeps i h) : Keeps i h.resendAll := .foldl (.upd k) fun _ _ k => .emit k

theorem Keeps.frameSeen (k : Keeps i h) : Keeps i h.frameSeen := .upd k

theorem Keeps.frameTaken (k : Keeps i h) : Keeps i h.frameTaken := .wake (.frameSeen k)

theorem Keeps.opAckFrame {bytes} (k : Keeps i h) : Keeps i (opAckFrame bytes h) := by
  dsimp only [Machine.opAckFrame]
  refine .ite k ?_
  split
  · exact .badFrame (.frameSeen k)
  · exact .ite (.badFrame (.frameSeen k)) (.ite (.takeAck (.frameTaken k)) (.sendNak (.frameTaken k)))

theorem Keeps.opNakFrame {bytes} (k : Keeps i h) : Keeps i (opNakFrame bytes h) := by
  dsimp only [Machine.opNakFrame]
  refine .ite k ?_
  split
  · exact .badFrame (.frameSeen k)
  · exact .ite (.badFrame (.frameSeen k)) (.ite (.pump (.resendAll (.acked (.frameTaken k))))
      (.sendNak (.frameTaken k)))

theorem Keeps.opAckTimer (k : Keeps i h) : Keeps i (opAckTimer h) := by
  dsimp only [Machine.opAckTimer]
  split
  · exact .ite (.emit (.upd k)) k
  · exact k

theorem Keeps.opResendTimeout (k : Keeps i h) : Keeps i (opResendTimeout h) := by
  dsimp only [Machine.opResendTimeout]
  split
  · exact .ite (.resendAll k) k
  · exact k

theorem Keeps.leaveUp {lane} (k : Keeps i h) : Keeps i (h.leaveUp lane) := .upd (.leaveTransport k)

theorem Keeps.opLinkRetrainRequest (k : Keeps i h) : Keeps i (opLinkRetrainRequest h) := .ite (.emit (.leaveUp k)) k

theorem Keeps.startTraining (k : Keeps i h) : Keeps i h.startTraining := .powerDomains (.upd k)

theorem Keeps.opSignalDetect (k : Keeps i h) : Keeps i (opSignalDetect h) :=
  .ite k (.ite (.startTraining k) (.upd k))

theorem Keeps.trainingOver (k : Keeps i h) : Keeps i h.trainingOver := .domainsOff (.upd k)

theorem Keeps.opTrainingComplete (k : Keeps i h) : Keeps i (opTrainingComplete h) :=
  .ite (.ite (.trainingOver k) (.upd (.leaveTransport k))) k

theorem Keeps.opTrainingTimeout (k : Keeps i h) : Keeps i (opTrainingTimeout h) := .ite (.trainingOver k) k

theorem Keeps.opBlockLockLoss (k : Keeps i h) : Keeps i (opBlockLockLoss h) := .ite (.leaveUp k) k

theorem Keeps.opLaneIdleTimeout (k : Keeps i h) : Keeps i (opLaneIdleTimeout h) := .ite (.domainsOff (.leaveUp k)) k

theorem Keeps.opTestLogicReset (k : Keeps i h) : Keeps i (opTestLogicReset h) := .upd k

theorem Keeps.scanIr {ir} (k : Keeps i h) : Keeps i (h.scanIr ir) := by
  dsimp only [Hub.scanIr]
  split
  · exact k
  · exact .emit (.upd k)

theorem Keeps.captureStatus (k : Keeps i h) : Keeps i h.captureStatus := .emit (.upd k)

theorem Keeps.captureDr (k : Keeps i h) : Keeps i h.captureDr := by
  dsimp only [Hub.captureDr]
  split
  · exact .emit k
  · exact .emit k
  · exact .captureStatus k
  · split <;> exact .emit k

theorem Keeps.opIcpStatusCapture (k : Keeps i h) : Keeps i (opIcpStatusCapture h) := .ite (.captureDr k) k

theorem Keeps.deliverWord (k : Keeps i h) : Keeps i h.deliverWord := by
  dsimp only [Hub.deliverWord]
  split
  · exact .emit k
  · exact .emit (.fillJtag (.upd k))

theorem Keeps.opReplyAbandoned (k : Keeps i h) : Keeps i (opReplyAbandoned h) := by
  dsimp only [Machine.opReplyAbandoned]
  split
  · exact .ite (.upd k) k
  · exact k

/-! ### Time and sighting -/

theorem Keeps.opPllLock (k : Keeps i h) : Keeps i (opPllLock h) := .ite k (.upd k)

theorem Keeps.pllLost (k : Keeps i h) : Keeps i h.pllLost := .upd k

theorem Keeps.opPllUnlock (k : Keeps i h) : Keeps i (opPllUnlock h) := .raiseLine (.upd (.pllLost k))

theorem Keeps.opReferenceLoss (k : Keeps i h) : Keeps i (opReferenceLoss h) := .raiseLine (.upd k)

theorem Keeps.opReferenceReturn (k : Keeps i h) : Keeps i (opReferenceReturn h) := .ite k (.upd k)

theorem Keeps.opTimeGet {hdr} (k : Keeps i h) : Keeps i (opTimeGet hdr h) := .icp k fun _ k => .ok k

theorem Keeps.opSightStart {hdr round base} (k : Keeps i h) : Keeps i (opSightStart hdr round base h) :=
  .icp k fun _ k => .ite (.badState k) (.ite (.badArg k) (.ite (.badArg k) (.ok (.upd k))))

theorem Keeps.opSightReset {hdr} (k : Keeps i h) : Keeps i (opSightReset hdr h) := .icp k fun _ k => .ok (.upd k)

theorem Keeps.setResidual {l r} (k : Keeps i h) : Keeps i (h.setResidual l r) := .upd k

theorem Keeps.opSightStatus {hdr} (k : Keeps i h) : Keeps i (opSightStatus hdr h) := .icp k fun _ k => .ok k

theorem Keeps.sendOffers (k : Keeps i h) : Keeps i h.sendOffers := .ctlAll k

theorem Keeps.commitSight {step} (k : Keeps i h) : Keeps i (h.commitSight step) :=
  .sendOffers (.foldl (.upd k) fun _ _ k => .setCollector k)

theorem Keeps.opSightOffset {link m} (k : Keeps i h) : Keeps i (opSightOffset link m h) :=
  .ite k (.ite (.wakeWork k) (.upd (.wakeWork k)))

theorem Keeps.opSightProbe {link m t2 t3} (k : Keeps i h) : Keeps i (opSightProbe link m t2 t3 h) :=
  .ite k (.emit k)

theorem Keeps.opProbeSendDue {t1} (k : Keeps i h) : Keeps i (opProbeSendDue t1 h) := by
  dsimp only [Machine.opProbeSendDue]
  split
  · exact k
  · exact .ite k (.emit (.upd k))

theorem Keeps.residualDone {l r} (k : Keeps i h) : Keeps i (h.residualDone l r) := by
  dsimp only [Hub.residualDone]
  split
  · exact k
  · exact .ite (.raise (.setResidual k)) (.setResidual k)

theorem Keeps.opSightEcho {link m t4} (k : Keeps i h) : Keeps i (opSightEcho link m t4 h) := by
  dsimp only [Machine.opSightEcho]
  refine .ite k (.ite ?_ ?_)
  · split
    · exact k
    · exact .ite k (.ite (.setResidual k) (.ite (.setResidual k) (.residualDone k)))
  · split
    · exact k
    · exact .ite k (.ite (.upd k) (.upd k))

theorem Keeps.opEchoTimeout (k : Keeps i h) : Keeps i (opEchoTimeout h) := .upd k

theorem Keeps.opSightStep (k : Keeps i h) : Keeps i (opSightStep h) := by
  dsimp only [Machine.opSightStep]
  split
  · exact .ite k (.probeSteppedPast (.commitSight (.upd k)))
  · exact k

theorem Keeps.sendCheck {link t1 r} (k : Keeps i h) : Keeps i (h.sendCheck link t1 r) := .emit (.setResidual k)

theorem Keeps.opResidualCheck {link t1} (k : Keeps i h) : Keeps i (opResidualCheck link t1 h) :=
  .ite (.sendCheck k) k

theorem Keeps.opResidualRetry {link t1} (k : Keeps i h) : Keeps i (opResidualRetry link t1 h) := by
  dsimp only [Machine.opResidualRetry]
  split
  · exact k
  · exact .ite k (.ite (.setResidual k) (.sendCheck k))

theorem Keeps.opForeignMessage {msgType} (k : Keeps i h) : Keeps i (opForeignMessage msgType h) := .ite k (.upd k)

/-! ### Packets as they arrive -/

theorem Keeps.runIcp {j m} (k : Keeps i h) : Keeps i (runIcp j m h).1 := by
  dsimp only [Machine.runIcp]
  split
  · exact .pair₁ (.opIdentify k)
  · exact .pair₁ (.opSessionChallenge k)
  · exact .pair₁ (.opSessionOpen k)
  · exact .pair₁ (.opSessionClose k)
  · exact .pair₁ (.opIdentityCert k)
  · exact .pair₁ (.opHubStatus k)
  · exact .pair₁ (.opUnitStatus k)
  · exact .pair₁ (.opChipIdSet k)
  · exact .pair₁ (.opRetiredMapGet k)
  · exact .pair₁ (.opSafeRecordGet k)
  · exact .pair₁ (.opTimeGet k)
  · exact .pair₁ (.opSightStart k)
  · exact .pair₁ (.opSightReset k)
  · exact .pair₁ (.opSightStatus k)
  · exact .pair₁ (.opDeclareHang k)
  · exact .pair₁ (.opHangStop k)
  · exact .pair₁ (.opStopCancel k)
  · exact .pair₁ (.opHangStatus k)
  · exact .pair₁ (.opHangClear k)
  · exact .pair₁ (.opStepCycles k)
  · exact .pair₁ (.opStepCommand k)
  · exact .pair₁ (.opResume k)
  · exact .pair₁ (.opInspectRead k)
  · exact .pair₁ (.opInspectWrite k)
  · exact .pair₁ (.opDumpRegionSet k)
  · exact .opDump k
  · exact .pair₁ (.opDumpStatus k)
  · exact .pair₁ (.opDumpFetch k)
  · exact .pair₁ (.opDumpImageRegister k)
  · exact .pair₁ (.opDumpImageRemove k)
  · exact .pair₁ (.opDumpImageList k)
  · exact .pair₁ (.opTraceRegionSet k)
  · exact .pair₁ (.opTraceConfig k)
  · exact .pair₁ (.opTraceRestart k)
  · exact .pair₁ (.opTraceTrigger k)
  · exact .pair₁ (.opTraceMark k)
  · exact .opTraceQuery k
  · exact .pair₁ (.opTraceStatus k)
  · exact .pair₁ (.opCounterRead k)
  · exact .pair₁ (.opCounterAggregate k)
  · exact .pair₁ (.opCounterFreeze k)
  · exact .pair₁ (.opCounterSnapshotRead k)
  · exact .pair₁ (.opCounterClear k)
  · exact .pair₁ (.opSoundingSet k)
  · exact .pair₁ (.opSoundingClear k)
  · exact .pair₁ (.opSoundingKey k)
  · exact .pair₁ (.opSoundingRead k)
  · exact .pair₁ (.opSoundingStatus k)
  · exact .pair₁ (.opReplay k)
  · exact .pair₁ (.opReplayStatus k)
  · exact .pair₁ (.opProbeLoad k)
  · exact .pair₁ (.opProbeStart k)
  · exact .pair₁ (.opProbeStop k)
  · exact .pair₁ (.opProbeStatus k)
  · exact .pair₁ (.opFaultConfig k)
  · exact .pair₁ (.opFaultRead k)
  · exact .pair₁ (.opFaultAck k)
  · exact .pair₁ (.opFaultHistoryRead k)
  · exact .pair₁ (.opFaultInject k)
  · exact .pair₁ (.opTaintDestSet k)
  · exact .pair₁ (.opTaintEpochSet k)
  · exact .pair₁ (.opUnitRetire k)
  · exact .pair₁ (.opPatternLoad k)
  · exact .pair₁ (.opPatternRemove k)
  · exact .pair₁ (.opPatternList k)
  · exact .pair₁ (.opPatternKeyRegister k)
  · exact .pair₁ (.opPatternKeyRevoke k)
  · exact .opRunPatterns k
  · exact .pair₁ (.opPatternResults k)
  · exact .pair₁ (.opPatternResultsClear k)
  · exact .pair₁ (.opCandidateList k)
  · exact .pair₁ (.opCandidateExport k)
  · exact .pair₁ (.opCandidateRemove k)
  · exact .pair₁ (.opRedundancyStatus k)
  · exact .pair₁ (.opStandbyResync k)
  · exact .pair₁ (.opActiveRelease k)
  · exact .pair₁ (.opLifecycleGet k)
  · exact .pair₁ (.opLifecycleAdvance k)
  · exact .pair₁ (.opRoleKeyProgram k)
  · exact .pair₁ (.opFirmwareInfo k)
  · exact .pair₁ (.opFirmwareWrite k)
  · exact .pair₁ (.opRegRead k)
  · exact .pair₁ (.opRegWrite k)
  · exact k

theorem Keeps.malformed {code hdr} (k : Keeps i h) : Keeps i (h.malformed code hdr) := by
  have w : Keeps i (h.touch hdr.session).wake.working := .working (.wake (.touch k))
  dsimp only [Hub.malformed]
  split
  · exact .answer w
  · exact .answer (.ite (.upd (.ite (.upd w) w)) (.ite (.upd w) w))

theorem Keeps.argFault {code hdr o} (k : Keeps i h) : Keeps i (h.argFault code hdr o) := .badArg (.ite (.upd k) k)

theorem Keeps.takePacket {m bytes} (k : Keeps i h) : Keeps i (h.takePacket m bytes).1 := by
  dsimp only [Hub.takePacket]
  refine .ite₁ (.upd k) ?_
  split
  · exact .ite (.malformed k) k
  · refine .ite₁ (.ite (.malformed k) k) ?_
    split
    · exact .runIcp k
    · exact .icp k fun _ k => .argFault k

theorem Keeps.opPacketReceived {transport bytes m} (k : Keeps i h) :
    Keeps i (opPacketReceived transport bytes m h).1 := .ite₁ (.ite (.upd k) k) (.ite₁ (.upd k) (.takePacket k))

theorem Keeps.opDataFrame {bytes m} (k : Keeps i h) : Keeps i (opDataFrame bytes m h).1 := by
  dsimp only [Machine.opDataFrame]
  refine .ite₁ k ?_
  split
  · exact .badFrame (.frameSeen k)
  · exact .ite₁ (.badFrame (.frameSeen k)) (.ite₁ (.sendNak (.frameTaken k))
      (.ite₁ (.upd (.takeAck (.upd (.frameTaken k)))) (.takePacket (.takeAck (.upd (.frameTaken k))))))

theorem Keeps.takeWord {m w} (k : Keeps i h) : Keeps i (h.takeWord m w).1 :=
  .ite₁ (.upd k) (.ite₁ (.upd k) (.ite₁ (.upd k) (.takePacket (.upd k))))

theorem Keeps.updateData {valid word m} (k : Keeps i h) : Keeps i (h.updateData valid word m).1 :=
  .ite₁ (.deliverWord k) (.ite₁ (.upd (.deliverWord k)) (.takeWord (.deliverWord k)))

theorem Keeps.opIcpDataUpdate {ir scan m} (k : Keeps i h) : Keeps i (opIcpDataUpdate ir scan m h).1 := by
  dsimp only [Machine.opIcpDataUpdate]
  refine .ite₁ k ?_
  split
  · exact .scanIr k
  · exact .ite₁ (.updateData (.scanIr k)) (.captureDr (.scanIr k))

/-! ### Power domains, resets and start-up -/

theorem Keeps.dcnLost {s} (k : Keeps i h) : Keeps i (h.dcnLost s) := .upd k

theorem Keeps.collectorsLost {s} (k : Keeps i h) : Keeps i (h.collectorsLost s) :=
  .foldl k fun _ _ k => .setCollector k

theorem Keeps.storeLost (k : Keeps i h) : Keeps i h.storeLost := .upd k

theorem Keeps.domainLost {d} (k : Keeps i h) : Keeps i (h.domainLost d) := by
  dsimp only [Hub.domainLost]
  split
  · exact .dcnLost k
  · exact .dcnLost k
  · exact .collectorsLost k
  · exact .collectorsLost k
  · exact .storeLost k
  · exact .pllLost k
  · exact k

theorem Keeps.opDomainPowerOff {domain} (k : Keeps i h) : Keeps i (opDomainPowerOff domain h) :=
  .ite (.domainsOff (.foldl k fun _ _ k => .domainLost k)) k

theorem Keeps.opLowSpeedEntry {side} (k : Keeps i h) : Keeps i (opLowSpeedEntry side h) := .ite (.setCtrl k) k

theorem Keeps.resetHub (k : Keeps i h) : Keeps i h.resetHub :=
  .upd (.upd (.allCollectors (.restartStreams (.setGate (.upd (.upd (.upd (.upd
    (.domainsOff (.storeLost (.pllLost (.dcnLost (.dcnLost k)))))))))))))

theorem Keeps.requestDrops (k : Keeps i h) : Keeps i h.requestDrops := .foldl (.upd k) fun _ _ k => .requestDrop k

theorem Keeps.safeAgain (k : Keeps i h) : Keeps i h.safeAgain := .ite k (.enterSafe k)

theorem Keeps.opHubReset (k : Keeps i h) : Keeps i (opHubReset h) :=
  .noteIbi (.safeAgain (.ite (.resetHub k) (.requestDrops (.resetHub k))))

theorem Keeps.resetUnit {u} (k : Keeps i h) : Keeps i (h.resetUnit u) := .setAgent k

theorem Keeps.stopsEnd (k : Keeps i h) : Keeps i h.stopsEnd := .upd k

theorem Keeps.pendingProceed (k : Keeps i h) : Keeps i h.pendingProceed :=
  .requestDrops (.foldl (.upd k) fun _ _ k => .retireNow k)

theorem Keeps.opHubResetOfTheChip (k : Keeps i h) : Keeps i (opHubResetOfTheChip h) :=
  .noteIbi (.safeAgain (.pendingProceed (.foldl (.upd (.ite (.feRequest (.stopsEnd (.resetHub k)))
    (.stopsEnd (.resetHub k)))) fun _ _ k => .resetUnit k)))

theorem Keeps.opRomVerification (k : Keeps i h) : Keeps i (opRomVerification h) :=
  .ite k (.ite (.wake (.upd k)) (.upd k))

theorem Keeps.enumerate (k : Keeps i h) : Keeps i h.enumerate :=
  .upd (.foldl (.injectAll k) fun _ _ k => .wrongEnum k)

theorem Keeps.opDcnEnumeration (k : Keeps i h) : Keeps i (opDcnEnumeration h) :=
  .ite k (.enumerate (.upd (.foldl (.withIdent (Ident.KeptIn.foldl_retire k)) fun _ _ k => .emit (.unitGone k))))

theorem Keeps.opReady (k : Keeps i h) : Keeps i (opReady h) :=
  .ite k (.ite (.powerDomains (.ite (.startTraining (.upd k)) (.upd k))) (.ite (.startTraining (.upd k)) (.upd k)))

theorem Keeps.opSramScrub {structureNumber uncorrectable} (k : Keeps i h) :
    Keeps i (opSramScrub structureNumber uncorrectable h) := by
  dsimp only [Machine.opSramScrub]
  refine .ite k (.ite (.raise k) ?_)
  refine .ite (.raise (.modAgent (.drawFree k))) (.raise ?_)
  split
  · exact .withdraw k
  · exact k

/-! ### What happens of itself -/

theorem Keeps.startRound {old p} (k : Keeps i h) : Keeps i (h.startRound old p) :=
  .probeSteppedPast (.commitSight (.upd k))

theorem Keeps.atEdge (k : Keeps i h) : Keeps i h.atEdge := by
  dsimp only [Hub.atEdge]
  split
  · exact .ite (.startRound (.upd k)) (.upd k)
  · exact .upd k

theorem Keeps.nanosecond (k : Keeps i h) : Keeps i h.nanosecond := .ite (.upd k) (.atEdge k)

theorem Keeps.noteAway (k : Keeps i h) : Keeps i h.noteAway := by
  dsimp only [Hub.noteAway]
  split
  · exact .ite k (.upd k)
  · exact k

theorem Keeps.confirmProbeFreeze (k : Keeps i h) : Keeps i h.confirmProbeFreeze := by
  dsimp only [Hub.confirmProbeFreeze]
  split
  · exact .collect (.upd k)
  · exact k

theorem Keeps.noteArrays (k : Keeps i h) : Keeps i h.noteArrays := .upd k

theorem Keeps.confirmations (k : Keeps i h) : Keeps i h.confirmations :=
  .confirmProbeFreeze (.confirmFreeze (.confirmResume (.confirmCycles (.confirmStop k))))

theorem Keeps.completions (k : Keeps i h) : Keeps i h.completions :=
  .completeFreeze (.completeCommandStep (.completeCycles k))

theorem Keeps.postings (k : Keeps i h) : Keeps i h.postings := .foldl k fun _ _ k => .issueWords k

theorem Keeps.keepAwake (k : Keeps i h) : Keeps i h.keepAwake := .ite (.atWork (.ite (.upd k) k)) (.ite (.upd k) k)

theorem Keeps.engines {m} (k : Keeps i h) : Keeps i (h.engines m).1 :=
  .patternLost (.dumpStep (.queryStep (.launchHeld k)))

theorem Keeps.heldWrites (k : Keeps i h) : Keeps i h.heldWrites := .foldl k fun _ _ k => .performHeld k

theorem Keeps.tick {m} (k : Keeps i h) : Keeps i (h.tick m).1 :=
  .engines (.keepAwake (.heldWrites (.postings (.clearReplays
    (.requestReplay (.otpStep (.completions (.confirmations (.noteArrays (.noteAway (.nanosecond k)))))))))))

/-! ### Every step -/

/-- What every next state of an outcome still has. -/
def KeptBy (i : Ident) (o : Host.Outcome State Fault Refusal) : Prop := ∀ t, o = .next t → Keeps i t.hub

theorem KeptBy.next {pending mem} (k : Keeps i h) : KeptBy i (.next ⟨pending, h, mem⟩) := by
  intro t e
  cases e
  exact k

/-- No command but AO_POWER_ON takes the identity back. -/
theorem Keeps.exec {s : State} (k : Keeps i s.hub) (c : Instr) (n : c ≠ .aoPowerOn) : KeptBy i (exec c s) := by
  cases c with
  | identify => exact .next (.opIdentify k)
  | sessionChallenge => exact .next (.opSessionChallenge k)
  | sessionOpen => exact .next (.opSessionOpen k)
  | sessionClose => exact .next (.opSessionClose k)
  | identityCert => exact .next (.opIdentityCert k)
  | hubStatus => exact .next (.opHubStatus k)
  | unitStatus => exact .next (.opUnitStatus k)
  | chipIdSet => exact .next (.opChipIdSet k)
  | retiredMapGet => exact .next (.opRetiredMapGet k)
  | safeRecordGet => exact .next (.opSafeRecordGet k)
  | timeGet => exact .next (.opTimeGet k)
  | sightStart => exact .next (.opSightStart k)
  | sightReset => exact .next (.opSightReset k)
  | sightStatus => exact .next (.opSightStatus k)
  | declareHang => exact .next (.opDeclareHang k)
  | hangStop => exact .next (.opHangStop k)
  | stopCancel => exact .next (.opStopCancel k)
  | hangStatus => exact .next (.opHangStatus k)
  | hangClear => exact .next (.opHangClear k)
  | stepCycles => exact .next (.opStepCycles k)
  | stepCommand => exact .next (.opStepCommand k)
  | resume => exact .next (.opResume k)
  | inspectRead => exact .next (.opInspectRead k)
  | inspectWrite => exact .next (.opInspectWrite k)
  | dumpRegionSet => exact .next (.opDumpRegionSet k)
  | dump => exact .next (.opDump k)
  | dumpStatus => exact .next (.opDumpStatus k)
  | dumpFetch => exact .next (.opDumpFetch k)
  | dumpImageRegister => exact .next (.opDumpImageRegister k)
  | dumpImageRemove => exact .next (.opDumpImageRemove k)
  | dumpImageList => exact .next (.opDumpImageList k)
  | traceRegionSet => exact .next (.opTraceRegionSet k)
  | traceConfig => exact .next (.opTraceConfig k)
  | traceRestart => exact .next (.opTraceRestart k)
  | traceTrigger => exact .next (.opTraceTrigger k)
  | traceMark => exact .next (.opTraceMark k)
  | traceQuery => exact .next (.opTraceQuery k)
  | traceStatus => exact .next (.opTraceStatus k)
  | counterRead => exact .next (.opCounterRead k)
  | counterAggregate => exact .next (.opCounterAggregate k)
  | counterFreeze => exact .next (.opCounterFreeze k)
  | counterSnapshotRead => exact .next (.opCounterSnapshotRead k)
  | counterClear => exact .next (.opCounterClear k)
  | soundingSet => exact .next (.opSoundingSet k)
  | soundingClear => exact .next (.opSoundingClear k)
  | soundingKey => exact .next (.opSoundingKey k)
  | soundingRead => exact .next (.opSoundingRead k)
  | soundingStatus => exact .next (.opSoundingStatus k)
  | replay => exact .next (.opReplay k)
  | replayStatus => exact .next (.opReplayStatus k)
  | probeLoad => exact .next (.opProbeLoad k)
  | probeStart => exact .next (.opProbeStart k)
  | probeStop => exact .next (.opProbeStop k)
  | probeStatus => exact .next (.opProbeStatus k)
  | faultConfig => exact .next (.opFaultConfig k)
  | faultRead => exact .next (.opFaultRead k)
  | faultAck => exact .next (.opFaultAck k)
  | faultHistoryRead => exact .next (.opFaultHistoryRead k)
  | faultInject => exact .next (.opFaultInject k)
  | taintDestSet => exact .next (.opTaintDestSet k)
  | taintEpochSet => exact .next (.opTaintEpochSet k)
  | unitRetire => exact .next (.opUnitRetire k)
  | patternLoad => exact .next (.opPatternLoad k)
  | patternRemove => exact .next (.opPatternRemove k)
  | patternList => exact .next (.opPatternList k)
  | patternKeyRegister => exact .next (.opPatternKeyRegister k)
  | patternKeyRevoke => exact .next (.opPatternKeyRevoke k)
  | runPatterns => exact .next (.opRunPatterns k)
  | patternResults => exact .next (.opPatternResults k)
  | patternResultsClear => exact .next (.opPatternResultsClear k)
  | candidateList => exact .next (.opCandidateList k)
  | candidateExport => exact .next (.opCandidateExport k)
  | candidateRemove => exact .next (.opCandidateRemove k)
  | redundancyStatus => exact .next (.opRedundancyStatus k)
  | standbyResync => exact .next (.opStandbyResync k)
  | activeRelease => exact .next (.opActiveRelease k)
  | lifecycleGet => exact .next (.opLifecycleGet k)
  | lifecycleAdvance => exact .next (.opLifecycleAdvance k)
  | roleKeyProgram => exact .next (.opRoleKeyProgram k)
  | firmwareInfo => exact .next (.opFirmwareInfo k)
  | firmwareWrite => exact .next (.opFirmwareWrite k)
  | regRead => exact .next (.opRegRead k)
  | regWrite => exact .next (.opRegWrite k)
  | wdogStatusWrite => exact .next (.opWdogStatusWrite k)
  | wdogLimitWrite => exact .next (.opWdogLimitWrite k)
  | clearQueues => exact .next (.opClearQueues k)
  | shadowKeepWrite => exact .next (.opShadowKeepWrite k)
  | fcCfgWrite => exact .next (.opFcCfgWrite k)
  | packetReceived => exact .next (.opPacketReceived k)
  | dataFrame => exact .next (.opDataFrame k)
  | ackFrame => exact .next (.opAckFrame k)
  | nakFrame => exact .next (.opNakFrame k)
  | ackTimer => exact .next (.opAckTimer k)
  | resendTimeout => exact .next (.opResendTimeout k)
  | linkRetrainRequest => exact .next (.opLinkRetrainRequest k)
  | signalDetect => exact .next (.opSignalDetect k)
  | trainingComplete => exact .next (.opTrainingComplete k)
  | trainingTimeout => exact .next (.opTrainingTimeout k)
  | blockLockLoss => exact .next (.opBlockLockLoss k)
  | laneIdleTimeout => exact .next (.opLaneIdleTimeout k)
  | testLogicReset => exact .next (.opTestLogicReset k)
  | icpDataUpdate => exact .next (.opIcpDataUpdate k)
  | icpStatusCapture => exact .next (.opIcpStatusCapture k)
  | replyAbandoned => exact .next (.opReplyAbandoned k)
  | entdaa => exact .next (.opEntdaa k)
  | setdasa => exact .next (.opSetdasa k)
  | rstdaa => exact .next (.opRstdaa k)
  | enec => exact .next (.opEnec k)
  | disec => exact .next (.opDisec k)
  | getstatus => exact .next (.opGetstatus k)
  | getpid => exact .next (.opGetpid k)
  | getbcr => exact .next (.opGetbcr k)
  | getdcr => exact .next (.opGetdcr k)
  | getmwl => exact .next (.opGetmwl k)
  | getmrl => exact .next (.opGetmrl k)
  | i3cPrivateWrite => exact .next (.opI3cPrivateWrite k)
  | i3cPrivateRead => exact .next (.opI3cPrivateRead k)
  | wake => exact .next (.opWake k)
  | imageSnapshot => exact .next (.opImageSnapshot k)
  | ibiAccepted => exact .next (.opIbiAccepted k)
  | podTrigInEdge => exact .next (.opPodTrigInEdge k)
  | podTrigOutPulse => exact .next (.opPodTrigOutPulse k)
  | pllLock => exact .next (.opPllLock k)
  | pllUnlock => exact .next (.opPllUnlock k)
  | referenceLoss => exact .next (.opReferenceLoss k)
  | referenceReturn => exact .next (.opReferenceReturn k)
  | sightOffset => exact .next (.opSightOffset k)
  | sightProbe => exact .next (.opSightProbe k)
  | sightEcho => exact .next (.opSightEcho k)
  | echoTimeout => exact .next (.opEchoTimeout k)
  | probeSendDue => exact .next (.opProbeSendDue k)
  | sightStep => exact .next (.opSightStep k)
  | residualCheck => exact .next (.opResidualCheck k)
  | residualRetry => exact .next (.opResidualRetry k)
  | foreignMessage => exact .next (.opForeignMessage k)
  | podStop => exact .next (.opPodStop k)
  | flitReceived => exact .next (.opFlitReceived k)
  | linkControlFlit => exact .next (.opLinkControlFlit k)
  | linkDown => exact .next (.opLinkDown k)
  | linkRetrain => exact .next (.opLinkRetrain k)
  | linkNotice => exact .next (.opLinkNotice k)
  | routeRestore => exact .next (.opRouteRestore k)
  | bcastAccept => exact .next (.opBcastAccept k)
  | stopInstant => exact .next (.opStopInstant k)
  | captureComplete => exact .next (.opCaptureComplete k)
  | cutMarkerArrival => exact .next (.opCutMarkerArrival k)
  | checkerClose => exact .next (.opCheckerClose k)
  | stopComplete => exact .next (.opStopComplete k)
  | stepInstant => exact .next (.opStepInstant k)
  | cycleStepEnd => exact .next (.opCycleStepEnd k)
  | commandStepEnd => exact .next (.opCommandStepEnd k)
  | resumeInstant => exact .next (.opResumeInstant k)
  | commitInstant => exact .next (.opCommitInstant k)
  | collectReceived => exact .next (.opCollectReceived k)
  | combineReceived => exact .next (.opCombineReceived k)
  | combineTimeout => exact .next (.opCombineTimeout k)
  | combineResult => exact .next (.opCombineResult k)
  | regAccess => exact .next (.opRegAccess k)
  | bulkRead => exact .next (.opBulkRead k)
  | bulkWrite => exact .next (.opBulkWrite k)
  | accessTimeout => exact .next (.opAccessTimeout k)
  | multicastComplete => exact .next (.opMulticastComplete k)
  | enumProbe => exact .next (.opEnumProbe k)
  | noticeSend => exact .next (.opNoticeSend k)
  | unitPowerOn => exact .next (.opUnitPowerOn k)
  | replicaLoad => exact .next (.opReplicaLoad k)
  | partitionChange => exact .next (.opPartitionChange k)
  | powerDownRequest => exact .next (.opPowerDownRequest k)
  | unitPowerOff => exact .next (.opUnitPowerOff k)
  | emergencyPowerOff => exact .next (.opEmergencyPowerOff k)
  | unitEvent => exact .next (.opUnitEvent k)
  | watchdogExpiry => exact .next (.opWatchdogExpiry k)
  | watchdogNotice => exact .next (.opWatchdogNotice k)
  | counterPush => exact .next (.opCounterPush k)
  | freezeInstant => exact .next (.opFreezeInstant k)
  | arrayProvisional => exact .next (.opArrayProvisional k)
  | taggedPush => exact .next (.opTaggedPush k)
  | arrayFinalize => exact .next (.opArrayFinalize k)
  | traceRecord => exact .next (.opTraceRecord k)
  | gapClose => exact .next (.opGapClose k)
  | lineWrite => exact .next (.opLineWrite k)
  | periodicFix => exact .next (.opPeriodicFix k)
  | triggerInstant => exact .next (.opTriggerInstant k)
  | collectorWake => exact .next (.opCollectorWake k)
  | sourceClosed => exact .next (.opSourceClosed k)
  | writebackBeat => exact .next (.opWritebackBeat k)
  | postingInstant => exact .next (.opPostingInstant k)
  | postingEdge => exact .next (.opPostingEdge k)
  | postingWrite => exact .next (.opPostingWrite k)
  | reissueEnd => exact .next (.opReissueEnd k)
  | frontEndAnswer => exact .next (.opFrontEndAnswer k)
  | frontEndTimeout => exact .next (.opFrontEndTimeout k)
  | probeEvaluation => exact .next (.opProbeEvaluation k)
  | waitptResume => exact .next (.opWaitptResume k)
  | probeTimer => exact .next (.opProbeTimer k)
  | probeAction => exact .next (.opProbeAction k)
  | faultEvent => exact .next (.opFaultEvent k)
  | pendingRetirement => exact .next (.opPendingRetirement k)
  | keystoneFault => exact .next (.opKeystoneFault k)
  | notifyTimeout => exact .next (.opNotifyTimeout k)
  | reactionWindowClose => exact .next (.opReactionWindowClose k)
  | faultCleared => exact .next (.opFaultCleared k)
  | supplyExcursion => exact .next (.opSupplyExcursion k)
  | vddAoResetLevel => exact .next (.opVddAoResetLevel k)
  | aoPowerOn => exact absurd rfl n
  | fastClockLoss => exact .next (.opFastClockLoss k)
  | portConfinement => exact .next (.opPortConfinement k)
  | taintSend => exact .next (.opTaintSend k)
  | heartbeatSend => exact .next (.opHeartbeatSend k)
  | heartbeatReceived => exact .next (.opHeartbeatReceived k)
  | keystoneDecision => exact .next (.opKeystoneDecision k)
  | grantWord => exact .next (.opGrantWord k)
  | stageAccess => exact .next (.opStageAccess k)
  | syncChange => exact .next (.opSyncChange k)
  | syncAckTimeout => exact .next (.opSyncAckTimeout k)
  | resyncComplete => exact .next (.opResyncComplete k)
  | resyncTimeout => exact .next (.opResyncTimeout k)
  | resyncRetry => exact .next (.opResyncRetry k)
  | soloResyncComplete => exact .next (.opSoloResyncComplete k)
  | firmwareUp => exact .next (.opFirmwareUp k)
  | domainPowerOff => exact .next (.opDomainPowerOff k)
  | lowSpeedEntry => exact .next (.opLowSpeedEntry k)
  | hubReset => exact .next (.opHubReset k)
  | hubResetOfTheChip => exact .next (.opHubResetOfTheChip k)
  | controllerColdCycle => exact .next (.opControllerColdCycle k)
  | otpVote => exact .next (.opOtpVote k)
  | romVerification => exact .next (.opRomVerification k)
  | dcnEnumeration => exact .next (.opDcnEnumeration k)
  | ready => exact .next (.opReady k)
  | patternReload => exact .next (.opPatternReload k)
  | resultsMirror => exact .next (.opResultsMirror k)
  | challengeExpiry => exact .next (.opChallengeExpiry k)
  | sessionIdleTimeout => exact .next (.opSessionIdleTimeout k)
  | entropyFail => exact .next (.opEntropyFail k)
  | testGateFall => exact .next (.opTestGateFall k)
  | sramScrub => exact .next (.opSramScrub k)
  | unitPresenceChange => exact .next (.opUnitPresenceChange k)
  | opcodeBoundEnd => exact .next (.opOpcodeBoundEnd k)
  | peerHeartbeatMissed => exact .next (.opPeerHeartbeatMissed k)
  | runLimitExpiry => exact .next (.opRunLimitExpiry k)
  | markInstant => exact .next (.opMarkInstant k)

theorem Keeps.idle {s : State} (k : Keeps i s.hub) : KeptBy i s.idle := by
  dsimp only [State.idle]
  split
  next => exact fun _ e => nomatch e
  next => exact .next (.tick k)

/-- No step takes the identity back, unless AO_POWER_ON is at the front of the queue. -/
theorem Keeps.step {s : State} (k : Keeps i s.hub) (n : s.pending.head? ≠ some .aoPowerOn) : KeptBy i (step s) := by
  dsimp only [Machine.step]
  split
  next => exact .idle k
  next c rest e => exact .exec (s := { s with pending := rest }) k c fun p => n (by rw [e, p]; rfl)

end

/-- AO_POWER_ON leaves the chip without a Chip ID (R22). -/
theorem step_aoPowerOn_ident {s t : State} (front : s.pending.head? = some .aoPowerOn) (e : step s = .next t) :
    t.hub.ident = {} := by
  obtain ⟨rest, p⟩ := List.head?_eq_some_iff.1 front
  simp only [step, p] at e
  cases e
  rfl

/-! ### Held taint notices (R23, R330) -/

/-- Things put out one after another. -/
theorem Hub.foldl_emit {α : Type} (o : α → Out) (l : List α) (h : Hub) :
    l.foldl (fun h a => h.emit (o a)) h = { h with out := h.out ++ l.map o } := by
  induction l generalizing h with
  | nil => simp
  | cons a l ih => rw [List.foldl_cons, ih]; simp [Hub.emit]

/-- The hub `g` is `h` but for the fault collector, whose destinations stay, and for what has been put out since. -/
def Hub.sentFrom (h g : Hub) : Prop :=
  ∃ f l, g = { h with fc := f, out := h.out ++ l } ∧ f.dests = h.fc.dests

theorem Hub.sentFrom_refl (h : Hub) : h.sentFrom h := ⟨h.fc, [], by simp, rfl⟩

theorem Hub.sentFrom_trans {a b c : Hub} (x : a.sentFrom b) (y : b.sentFrom c) : a.sentFrom c := by
  obtain ⟨f, l, rfl, d⟩ := x
  obtain ⟨f', l', rfl, d'⟩ := y
  exact ⟨f', l ++ l', by simp, d'.trans d⟩

theorem Hub.sendTaint_sentFrom (h : Hub) (t : Taint) : h.sentFrom (h.sendTaint t) :=
  ⟨_, _, Hub.foldl_emit _ _ _, rfl⟩

theorem Hub.foldl_sendTaint_sentFrom (l : List Taint) (h : Hub) : h.sentFrom (l.foldl Hub.sendTaint h) := by
  induction l generalizing h with
  | nil => exact h.sentFrom_refl
  | cons t l ih => exact Hub.sentFrom_trans (h.sendTaint_sentFrom t) (ih _)

/-- The held notices go out, and nothing but them and the fault collector's account of them changes. -/
theorem Hub.releaseHeld_sentFrom (h : Hub) : h.sentFrom h.releaseHeld := by
  unfold Hub.releaseHeld
  split
  · exact h.sentFrom_refl
  · exact Hub.sentFrom_trans ⟨{ h.fc with heldTaints := [] }, [], by simp, rfl⟩ (Hub.foldl_sendTaint_sentFrom _ _)

/-! ### CHIP_ID_SET (R22) -/

/-- The hub as it has been given a Chip ID, before the held notices go out. -/
def Hub.withChipId (h : Hub) (c : W16) : Hub :=
  { h with ident := { h.ident with chipId := c, assigned := true }, fc.dests := h.fc.dests.filter fun d => d != c }

theorem exec_chipIdSet (s : State) (hdr : Hdr) (c : W16) :
    exec (.chipIdSet hdr c) s = .next { s with hub := opChipIdSet hdr c s.hub } := rfl

section
variable {h : Hub} {hdr : Hdr}

/-- CHIP_ID_SET on a hub that is not assigned. -/
theorem opChipIdSet_of_free (c : W16) (a : h.admits 0x0102 hdr = true) (free : h.ident.assigned = false) :
    opChipIdSet hdr c h = ((h.taken hdr).withChipId c).releaseHeld.answer 0x0102 hdr .ok [] := by
  have f : ¬ (h.taken hdr).ident.assigned = true := by simp [free]
  rw [opChipIdSet, h.icp_admits _ _ _ a, if_neg f]
  rfl

/-- CHIP_ID_SET with the Chip ID that the hub has. -/
theorem opChipIdSet_of_same (a : h.admits 0x0102 hdr = true) (set : h.ident.assigned = true) :
    opChipIdSet hdr h.ident.chipId h = (h.taken hdr).answer 0x0102 hdr .ok [] := by
  rw [opChipIdSet, h.icp_admits _ _ _ a, Hub.taken_ident, if_pos set, if_pos rfl]
  rfl

/-- CHIP_ID_SET with another one. -/
theorem opChipIdSet_of_other {c : W16} (a : h.admits 0x0102 hdr = true) (set : h.ident.assigned = true)
    (other : h.ident.chipId ≠ c) : opChipIdSet hdr c h = (h.taken hdr).answer 0x0102 hdr .badState [] := by
  rw [opChipIdSet, h.icp_admits _ _ _ a, Hub.taken_ident, if_pos set, if_neg other]
  rfl

end

/-- CHIP_ID_SET gives a chip without a Chip ID one, which is no destination of taint notices any more (R22, R330). -/
theorem chipIdSet_assigns {s : State} {hdr : Hdr} {c : W16} (a : s.hub.admits 0x0102 hdr = true)
    (free : s.hub.ident.assigned = false) :
    s.answers (.chipIdSet hdr c) 0x0102 hdr [.ident, .fc] [] fun h =>
      h.ident.assigned = true ∧ h.ident.chipId = c ∧ c ∉ h.fc.dests := by
  obtain ⟨f, l, e, d⟩ := ((s.hub.taken hdr).withChipId c).releaseHeld_sentFrom
  have o : (s.hub.taken hdr).out = s.hub.out := s.hub.taken_out hdr
  refine State.answers_intro ((s.hub.taken hdr).withChipId c).releaseHeld ?_ ?_ ⟨l, ?_⟩ ?_ ?_
  · rw [exec_chipIdSet, opChipIdSet_of_free c a free]
  · rw [e]
    exact s.hub.taken_sameReplies hdr
  · rw [e, ← o]
    rfl
  · rw [e]
    intro b n
    cases b
    case ident | fc | out => exact absurd (by decide) n
    all_goals rfl
  · rw [Hub.answer_ident, Hub.answer_fc, e]
    refine ⟨rfl, rfl, ?_⟩
    rw [d]
    simp [Hub.withChipId]

/-- Settles O3: every function of the hub keeps the retired units and an assigned Chip ID (the rules of `Keeps`), so
every step but AO_POWER_ON does; CHIP_ID_SET answers as the one branch that it takes. -/
theorem chipIdIsSetOnce : Obligations.ChipIdIsSetOnce := by
  unfold Obligations.ChipIdIsSetOnce
  intro s
  refine ⟨fun hdr c a => ⟨chipIdSet_assigns a, fun set same => ?_, fun set other => ?_⟩,
    fun t e => ⟨fun n => ?_, fun front => ?_⟩⟩
  · subst same
    exact State.answers_read (by rw [exec_chipIdSet, opChipIdSet_of_same a set])
  · exact State.refuses_intro (by rw [exec_chipIdSet, opChipIdSet_of_other a set other])
  · exact (Keeps.refl s.hub).step n t e
  · rw [step_aoPowerOn_ident front e]
    exact ⟨rfl, rfl⟩

end Sys2Proof.Machine

namespace Sys2Proof.Machine

/-! ### Words of FC_CFG (Table 13-9) -/

theorem cfgWord_toNat (nM1 wexp reaction : Nat) (taint : Bool) : (cfgWord nM1 wexp reaction taint).toNat =
    nM1 % 16 + wexp % 64 * 16 + reaction % 8 * 1024 + b2n taint * 8192 := by
  have t : b2n taint ≤ 1 := by cases taint <;> decide
  rw [cfgWord, BitVec.toNat_ofNat, Nat.mod_eq_of_lt (by omega)]

/-- A configuration word has no bit above TAINT. -/
@[simp] theorem cfgWord_and_mask (nM1 wexp reaction : Nat) (taint : Bool) :
    cfgWord nM1 wexp reaction taint &&& 0x3FFF = cfgWord nM1 wexp reaction taint := by
  have t : b2n taint ≤ 1 := by cases taint <;> decide
  apply BitVec.eq_of_toNat_eq
  rw [BitVec.toNat_and, show (0x3FFF : W32).toNat = 2 ^ 14 - 1 from rfl, Nat.and_two_pow_sub_one_eq_mod, cfgWord_toNat,
    Nat.mod_eq_of_lt (by omega)]

@[simp] theorem cfgWord_taint (nM1 wexp reaction : Nat) (taint : Bool) :
    (cfgWord nM1 wexp reaction taint).getLsbD 13 = taint := by
  have q : (cfgWord nM1 wexp reaction taint).toNat / 2 ^ 13 = b2n taint := by
    rw [cfgWord_toNat]
    omega
  rw [BitVec.getLsbD, Nat.testBit_eq_decide_div_mod_eq, q]
  cases taint <;> rfl

theorem cfgN_range (w : W32) : 1 ≤ cfgN w ∧ cfgN w ≤ 16 := by
  have b : bits w.toNat 3 0 < 16 := Nat.mod_lt _ (by decide)
  unfold cfgN
  omega

theorem cfgWexp_range (w : W32) : 10 ≤ cfgWexp w ∧ cfgWexp w ≤ 42 := by
  unfold cfgWexp
  omega

/-! ### A source's configuration -/

/-- A source as it reads after a write of one. -/
theorem Fc.source_setSource (f : Fc) (x y : Nat) (v : FcSource) :
    (f.setSource x v).source y = if y = x then v else f.source y :=
  mapGet_set _ _ _ _ _

section
variable {r : SourceRow}

/-- FC_CFG of a source of the catalogue. -/
theorem Fc.cfg_of_row {x : Nat} (row : sourceRow x = some r) (f : Fc) :
    f.cfg x = if r.fixed then cfgWord 0 10 4 (((f.source x).cfg.getD r.word).getLsbD 13)
      else (f.source x).cfg.getD r.word &&& 0x3FFF := by
  rw [Fc.cfg, row]
  rfl

/-- An entry sets the source that it lists, and no other. -/
theorem Fc.source_configure (f : Fc) (e : FaultEntry) (x : Nat) : (f.configure e).source x = if x = e.source.toNat
    then { f.source x with cfg := some (cfgWord e.nM1.toNat e.wexp.toNat e.reaction.toNat (e.taint == 1)), times := [] }
    else f.source x := by
  rw [Fc.configure, Fc.source_setSource]
  split
  next same => rw [same]
  next => rfl

/-- FC_CFG of a source after its entry: all that the entry gives, of a fixed source the taint alone. -/
theorem Fc.cfg_configure {e : FaultEntry} (row : sourceRow e.source.toNat = some r) (f : Fc) :
    (f.configure e).cfg e.source.toNat = if r.fixed then cfgWord 0 10 4 (e.taint == 1)
      else cfgWord e.nM1.toNat e.wexp.toNat e.reaction.toNat (e.taint == 1) := by
  rw [Fc.cfg_of_row row, Fc.source_configure, if_pos rfl]
  simp only [Option.getD_some, cfgWord_taint, cfgWord_and_mask]

theorem Fc.writeCfg_of_row {x : Nat} (row : sourceRow x = some r) (f : Fc) (v : W32) :
    f.writeCfg x v = f.setSource x { f.source x with cfg := some (v &&& 0x3FFF) } := by
  rw [Fc.writeCfg, row]

theorem Fc.writeCfg_of_reserved {x : Nat} (row : sourceRow x = none) (f : Fc) (v : W32) : f.writeCfg x v = f := by
  rw [Fc.writeCfg, row]

/-- FC_CFG of a source after a write of its word: of a fixed source, the taint bit alone is taken. -/
theorem Fc.cfg_writeCfg {x : Nat} (row : sourceRow x = some r) (f : Fc) (v : W32) :
    (f.writeCfg x v).cfg x = if r.fixed then cfgWord 0 10 4 (v.getLsbD 13) else v &&& 0x3FFF := by
  have taint : (v &&& 0x3FFF).getLsbD 13 = v.getLsbD 13 := by
    rw [BitVec.getLsbD_and, show (0x3FFF : W32).getLsbD 13 = true from rfl, Bool.and_true]
  have mask : v &&& 0x3FFF &&& 0x3FFF = v &&& 0x3FFF := by
    rw [BitVec.and_assoc, BitVec.and_self]
  rw [Fc.cfg_of_row row, Fc.writeCfg_of_row row, Fc.source_setSource, if_pos rfl, Option.getD_some, taint, mask]

/-- Another source is as before. -/
theorem Fc.source_writeCfg_other {x y : Nat} (other : y ≠ x) (f : Fc) (v : W32) :
    (f.writeCfg x v).source y = f.source y := by
  cases row : sourceRow x with
  | none => rw [Fc.writeCfg_of_reserved row]
  | some r => rw [Fc.writeCfg_of_row row, Fc.source_setSource, if_neg other]

end

/-! ### Entries of FAULT_CONFIG -/

/-- A chain of checks finds no fault where the first check passes and the rest find none. -/
theorem check_eq_none_iff {bad : Prop} [Decidable bad] {o : Nat} {rest : Option Nat} :
    (if bad then some o else rest) = none ↔ ¬ bad ∧ rest = none := by
  by_cases b : bad <;> simp [b]

/-- An entry is good where its number is in the catalogue and its fields are in range, of a fixed source the reaction
and the taint alone. -/
theorem entryFault_eq_none_iff (e : FaultEntry) : entryFault e = none ↔
    ∃ r, sourceRow e.source.toNat = some r ∧ e.taint.toNat ≤ 1 ∧
      if r.fixed then e.reaction = 4
      else e.nM1.toNat ≤ 15 ∧ 10 ≤ e.wexp.toNat ∧ e.wexp.toNat ≤ 42 ∧ e.reaction.toNat ∈ r.allowed := by
  cases row : sourceRow e.source.toNat with
  | none => simp [entryFault, row]
  | some r =>
    simp only [entryFault, row, Option.some.injEq, exists_eq_left']
    split
    next =>
      have four : e.reaction.toNat = 4 ↔ e.reaction = 4 := BitVec.toNat_inj (y := (4 : Byte))
      rw [check_eq_none_iff, check_eq_none_iff, Decidable.not_not, Nat.not_lt, four, eq_self, and_true]
      exact and_comm
    next =>
      simp only [check_eq_none_iff, not_or, Nat.not_lt, Bool.not_eq_true', Bool.not_eq_false, List.contains_iff_mem,
        and_true]
      exact ⟨fun ⟨n, ⟨low, high⟩, react, taint⟩ => ⟨taint, n, low, high, react⟩,
        fun ⟨taint, n, low, high, react⟩ => ⟨n, ⟨low, high⟩, react, taint⟩⟩

/-- A list is good where each entry is: the offset only tells where the first fault lies. -/
theorem entriesFault_eq_none_iff (o : Nat) (l : List FaultEntry) :
    entriesFault o l = none ↔ ∀ e ∈ l, entryFault e = none := by
  induction l generalizing o with
  | nil => simp [entriesFault]
  | cons e es ih =>
    cases good : entryFault e with
    | none => simp [entriesFault, good, ih]
    | some x => simp [entriesFault, good]

/-! ### FAULT_CONFIG and FC_CFG_WRITE (R310) -/

theorem exec_faultConfig (s : State) (hdr : Hdr) (l : List FaultEntry) :
    exec (.faultConfig hdr l) s = .next { s with hub := opFaultConfig hdr l s.hub } := rfl

theorem exec_fcCfgWrite (s : State) (x : Nat) (v : W32) :
    exec (.fcCfgWrite x v) s = .next { s with hub := { s.hub with fc := s.hub.fc.writeCfg x v } } := rfl

section
variable {h : Hub} {hdr : Hdr} {l : List FaultEntry}

/-- FAULT_CONFIG whose entries are all good. -/
theorem opFaultConfig_of_good (a : h.admits 0x0900 hdr = true) (short : l.length ≤ 511) (good : entriesFault 2 l = none) :
    opFaultConfig hdr l h = { h.taken hdr with fc := l.foldl Fc.configure h.fc }.answer 0x0900 hdr .ok [] := by
  rw [opFaultConfig, h.icp_admits _ _ _ a, if_neg (by omega), good, h.taken_fc hdr]
  rfl

/-- FAULT_CONFIG with a faulty field. -/
theorem opFaultConfig_of_fault {o : Nat} (a : h.admits 0x0900 hdr = true) (short : l.length ≤ 511)
    (bad : entriesFault 2 l = some o) :
    opFaultConfig hdr l h = (h.taken hdr).answer 0x0900 hdr .badArg (badArgBody o 0) := by
  rw [opFaultConfig, h.icp_admits _ _ _ a, if_neg (by omega), bad]
  rfl

end

/-- FAULT_CONFIG sets the sources of its entries in their order, in the fault collector and nowhere else. -/
theorem faultConfig_configures {s : State} {hdr : Hdr} {l : List FaultEntry} (a : s.hub.admits 0x0900 hdr = true)
    (short : l.length ≤ 511) (good : entriesFault 2 l = none) :
    s.answers (.faultConfig hdr l) 0x0900 hdr [.fc] [] fun h => h.fc = l.foldl Fc.configure s.hub.fc := by
  refine State.answers_intro { s.hub.taken hdr with fc := l.foldl Fc.configure s.hub.fc } ?_ ?_ ⟨[], ?_⟩ ?_ ?_
  · rw [exec_faultConfig, opFaultConfig_of_good a short good]
  · exact s.hub.taken_sameReplies hdr
  · rw [List.append_nil]
    exact s.hub.taken_out hdr
  · intro b n
    cases b
    case fc => exact absurd (by decide) n
    all_goals rfl
  · rw [Hub.answer_fc]

/-- FC_CFG_WRITE of a source of the catalogue writes its word and no other source's. -/
theorem fcCfgWrite_writes {s : State} {x : Nat} {v : W32} {r : SourceRow} (row : sourceRow x = some r) :
    s.completes (.fcCfgWrite x v) [.fc] fun h =>
      h.fc.cfg x = (if r.fixed then cfgWord 0 10 4 (v.getLsbD 13) else v &&& 0x3FFF) ∧
        ∀ y, y ≠ x → h.fc.source y = s.hub.fc.source y := by
  refine State.completes_intro _ (exec_fcCfgWrite s x v) (fun b n => ?_)
    ⟨Fc.cfg_writeCfg row _ v, fun y other => Fc.source_writeCfg_other other _ v⟩
  cases b
  case fc => exact absurd (by decide) n
  all_goals rfl

/-- FC_CFG_WRITE of a reserved number leaves the hub as it is. -/
theorem fcCfgWrite_ignores {s : State} {x : Nat} {v : W32} (row : sourceRow x = none) :
    s.completes (.fcCfgWrite x v) [] fun _ => True :=
  State.completes_intro s.hub (by rw [exec_fcCfgWrite, Fc.writeCfg_of_reserved row]) (s.hub.onlyIn_refl _) trivial

/-- Settles O16: the words hold their fields and no more (`cfgWord_taint`, `cfgWord_and_mask`), so that a source's word
reads back as it has been written; FAULT_CONFIG and FC_CFG_WRITE then take one branch each. -/
theorem faultSourcesAreConfigured : Obligations.FaultSourcesAreConfigured := by
  unfold Obligations.FaultSourcesAreConfigured
  refine ⟨entryFault_eq_none_iff, entriesFault_eq_none_iff, fun f x r _ => ?_, fun f e r row _ => f.cfg_configure row,
    fun f e x _ => f.source_configure e x, fun s hdr l a short => ⟨faultConfig_configures a short, fun o bad => ?_⟩,
    fun s x v r row => fcCfgWrite_writes row, fun s x v row => fcCfgWrite_ignores row⟩
  · obtain ⟨n1, n16⟩ := cfgN_range (f.cfg x)
    obtain ⟨w10, w42⟩ := cfgWexp_range (f.cfg x)
    exact ⟨n1, n16, w10, w42, by simp only [cfgReaction, List.contains_iff_mem]⟩
  · exact State.refuses_intro (by rw [exec_faultConfig, opFaultConfig_of_fault a short bad])

end Sys2Proof.Machine
